-- ==== Sys2Proof/Word.lean ====
section
/-! DEFINITION. The word types of the engine and the plain data shapes that its state is built of. -/

namespace Sys2Proof

/-- A register, a counter and a time-base value (R10): 64 bits. -/
abbrev Word := BitVec 64

/-- One byte of memory (R7). -/
abbrev Byte := BitVec 8

/-- A byte string, first byte at the lowest address (R7: values in it are little-endian). -/
abbrev Bytes := List (BitVec 8)

/-- A sparse array: pairs of an index and a value, in strictly rising order of the index. An index that is not
listed holds its array's reset value, and no entry holds that value, so equal arrays are equal data. -/
abbrev Tab (α : Type) := List (Nat × α)

/-- An exact number as the number formats of R27 hold them: a NaN, an infinity, or the value
(−1)^neg · mag · 2^exp. A zero keeps its sign. -/
inductive Num where
  | nan
  | inf (neg : Bool)
  | fin (neg : Bool) (mag : Nat) (exp : Int)
  deriving DecidableEq, Repr, Inhabited

/-- The floating-point formats of R27. -/
inductive FloatFmt where
  | fp32 | bf16 | fp16 | e4m3 | e5m2
  deriving DecidableEq, Repr, Inhabited

end Sys2Proof
end

