-- ==== Sys2Proof/Syntax.lean ====
section
/-! DEFINITION. The commands the engine takes: one constructor for each row of spec/opcode_table.json, in the
table's order. The table gives no operands, so the operands are this model's: what the command's rule reads from
outside (a value written, a packet received, a sensor), and, where the spec leaves the engine or its surroundings a
choice, the choice made. NOTES.md lists them. -/

namespace Sys2Proof

/-- A Nalmal packet as it arrives at or leaves a port: the 16 header bytes as one number (R367) and the payload. -/
structure Packet where
  hdr : BitVec 128
  data : Bytes
  deriving DecidableEq, Repr, Inhabited

/-- What start-up finds outside the engine (R634): clocks, training, tests and links. -/
structure BootEnv where
  pllLocks : Bool := true
  /-- stack interface lanes short of an ample margin: number (layer · 16,384 + lane), timing margin in hundredths of a
  UI, voltage margin in mV, at the trained point (R330, R726) -/
  margins : List (Nat × Nat × Nat) := []
  /-- stack rows, bank and row, that fail the quick self-test -/
  badRows : List (Nat × Nat) := []
  /-- generation each port's link came up with, 0 for down, ports 0 to 15 (R364) -/
  links : List Nat := []
  /-- slots of the own rack with no chip (R363) -/
  vacant : List Nat := []
  deriving DecidableEq, Repr, Inhabited

/-- What the code over a granule makes of its bits (R324): at most one 4-bit symbol in error is corrected, two are
detected; three or more may be detected, and may go unnoticed or be miscorrected, when the given data is delivered. -/
inductive EccFinding where
  | clean | correctable | uncorrectable
  | unnoticed (data : Bytes)
  | miscorrected (data : Bytes)
  deriving DecidableEq, Repr, Inhabited

/-- Stack granules that a command reads or writes in part, each with what its read finds; the others read clean. -/
abbrev EccReads := List (Nat × EccFinding)

/-- What a scoring tile's own reads meet (R325, R326, R588, R592): an error of a stack granule that holds router
weights, a word of a cube group's buffers that is corrected, one that is not (in the row buffer, of one token; in the
panel buffer), or an uncorrectable word of the context, sequence or program tables. -/
inductive TileError where
  | stack (granule : Nat) (finding : EccFinding)
  | corrected (group : Nat)
  | rowUe (group index : Nat)
  | panelUe (group : Nat)
  | tableUe
  deriving DecidableEq, Repr, Inhabited

/-- What happens on a lane's return queue between two commands: flits arrive, packets among them end, and flits leave,
consumed or discarded, in this order (R142, R146, R174). -/
structure RqFlow where
  arrive : Nat
  ends : Nat
  leave : Nat
  deriving DecidableEq, Repr, Inhabited

/-- What a line meets as it enters a slot (R215 to R217, R325, R326, R588). -/
inductive LineFault where
  /-- its residue check fails so many times in a row -/
  | residue (n : Nat)
  /-- the k-th granule of the accumulators it reads -/
  | acc (k : Nat) (finding : EccFinding)
  /-- a word of the on-die memory of its slice or its lane is corrected -/
  | sliceCe | laneCe
  /-- an uncorrectable word of the tally store or of the choice tables -/
  | tallyUe
  /-- an uncorrectable word of the return queue -/
  | queueUe
  deriving DecidableEq, Repr, Inhabited

/-- The line positions of a row that meet something, in the order in which they enter. -/
abbrev LineFaults := List (Nat × LineFault)

/-- The commands. -/
inductive Instr where
  | registerWrite (addr size : Nat) (v : Word)
  | arrivalCounterWrite (c : Nat) (v : Word)
  | dbRing (p : Nat) (v : Word)
  | db1Ring (p : Nat) (v : Word) (viaAlias : Bool)
  | dbAbort (p : Nat) (v : Word)
  | stepAdmit (p : Nat)
  | stepStart (x : Nat)
  | layerGroupStart (x : Nat)
  | layerGroupDone (x : Nat)
  | opScoreBackward (x faults : Nat)
  | opAwait (x : Nat)
  | awaitMet (x : Nat)
  | opExit (x : Nat)
  | opReduce (x : Nat)
  | opFetch (x : Nat)
  | opCopy (x : Nat)
  | opMark (x : Nat)
  | opFence (x : Nat)
  | fenceDone (x : Nat)
  | opLoop (x : Nat)
  | stepComplete (x : Nat)
  | scoreTileStart (p : Nat) (box : List Nat) (errors : List TileError)
  | scoreTileDone (x faults : Nat)
  | selectTile (x : Nat) (differ : Nat)
  | admissionRound (x : Nat)
  | selectionClose (x : Nat)
  | exitCount (x index : Nat)
  | slotBind (x slot : Nat)
  | tokenPacketWrite (lane : Nat)
  | closePacketWrite (lane x : Nat)
  | dqCountUpdate (lane : Nat)
  | packetTake (lane flits : Nat)
  | laneDrop (lane : Nat) (atEnd : Bool)
  | lcmdUndefined (lane cmd : Nat)
  | store (lane : Nat) (hdr : BitVec 256) (data : Bytes) (endAt : Nat) (faults : LineFaults) (flow : List RqFlow)
  | withdraw (lane : Nat) (hdr : BitVec 256) (endMark : Bool) (flow : List RqFlow)
  | fault (lane : Nat) (hdr : BitVec 256) (endMark : Bool) (flow : List RqFlow)
  | mixTermEnter (slot : Nat) (faults : LineFaults)
  | tokenRelease (slot : Nat)
  | tokenCount (slot : Nat)
  | stepStall (x : Nat)
  | peakRst
  | shadowBatchForm (x e : Nat)
  | shadowWaitExpire (x e : Nat)
  | shadowBatchRun (p : Nat)
  | shadowBatchDone (p cubes : Nat) (reads : EccReads) (faults : List LineFaults)
  | codecStatusWord (w : Word)
  | codecSilence (stream : Nat)
  | deadlineEval
  | programLoad (v : Word)
  | programLoadDone
  | refresh (bank : Nat)
  | tempSample (layers : List Nat) (logic : Nat)
  | bandCool
  | scrubRead (granule : Nat) (finding : EccFinding) (copies : List Nat)
  | rowRepair (bank row : Nat)
  | poolAlloc (cls x p kind : Nat)
  | freeListRebuildDone (cls : Nat)
  | inflightAllocRetry (cls : Nat)
  | polOpAlloc (v : Word) (reads : EccReads)
  | polOpFree (v : Word) (reads : EccReads)
  | polOpQrel (v : Word) (clean : Bool)
  | linkUp (port gen : Nat)
  | linkDown (port : Nat)
  | linkRetry (port : Nat) (pkt : Packet)
  | portRemap
  | portOosReq (port : Nat)
  | portRtsReq (port : Nat)
  | msRequest (x : Nat) (pkt : Packet)
  | rd (port : Nat) (pkt : Packet)
  | wr (port : Nat) (pkt : Packet)
  | wrm (port : Nat) (pkt : Packet)
  | add32 (port : Nat) (pkt : Packet)
  | add64 (port : Nat) (pkt : Packet)
  | fadd32 (port : Nat) (pkt : Packet)
  | fadd64 (port : Nat) (pkt : Packet)
  | swap32 (port : Nat) (pkt : Packet)
  | swap64 (port : Nat) (pkt : Packet)
  | cas64 (port : Nat) (pkt : Packet)
  | xadd80 (port : Nat) (pkt : Packet)
  | xadd128 (port : Nat) (pkt : Packet)
  | cpy (port : Nat) (pkt : Packet)
  | cpyrd (port : Nat) (pkt : Packet)
  | dataReply (port : Nat) (pkt : Packet)
  | ackReply (port : Nat) (pkt : Packet)
  | requestTimeout (tag : Nat)
  | tagFreeExpire (tag : Nat)
  | msfCpy (v : Word)
  | copyEnd (cid : Nat)
  | own (port : Nat) (pkt : Packet)
  | ownApply
  | fmTeardown (port : Nat) (pkt : Packet)
  | rhdr (port : Nat) (pkt : Packet)
  | rrow (port : Nat) (pkt : Packet)
  | rclose (port : Nat) (pkt : Packet)
  | rstore (port : Nat) (pkt : Packet) (faults : LineFaults)
  | rwdraw (port : Nat) (pkt : Packet)
  | colGrpCreate (v : Word)
  | colGrpDelete (v : Word)
  | cjoin (port : Nat) (pkt : Packet)
  | ccred (port : Nat) (pkt : Packet)
  | colSubmit (v : Word)
  | collectiveStart (g : Nat)
  | cdata (port : Nat) (pkt : Packet)
  | cres (port : Nat) (pkt : Packet)
  | cfail (port : Nat) (pkt : Packet)
  | collectiveTrigger (g : Nat) (faults : List Nat)
  | collectiveTimeout (g : Nat)
  | collectiveEnd (g : Nat)
  | collectiveCount (g : Nat)
  | ctxLoad (x : Nat)
  | ctxLoadDone (x : Nat)
  | ctxPark (x : Nat)
  | parkBoundary (x : Nat)
  | parkCwaitExpire (x : Nat)
  | parkSaveDone (x : Nat) (written : Bool)
  | ctxUnpark (x : Nat)
  | unparkDone (x : Nat) (intact : Bool) (slots : List Nat)
  | ctxUnload (x : Nat)
  | ctxTeardown (x : Nat)
  | teardownDone (x : Nat)
  | ctxCfgWrite (x : Nat) (v : Word)
  | parWrite (p reg : Nat) (v : Word)
  | accountingWindow (x : Nat) (events : List Nat) (occupied : List (Nat × Nat × Nat))
  | lockstepCfgWrite (i : Nat) (v : Word)
  | lscmpDigests (port : Nat) (pkt : Packet)
  | lscmpArray (port : Nat) (pkt : Packet)
  | lscmpFreeze (port : Nat) (pkt : Packet)
  | lockstepTimeout (i : Nat)
  | wayRingWrite (v : Word)
  | wayRptrWrite (v : Word)
  | waymarkRingWrite
  | flashLogWrite
  | twnAttach (v : Word)
  | attreqRetry
  | attreq (port : Nat) (pkt : Packet)
  | attack (port : Nat) (pkt : Packet)
  | attnak (port : Nat) (pkt : Packet)
  | twnDetach (v : Word)
  | detach (port : Nat) (pkt : Packet)
  | begin (port : Nat) (pkt : Packet)
  | tmir (port : Nat) (pkt : Packet)
  | endDelta (port : Nat) (pkt : Packet)
  | ack (port : Nat) (pkt : Packet)
  | nak (port : Nat) (pkt : Packet)
  | heartbeatSlot
  | thb (port : Nat) (pkt : Packet)
  | heartbeatMiss
  | suspectResend
  | confirm (port : Nat) (pkt : Packet)
  | deny (port : Nat) (pkt : Packet)
  | fenced (port : Nat) (pkt : Packet)
  | lost (port : Nat) (pkt : Packet)
  | assumed (port : Nat) (pkt : Packet)
  | twnCkpt (v : Word)
  | twnAdopt (v : Word)
  | mclr
  | tsync (t1 t2 t3 t4 : Nat)
  | tsyncTimeout
  | twinDiscoveryExpire
  | islandTakeOut (i : Nat)
  | islandTestReturn (i : Nat)
  | islandTestStart
  | islandTestDone (i : Nat) (pass : Bool)
  | hostWriteRefused (x : Nat)
  | pllUnlock
  | droopDetect (i : Nat)
  | droopRecover (i : Nat)
  | islandClockGate (i : Nat)
  | powerStateRequest (r : Nat)
  | powerStateReached
  | powerCapWindow (est : Nat)
  | resetAssert
  | startUp (env : BootEnv)
  | restart
  | updOpen
  | updWrite (badPage : Option Nat)
  | updCommit (good : Bool)
  | updAbort
  | updateSessionTimeout
  | cfgApply (v : Word)
  | cfgApplyPartition
  | cfgApplyTimeout
  | cfgRd (v : Word)
  | nonceDraw
  | debugUnlock (v : Word)
  | revoke (v : Word)
  | arbCommit (v : Word)
  | programSlot (v : Word) (good : Bool)
  | relock
  | atnAck (v : Word)
  | atnEseqRead
  | entdaa (addr : Nat) (held : Bool)
  | setdasa (addr : Nat) (held : Bool)
  | setnewda (addr : Nat)
  | rstdaa
  | getpid
  | getbcr
  | getdcr
  | getstatus
  | getmrl
  | getmwl
  | rdreg (addr : Nat)
  | wrreg (addr : Nat) (v : Word)
  | telem
  | logrd (addr len : Nat)
  | i3cUpdOpen
  | i3cUpdWrite (ofs : Nat) (page : Bytes) (good : Bool)
  | updHdr (piece : Nat) (data : Bytes)
  | i3cUpdCommit (good : Bool)
  | i3cUpdAbort
  | i3cReadReply
  | slice (hdr : BitVec 256) (rows : Bytes)
  | mark (hdr : BitVec 256)
  | unmark (hdr : BitVec 256)
  | laneOosReq (lane : Nat)
  | laneLeaveService (lane : Nat)
  | laneRtsReq (lane : Nat)
  | laneEnterService (lane : Nat)
  | laneAbort (lane : Nat)
  | laneIslandFault (lane : Nat)
  | lanCtWrite (lane : Nat) (v : Word)
  | lanWmWrite (lane : Nat) (rq : Bool) (v : Word)
  | lanBackWrite (lane : Nat) (v : Word)
  | bypass (tdi : Nat)
  | idcode
  | secchal (block : Bytes)
  | samplePreload (pins : Nat) (tdi : Nat)
  | extest (pins : Nat) (tdi : Nat)
  | wsel (i : Nat)
  | wir (code : Nat)
  | wdr (tdi : Nat)
  | linkDeliveryReport (port : Nat) (pkt : Packet)
  deriving DecidableEq, Repr, Inhabited
end Sys2Proof
end

