-- ==== Sys2Proof/Decode.lean ====
section
/-! DEFINITION. Commands as table words. spec/opcode_table.json gives no row any bits: a command is an access, a packet or
an event with its operands, so no word spells one. -/

namespace Sys2Proof

/-- The command a word of `nbits` bits spells by the table's bits: none, since no row of the table gives bits. -/
def decodeTableWord (_nbits _w : Nat) : Option Instr := none

end Sys2Proof
end

