-- ==== Sys2Proof/Config.lean ====
section
/-! DEFINITION. What the spec leaves to the part or leaves open: constants and functions with no body, so that no
statement can rest on a value of them (log 3, log 8). -/

namespace Sys2Proof.Config

/-- A fresh free byte: undefined output (R483), a flash page whose read-back differed (R661). -/
opaque freeByte : Nat → Byte

/-- Fresh entropy of 64 bits: nonces (R654) and the boot's random numbers (R317, R376). -/
opaque entropy : Nat → Word

/-- Sine and cosine of an angle of infinitely many turns, by its sign: R50 states none (log 26). -/
opaque sinCosInf : Bool → Num × Num

/-- Varvayth's JEDEC manufacturer identity, 11 bits (R733, R740). -/
opaque jedecId : Nat

/-- Varvayth's MIPI manufacturer ID, 15 bits (R700, R705). -/
opaque mipiId : Nat

end Sys2Proof.Config
end

