-- ==== Sys2Proof/Machine/Numerics.lean ====
section
/-! DEFINITION. Number formats, windows and special functions (R27 to R68, R758): every procedure is exact on
`Num`, with the roundings the rules name and no others. -/

namespace Sys2Proof.Machine

/-! ## Formats (R27 to R31) -/

/-- Exponent bits of a format (R27). -/
def floatEBits : FloatFmt → Nat
  | .fp32 => 8 | .bf16 => 8 | .fp16 => 5 | .e4m3 => 4 | .e5m2 => 5

/-- Fraction bits of a format (R27). -/
def floatFBits : FloatFmt → Nat
  | .fp32 => 23 | .bf16 => 7 | .fp16 => 10 | .e4m3 => 3 | .e5m2 => 2

/-- Exponent bias of a format (R27). -/
def floatBias (f : FloatFmt) : Int := (2 ^ (floatEBits f - 1) : Nat) - 1

/-- Bytes one element of a format takes. -/
def floatBytes : FloatFmt → Nat
  | .fp32 => 4 | .bf16 => 2 | .fp16 => 2 | .e4m3 => 1 | .e5m2 => 1

/-- The encoding of the largest finite value, sign bit 0 (R27). -/
def floatMaxBits : FloatFmt → Nat
  | .fp32 => 0x7F7FFFFF | .bf16 => 0x7F7F
  | .fp16 => 0x7BFF | .e4m3 => 0x7E | .e5m2 => 0x7B

/-- The canonical NaN of a format (R29). -/
def floatNaNBits : FloatFmt → Nat
  | .fp32 => 0x7FC00000 | .bf16 => 0x7FC0
  | .fp16 => 0x7E00 | .e4m3 => 0x7F | .e5m2 => 0x7E

/-- The encoding of +∞, or of the largest finite value where the format has no infinity (R27, R31). -/
def floatInfBits : FloatFmt → Nat
  | .e4m3 => 0x7E
  | f => (2 ^ floatEBits f - 1) <<< floatFBits f

/-- The sign bit of a format as a number. -/
def floatSignBit (f : FloatFmt) (neg : Bool) : Nat :=
  if neg then 1 <<< (floatEBits f + floatFBits f) else 0

/-- The value an encoding stands for (R27, R28). -/
def floatDecode (f : FloatFmt) (bits : Nat) : Num :=
  let fb := floatFBits f
  let eb := floatEBits f
  let fr := bits % 2 ^ fb
  let ex := (bits >>> fb) % 2 ^ eb
  let neg := (bits >>> (fb + eb)) % 2 == 1
  if ex == 0 then .fin neg fr (1 - floatBias f - fb)
  else if f != .e4m3 && ex == 2 ^ eb - 1 then
    (if fr == 0 then .inf neg else .nan)
  else if f == .e4m3 && ex == 15 && fr == 7 then .nan
  else .fin neg (2 ^ fb + fr) (ex - floatBias f - fb)

/-- mag · 2^exp rounded to nearest, ties to even, to a multiple of 2^q: the multiple (R31, R39). -/
def roundToExp (mag : Nat) (exp q : Int) : Nat :=
  let d := q - exp
  if d ≤ 0 then mag <<< (-d).toNat
  else
    let k := d.toNat
    let hi := mag >>> k
    let lo := mag % 2 ^ k
    let half := 2 ^ (k - 1)
    if lo > half || (lo == half && hi % 2 == 1) then hi + 1 else hi

/-- The exponent of the last place when `fb` fraction bits are kept and the range of exponents is unbounded. -/
def lastPlace (fb mag : Nat) (exp : Int) : Int := Nat.log2 mag + exp - fb

/-- A number narrowed to a format: its encoding and whether the value lies beyond the largest finite value after
rounding (R31). `sat` chooses what such a value becomes: the largest finite value (R31) or an infinity (IEEE 754). -/
def floatNarrow (sat : Bool) (f : FloatFmt) : Num → Nat × Bool
  | .nan => (floatNaNBits f, false)
  | .inf n => (floatSignBit f n + floatInfBits f, false)
  | .fin n 0 _ => (floatSignBit f n, false)
  | .fin n m e =>
    let fb := floatFBits f
    let qmin : Int := 1 - floatBias f - fb
    let q := max qmin (lastPlace fb m e)
    let mm := roundToExp m e q
    let bits := ((q - qmin).toNat <<< fb) + mm
    if bits > floatMaxBits f then
      (floatSignBit f n + (if sat then floatMaxBits f else floatInfBits f), true)
    else (floatSignBit f n + bits, false)

/-- Conversion by R31. -/
def floatEncode (f : FloatFmt) (x : Num) : Nat := (floatNarrow true f x).1

/-- Whether conversion by R31 saturates a finite value. -/
def floatSaturates (f : FloatFmt) (x : Num) : Bool := (floatNarrow true f x).2

/-- Rounding of an IEEE 754 operation of a format: to nearest even, overflow to an infinity (R34, R63). -/
def ieeeRound (f : FloatFmt) (x : Num) : Num := floatDecode f (floatNarrow false f x).1

/-- Rounding by R31 read back as a value. -/
def satRound (f : FloatFmt) (x : Num) : Num := floatDecode f (floatEncode f x)

/-- fp32() of R34 and R63. -/
def fp32 (x : Num) : Num := ieeeRound .fp32 x

/-! ## Exact arithmetic -/

/-- +0. -/
def numZero : Num := .fin false 0 0

/-- A whole number. -/
def numOfInt (i : Int) : Num := .fin (i < 0) i.natAbs 0

/-- The signed significand of a finite number. -/
def signedMag (neg : Bool) (mag : Nat) : Int := if neg then - (mag : Int) else mag

/-- The number i · 2^e, a zero being +0. -/
def numOfScaled (i : Int) (e : Int) : Num := .fin (i < 0) i.natAbs e

def numNeg : Num → Num
  | .nan => .nan
  | .inf n => .inf (!n)
  | .fin n m e => .fin (!n) m e

/-- Whether a number is a zero of either sign. -/
def numIsZero : Num → Bool
  | .fin _ 0 _ => true
  | _ => false

def numIsNaN : Num → Bool
  | .nan => true
  | _ => false

/-- The exact product; ∞ × 0 is NaN (R36, R60). -/
def numMul : Num → Num → Num
  | .nan, _ => .nan
  | _, .nan => .nan
  | .inf a, .inf b => .inf (a != b)
  | .inf a, .fin b m _ => if m == 0 then .nan else .inf (a != b)
  | .fin a m _, .inf b => if m == 0 then .nan else .inf (a != b)
  | .fin a m e, .fin b m' e' => .fin (a != b) (m * m') (e + e')

/-- A signed significand moved to a lower exponent. -/
def alignTo (q : Int) (neg : Bool) (mag : Nat) (exp : Int) : Int :=
  signedMag neg (mag <<< (exp - q).toNat)

/-- The exact sum; ∞ − ∞ is NaN; a zero sum is −0 only when both terms are −0 (IEEE 754, to nearest). -/
def numAdd : Num → Num → Num
  | .nan, _ => .nan
  | _, .nan => .nan
  | .inf a, .inf b => if a == b then .inf a else .nan
  | .inf a, .fin _ _ _ => .inf a
  | .fin _ _ _, .inf b => .inf b
  | .fin a m e, .fin b m' e' =>
    if m == 0 && m' == 0 then .fin (a && b) 0 0
    else if m == 0 then .fin b m' e'
    else if m' == 0 then .fin a m e
    else
      let q := min e e'
      numOfScaled (alignTo q a m e + alignTo q b m' e') q

/-- The exact sum of a list, its first member first. -/
def numSum : List Num → Num
  | [] => numZero
  | x :: xs => xs.foldl numAdd x

/-- A ranking of numbers for comparison (R32): NaN, then −∞, the finite numbers, +∞. -/
def numRank : Num → Int
  | .nan => -2
  | .inf true => -1
  | .fin _ _ _ => 0
  | .inf false => 1

/-- Less than, by R32: a NaN is less than every number and equal to a NaN; −0 equals +0. -/
def numLt (x y : Num) : Bool :=
  match x, y with
  | .fin a m e, .fin b m' e' =>
    let q := min e e'
    alignTo q a m e < alignTo q b m' e'
  | x, y => numRank x < numRank y

/-- At most, by R32. -/
def numLe (x y : Num) : Bool := !numLt y x

/-- Equality by R32. -/
def numEq (x y : Num) : Bool := !numLt x y && !numLt y x

/-- floor(x / 2^q) of a finite number. -/
def floorAt (q : Int) (neg : Bool) (mag : Nat) (exp : Int) : Int :=
  if q ≤ exp then alignTo q neg mag exp
  else (signedMag neg mag) / ((2 ^ (q - exp).toNat : Nat) : Int)

/-! ## W40 (R37 to R40) -/

/-- Rounding of a W40 operation (R39). -/
def w40 : Num → Num
  | .fin n m e =>
    if m == 0 then .fin n 0 0
    else
      let q := lastPlace 28 m e
      let mm := roundToExp m e q
      let top := Nat.log2 mm + q
      if top < -1022 then .fin n 0 0
      else if top ≥ 1024 then .inf n
      else .fin n mm q
  | x => x

/-- The 40 bits of a W40 value (R37, R38). -/
def w40Bits : Num → Nat
  | .nan => 0x7FF8000000
  | .inf n => (if n then 1 <<< 39 else 0) + (2047 <<< 28)
  | .fin n m e =>
    let s := if n then 1 <<< 39 else 0
    if m == 0 then s
    else
      let l := Nat.log2 m
      let frac := (if l ≤ 28 then m <<< (28 - l) else m >>> (l - 28)) - 2 ^ 28
      s + ((l + e + 1023).toNat <<< 28) + frac

/-! ## Tables (R46 to R49) -/

/-- The fixed-point scale that the table generator works at. -/
def tabPrec : Nat := 200

/-- ln 2 at that scale. -/
def ln2Fix : Nat := 0xb17217f7d1cf79abc9e3b39803f2f6af40f343267298b62d8a

/-- π at that scale. -/
def piFix : Nat := 0x3243f6a8885a308d313198a2e03707344a4093822299f31d008

/-- Newton's square root from above, on fuel. -/
def isqrtLoop : Nat → Nat → Nat → Nat
  | 0, _, x => x
  | k + 1, n, x =>
    let y := (x + n / x) / 2
    if y < x then isqrtLoop k n y else x

/-- The whole square root of a number. -/
def isqrt (n : Nat) : Nat :=
  if n == 0 then 0 else isqrtLoop (Nat.log2 n + 2) n (2 ^ (Nat.log2 n / 2 + 1))

/-- num/den rounded to nearest, ties to even. -/
def divRne (num : Int) (den : Nat) : Int :=
  let q := num / (den : Int)
  let r := (num % (den : Int)).toNat
  if 2 * r > den || (2 * r == den && q % 2 != 0) then q + 1 else q

/-- num/den rounded to 36 fraction bits (R49). -/
def rnd36 (num : Int) (den : Nat) : Int := divRne (num * (2 ^ 36 : Nat)) den

/-- 2^(k/256) at the generator's scale, k below 256: a product of repeated square roots of 2. -/
def pow2Fix (k : Nat) : Nat :=
  let one := 2 ^ tabPrec
  ((List.range 8).foldl (fun (acc : Nat × Nat) i =>
      let root := isqrt (acc.2 * one)
      ((if (k >>> (7 - i)) % 2 == 1 then acc.1 * root / one else acc.1), root))
    (one, 2 * one)).1

/-- The Taylor series of sine (`odd`) or cosine at the generator's scale. -/
def taylorLoop : Nat → Nat → Nat → Nat → Int → Bool → Int
  | 0, _, _, _, acc, _ => acc
  | f + 1, x, term, k, acc, neg =>
    let acc' := if neg then acc - term else acc + term
    let term' := term * x / 2 ^ tabPrec * x / 2 ^ tabPrec / ((k + 1) * (k + 2))
    taylorLoop f x term' (k + 2) acc' (!neg)

def sinFix (x : Nat) : Int := taylorLoop 40 x x 1 0 false
def cosFix (x : Nat) : Int := taylorLoop 40 x (2 ^ tabPrec) 0 0 false

/-- The four tables of R46. -/
inductive SfuTable where
  | exp2 | rcp | rsq | sin
  deriving DecidableEq, Repr

/-- Coefficients c0, c1, c2 of segment k of a table, with 36 fraction bits (R47, R49). RSQ's segments 256 to 511
are those of the interval from 2 to 4. -/
def sfuSegment : SfuTable → Nat → Int × Int × Int
  | .exp2, k =>
    let p := pow2Fix k
    let one := 2 ^ tabPrec
    (rnd36 p one, rnd36 (ln2Fix * p : Nat) (one * one * 256),
     rnd36 (ln2Fix * ln2Fix * p : Nat) (one * one * one * 131072))
  | .rcp, k =>
    let n := 256 + k
    (rnd36 256 n, rnd36 (-256) (n * n), rnd36 256 (n * n * n))
  | .rsq, k =>
    let n := 256 + k % 256
    let d := if k < 256 then 256 else 128
    let r := isqrt (2 ^ (2 * tabPrec) * d / n)
    let one := 2 ^ tabPrec
    (rnd36 r one, rnd36 (- ((r * d : Nat) : Int)) (one * n * 2 * d),
     rnd36 (3 * r * d * d : Nat) (one * 8 * n * n * d * d))
  | .sin, k =>
    let x := piFix * k / 512
    let s := sinFix x
    let one := 2 ^ tabPrec
    (rnd36 s one, rnd36 (piFix * cosFix x) (one * one * 512),
     rnd36 (- (piFix * piFix * s : Int)) (one * one * one * 524288))

/-- The value of a table at a 32-bit fraction of its domain, with 36 fraction bits (R48); `base` is the first
segment of the half that is used. -/
def sfuEval (t : SfuTable) (base a : Nat) : Int :=
  let c := sfuSegment t (base + a >>> 24)
  let u : Int := ((a % 2 ^ 24 : Nat) : Int)
  let t1 := c.2.1 + (c.2.2 * u) / (2 ^ 24 : Nat)
  c.1 + (t1 * u) / (2 ^ 24 : Nat)

/-- A 32-bit fraction of a domain turned into a table value times 2^e. -/
def sfuScaled (t : SfuTable) (base a : Nat) (e : Int) : Num := w40 (numOfScaled (sfuEval t base a) (e - 36))

/-! ## Functions (R50, R51) -/

/-- log2 e rounded to 40 fraction bits (R50). -/
def log2eFix : Int := divRne (2 ^ (40 + tabPrec) : Nat) ln2Fix

/-- exp(x) by R50. -/
def sfuExp (x : Num) : Num :=
  if numIsNaN x then .nan
  else if numLt (numOfInt 700) x then .inf false
  else if numLt x (numOfInt (-700)) then numZero
  else
    match x with
    | .fin n m e =>
      let y := floorAt (-32) n (m * log2eFix.toNat) (e - 40)
      sfuScaled .exp2 0 (y % (2 ^ 32 : Nat)).toNat (y / (2 ^ 32 : Nat))
    | _ => .nan

/-- The fraction, as 32 bits, and the exponent of a positive number m · 2^e with m from 1 to 2. -/
def normFrac (mag : Nat) (exp : Int) : Nat × Int :=
  let l := Nat.log2 mag
  ((if l ≤ 32 then mag <<< (32 - l) else mag >>> (l - 32)) - 2 ^ 32, exp + l)

/-- reciprocal(x) by R50. -/
def sfuRecip : Num → Num
  | .nan => .nan
  | .inf n => .fin n 0 0
  | .fin n m e =>
    if m == 0 then .inf n
    else
      let (a, ex) := normFrac m e
      let r := sfuScaled .rcp 0 a (-ex)
      if n then numNeg r else r

/-- rsqrt(x) by R50 (a zero of either sign gives +∞: R63 never asks for −0). -/
def sfuRsqrt : Num → Num
  | .nan => .nan
  | .inf n => if n then .nan else numZero
  | .fin n m e =>
    if m == 0 then .inf false
    else if n then .nan
    else
      let (a, ex) := normFrac m e
      if ex % 2 == 0 then sfuScaled .rsq 0 a (-(ex / 2))
      else sfuScaled .rsq 256 a (-((ex - 1) / 2))

/-- sigmoid(x) by R50. -/
def sfuSigmoid (x : Num) : Num :=
  if numIsNaN x then .nan
  else if numLt (numOfInt 700) x then numOfInt 1
  else if numLt x (numOfInt (-700)) then numZero
  else sfuRecip (w40 (numAdd (numOfInt 1) (sfuExp (numNeg x))))

/-- SiLU(x) by R50. -/
def sfuSilu (x : Num) : Num := w40 (numMul x (sfuSigmoid x))

/-- SIN at r · 2^−30 of a quarter turn, with S(1) = 1 (R50). -/
def sfuQuarter (r : Nat) : Int := if r ≥ 2 ^ 30 then 2 ^ 36 else sfuEval .sin 0 (r * 4)

/-- sin and cos of an angle in turns (R50); those of an infinite angle the spec does not state (log 26). -/
def sfuSinCos : Num → Num × Num
  | .fin n m e =>
    let f := (floorAt (-32) n m e % (2 ^ 32 : Nat)).toNat
    let q := f / 2 ^ 30
    let r := f % 2 ^ 30
    let s := sfuQuarter r
    let c := sfuQuarter (2 ^ 30 - r)
    let v := fun (i : Int) => w40 (numOfScaled i (-36))
    if q == 0 then (v s, v c)
    else if q == 1 then (v c, v (-s))
    else if q == 2 then (v (-s), v (-c))
    else (v (-c), v s)
  | .inf n => Config.sinCosInf n
  | .nan => (.nan, .nan)

/-! ## Scores (R41 to R45) -/

/-- Softmax scores of one token's logits (R41, R42). -/
def softmaxScores (z : List Num) : List Num :=
  let hi := numOfInt 700
  let lo := numOfInt (-700)
  if z.any numIsNaN then z.map (fun _ => .nan)
  else
    let top := z.foldl (fun m x => if numLt m x then x else m) (.inf true)
    if numLt hi top || z.all (fun x => numLt x lo) then
      let t := z.countP (fun x => numEq x top)
      -- 1/t rounded to W40: a quotient with 64 fraction bits and a sticky bit rounds as the exact one does
      let n := 2 ^ 64
      let qd := n / t
      let share := w40 (.fin false (2 * qd + (if n % t == 0 then 0 else 1)) (-65))
      z.map (fun x => if numEq x top then share else numZero)
    else
      let es := z.map sfuExp
      let s := match es with
        | [] => numZero
        | e :: r => r.foldl (fun a b => w40 (numAdd a b)) e
      let q := sfuRecip s
      es.map (fun e => w40 (numMul e q))

/-- Sigmoid scores of one token's logits (R43). -/
def sigmoidScores (z : List Num) : List Num := z.map sfuSigmoid

/-! ## Dot products (R33 to R36) -/

/-- The running FP32 result after each chunk of 8 products (R34); `run` is the running result before the first
chunk, none when the op starts one. The first argument is fuel: one unit for each chunk. -/
def dotChunks : Nat → Option Num → List Num → Option Num
  | 0, run, _ => run
  | k + 1, run, ps =>
    match ps with
    | [] => run
    | _ =>
      let c := fp32 (numSum (ps.take 8))
      let r := match run with
        | none => c
        | some a => fp32 (numAdd a c)
      dotChunks k (some r) (ps.drop 8)

/-- A floating-point dot product of the array (R34), continuing `run` where it is present (R80). -/
def dotFloat (run : Option Num) (xs ws : List Num) : Num :=
  let ps := List.zipWith numMul xs ws
  (dotChunks (ps.length / 8 + 1) run ps).getD numZero

/-- An INT8 dot product added to a running sum (R36). -/
def dotInt (run : Int) (xs ws : List Int) : Int :=
  (List.zipWith (· * ·) xs ws).foldl (· + ·) run

/-- A sum written to INT32 (R36). -/
def satInt32 (i : Int) : Int := max (-2147483648) (min i 2147483647)

/-! ## Windows (R53 to R62) -/

/-- A contribution to a window: floor(P / 2^res) clamped to ±2^clampBits, with its OVF and NANF flags
(R56, R57, R60). -/
def windowTerm (res : Int) (clampBits : Nat) : Num → Int × Bool × Bool
  | .nan => (0, false, true)
  | .inf n => (signedMag n (2 ^ clampBits), true, false)
  | .fin n m e =>
    let c := floorAt res n m e
    let lim : Int := (2 ^ clampBits : Nat)
    if c > lim then (lim, true, false) else if c < -lim then (-lim, true, false) else (c, false, false)

/-- A C80 contribution under window W (R56). -/
def c80Term (w : Int) (p : Num) : Int × Bool × Bool := windowTerm (w - 56) 74 p

/-- A C128 contribution under window W (R57). -/
def c128Term (w : Int) (p : Num) : Int × Bool × Bool := windowTerm (w - 96) 112 p

/-- The released value of a window element in a float format, and whether R31 saturated it (R61). -/
def windowRelease (f : FloatFmt) (res : Int) (i : Int) : Nat × Bool := floatNarrow true f (numOfScaled i res)

/-! ## MXFP8 (R30, R758) -/

/-- The exponent of the largest normal value of an element format (R758). -/
def mxEmax : FloatFmt → Int
  | .e4m3 => 8
  | _ => 15

/-- floor(log2) of the largest finite magnitude of a block; none when that is 0 or there is none (R758). -/
def mxTop (xs : List Num) : Option Int :=
  xs.foldl (fun acc x =>
    match x with
    | .fin _ m e =>
      if m == 0 then acc
      else
        let l : Int := Nat.log2 m + e
        match acc with
        | none => some l
        | some a => some (max a l)
    | _ => acc) none

/-- One block of 32 elements converted: element encodings and the scale byte (R758). -/
def mxBlock (f : FloatFmt) (xs : List Num) : List Nat × Nat :=
  let x : Int := match mxTop xs with
    | none => 0
    | some t => max (-127) (min (t - mxEmax f) 127)
  (xs.map (fun v => match v with
    | .fin n m e => floatEncode f (.fin n m (e - x))
    | v => floatEncode f v), (x + 127).toNat)

/-- The value of an MXFP8 element under its scale byte (R27, R34). -/
def mxValue (f : FloatFmt) (scale elem : Nat) : Num :=
  if scale == 255 then .nan
  else
    match floatDecode f elem with
    | .fin n m e => .fin n m (e + (scale : Int) - 127)
    | v => v

/-! ## RMS normalisation (R63) -/

/-- Sums neighbouring pairs once (R63). -/
def pairSums : List Num → List Num
  | a :: b :: rest => fp32 (numAdd a b) :: pairSums rest
  | xs => xs

/-- The factor r of R63 for a row of width d. -/
def rmsFactor (d : Nat) (eps : Num) (x : List Num) : Num :=
  let step := fun (s : List Num) (row : List Num) =>
    List.zipWith (fun a v => fp32 (numAdd a (numMul v v))) s row
  let rows := (List.range (d / 64)).map (fun r => (x.drop (64 * r)).take 64)
  let s := rows.foldl step (List.replicate 64 numZero)
  let s0 := ((List.range 6).foldl (fun l _ => pairSums l) s).headD numZero
  let mean := match s0 with
    | .fin n m e =>
      -- the quotient by d, with 300 further bits and a sticky bit, rounds to FP32 as the exact one does
      let num := m * 2 ^ 300
      fp32 (.fin n (2 * (num / d) + (if num % d == 0 then 0 else 1)) (e - 301))
    | v => v
  let den := fp32 (numAdd mean eps)
  if numIsZero den then numZero else satRound .fp32 (sfuRsqrt den)

/-- The scoring operands of a row, as BF16 values (R63). -/
def rmsRow (d : Nat) (eps : Num) (x g pc : List Num) : List Num :=
  let r := rmsFactor d eps x
  List.zipWith (fun v gp => satRound .bf16 (numAdd (numMul (fp32 (numMul v r)) gp.1) gp.2)) x (List.zip g pc)

/-! ## Position code (R64 to R67) -/

/-- Original-frame coordinates (h′, w′) by the orientation code; none for a reserved code (R66). -/
def orientCoords (code : Nat) (h w hs ws : Int) : Option (Int × Int) :=
  match code with
  | 0 => some (h, w)
  | 1 => some (ws - 1 - w, h)
  | 2 => some (hs - 1 - h, ws - 1 - w)
  | 3 => some (w, hs - 1 - h)
  | 4 => some (h, ws - 1 - w)
  | 5 => some (hs - 1 - h, w)
  | _ => none

/-- The two channels of one frequency: fp32(alpha · sin θ), fp32(alpha · cos θ), θ = coord · scale · freq with
the scale in 16 fraction bits (R67). -/
def posPair (alpha : Num) (coord : Int) (scale : Nat) (freq : Num) : List Num :=
  let sc := sfuSinCos (numMul (numOfScaled (coord * scale) (-16)) freq)
  [fp32 (numMul alpha sc.1), fp32 (numMul alpha sc.2)]

/-- The whole position code of a token: zeros outside the span (R67). Axes come as (coordinate, scale,
frequencies) in the order t, h, w. -/
def posCode (d base : Nat) (alpha : Num) (axes : List (Int × Nat × List Num)) : List Num :=
  let span := axes.flatMap (fun a => a.2.2.flatMap (posPair alpha a.1 a.2.1))
  let front := List.replicate base numZero ++ span
  front ++ List.replicate (d - front.length) numZero

/-- Gate times activation (R68). -/
def fusedSilu (f : FloatFmt) (a b : Num) : Nat := floatEncode f (numMul (sfuSilu a) b)

end Sys2Proof.Machine
end

