-- ==== Sys2Proof/Machine/State.lean ====
section
/-! DEFINITION. What the engine holds: the register window, the memories, and the unit state no register shows. -/

namespace Sys2Proof.Machine

/-! ## Route programs and steps -/

/-- One route op (R272, R273): the common fields, and bits [127:64] as `spec`. -/
structure RouteOp where
  opcode : Nat
  layer : Nat
  cheap : Bool
  cont : Bool
  save : Bool
  live : Nat
  param : Nat
  spec : BitVec 64
  deriving DecidableEq, Repr, Inhabited

/-- One version of a route program (R268 to R271). -/
structure Program where
  /-- which load brought it: no two versions share a number (R271, R497) -/
  ver : Nat
  /-- offset of its image in the program store (R269, R314) -/
  place : Nat
  /-- CRC field of the image (R268) -/
  crc : BitVec 32
  profiles : Nat
  nlayer : Nat
  d : Nat
  nlane : Nat
  stgTok : Nat
  ops : List RouteOp
  params : Bytes
  deriving DecidableEq, Repr, Inhabited

/-- An entry of the sequence table (R292, R96). -/
structure SeqEntry where
  ctx : Nat
  base : Nat
  count : Nat
  stream : Nat
  gt : Nat
  gh : Nat
  gw : Nat
  deriving DecidableEq, Repr, Inhabited

/-- An edit of an edit list that waits as a pending join (R292, R298). -/
structure Join where
  seq : Nat
  entry : SeqEntry
  deriving DecidableEq, Repr, Inhabited

/-- A step descriptor as R288 gives it; a v1 descriptor is held as the v2 descriptor it becomes (R290). -/
structure Desc where
  v1 : Bool
  ctx : Nat
  prog : Nat
  pass : Nat
  step : Word
  seed : Word
  tag : Nat
  ctrOfs : Nat
  readyCtr : Nat
  readyBase : Word
  dlBase : Nat
  compAddr : Nat
  editBase : Nat
  nedit : Nat
  bases : List Nat
  deriving DecidableEq, Repr, Inhabited

/-- Where a choice stands in admission (R113 to R116). -/
inductive ChoiceState where
  | undecided | admitted | shadowed | dropped
  deriving DecidableEq, Repr, Inhabited

/-- One routed choice of a token: the expert R110 chose, and the expert it is at now (R115). -/
structure Choice where
  orig : Nat
  cur : Nat
  state : ChoiceState
  deriving DecidableEq, Repr, Inhabited

/-- What selection keeps for one token of a layer (R110, R123, R134). -/
structure TokRec where
  index : Nat
  /-- fallback level read as the token's tile entered selection (R137) -/
  level : Nat
  /-- scores p of R41 to R43 -/
  scores : List Num
  choices : List Choice
  /-- experts that have refused the token (R115) -/
  refused : List Nat
  moved : Nat
  topup : Bool
  nan : Bool
  exited : Bool
  poisoned : Bool
  /-- the token has been bound, released or counted, as its kind requires (R196, R125, R126) -/
  settled : Bool
  /-- its arrival-counter increment has been made (R210, R126) -/
  counted : Bool
  /-- a forced exit has reached it after selection; its increment is due (R207) -/
  forced : Bool
  deriving DecidableEq, Repr, Inhabited

/-- Where a loaded shadow's weights stand (R231): the layer and expert, rank, format, and the place of the first matrix,
in the packed stream of the context's weight buffers or, for a table named through a base, in HBM. -/
structure ShadowPos where
  layer : Nat
  expert : Nat
  rank : Nat
  wfmt : Nat
  at_ : Nat
  inStk : Bool
  deriving DecidableEq, Repr, Inhabited

/-- A tile of tokens that the array runs (R81, R100). -/
structure Tile where
  toks : List Nat
  /-- rows read with poison marking (R593, R594) -/
  poisoned : List Nat
  /-- first tile of its run, or a rerun: pays the pipeline latency (R77, R92) -/
  first : Bool
  /-- cube groups that run it -/
  groups : List Nat
  /-- output positions, padding included (R81, R100) -/
  rows : Nat
  /-- distinct rows gathered (R100) -/
  touched : Nat
  deriving DecidableEq, Repr, Inhabited

/-- A scored token that waits for the select unit (R45): index, scores, exit confidence, poison. -/
structure Scored where
  index : Nat
  scores : List Num
  conf : Num
  poisoned : Bool
  deriving DecidableEq, Repr, Inhabited

/-- Progress of one physical lane through a layer's experts (R148, R149). -/
structure LaneRun where
  lane : Nat
  /-- experts of the lane whose batch-close packet has been written -/
  closed : List Nat
  /-- expert of the open batch, and its next BSEQ (R154, R157) -/
  expert : Option Nat
  bseq : Nat
  /-- the open batch stopped at a PARTIAL close (R182) -/
  partialClose : Bool
  deriving DecidableEq, Repr, Inhabited

/-- A shadowed choice that waits or runs (R237). -/
structure ShadowWait where
  index : Nat
  slot : Nat
  gate : BitVec 16
  since : Nat
  deriving DecidableEq, Repr, Inhabited

/-- A formed shadow batch (R237, R238). -/
structure ShadowBatch where
  ctx : Nat
  step : Word
  layer : Nat
  expert : Nat
  toks : List ShadowWait
  deriving DecidableEq, Repr, Inhabited

/-- Lock-step sums of a layer (R539): per logical lane LDSP and LRTN, per digest tile TOUT. -/
structure LockSums where
  ldsp : Tab Word
  lrtn : Tab Word
  tout : Tab Word
  deriving DecidableEq, Repr, Inhabited

/-- A layer group in progress (R278). -/
structure Group where
  layer : Nat
  /-- index of the group's first op -/
  first : Nat
  /-- effective PARAM offsets in bytes: SHADOW (none without one), SCORE, SELECT, DISPATCH, COMBINE -/
  pShadow : Option Nat
  pScore : Nat
  pSelect : Nat
  pDispatch : Nat
  pCombine : Nat
  fmt : Nat
  conv : Bool
  cont : Bool
  save : Bool
  /-- shadows of the layer (R229) -/
  shadows : List ShadowPos
  /-- tokens that entered the layer, ascending (R81) -/
  enter : List Nat
  /-- tokens not yet in a tile -/
  untiled : List Nat
  tile : Option Tile
  tilesRun : Nat
  /-- tiles scored and not yet selected, oldest first, and the pipeline time of each -/
  scored : List (List Scored)
  times : List Nat
  /-- engine time charged so far for the tile selected last (R502) -/
  spent : Nat
  toks : List TokRec
  /-- tokens that have completed or been forced out and whose increments are due, in that order (R212) -/
  finish : List Nat
  /-- choices each routed expert has admitted (R114) -/
  loads : Tab Nat
  /-- the layer is bounded (R130) -/
  bounded : Bool
  /-- rounds finished for every token (R113) -/
  round : Nat
  closed : Bool
  lanes : List LaneRun
  /-- released choices of each expert in the order the lanes deliver them (R127, R434): true and a token index for a
  choice of this chip, false and a token handle for a remote one -/
  order : Tab (List (Bool × Nat))
  /-- choices each lane has gone through of each expert, keyed by lane · 2048 + expert ID (R148) -/
  sent : Tab Nat
  shadowQ : Tab (List ShadowWait)
  started : Word
  /-- the layer's RCLOSE packets have been sent (R429) -/
  ringClosed : Bool
  /-- tsel of each digest tile, ascending, once admission has closed (R530) -/
  tsel : List Word
  /-- words of the layer summary that the step's record sums (R529): CHOICES, SHADOWED, DROPPED, MOVED -/
  tally : List Nat
  sums : LockSums
  deriving DecidableEq, Repr, Inhabited

/-- A layer of a placement table (R416, R417): MODE, FCTR, FCOUNT, and (OWNER, FETCHING, CAP) of each expert. -/
structure PlaceLayer where
  mode : Nat
  fctr : Nat
  fcount : Nat
  experts : List (Nat × Bool × Nat)
  deriving DecidableEq, Repr, Inhabited

/-- A version of a placement table that a context has adopted (R415, R419). -/
structure Placement where
  epoch : Nat
  down : Nat
  members : List Nat
  layers : List PlaceLayer
  deriving DecidableEq, Repr, Inhabited

/-- An entry of the slice table (R723). -/
structure SliceEnt where
  ctx : Nat
  stream : Nat
  slice : Nat
  base : Nat
  count : Nat
  orient : Nat
  hs : Nat
  ws : Nat
  deriving DecidableEq, Repr, Inhabited

/-- Step states (Step life cycle). -/
inductive StepPhase where
  | queued | admitted | running | draining
  deriving DecidableEq, Repr, Inhabited

/-- Asynchronous operations of a step (R279). -/
inductive AsyncOp where
  | copy (cid : Nat)
  | coll (group : Nat) (serial : Nat)
  deriving DecidableEq, Repr, Inhabited

/-- The four sums of a step's Waymark record, and its token totals (R528, R529). -/
structure StepSums where
  tokens : Nat
  exited : Nat
  choices : Nat
  shadowed : Nat
  dropped : Nat
  moved : Nat
  digest : Word
  layer : Nat
  deriving DecidableEq, Repr, Inhabited

/-- A step that is not COMPLETE. -/
structure Step where
  desc : Desc
  part : Nat
  /-- slice-table entries of the context at admission, newest first (R723) -/
  ents : List SliceEnt
  /-- DLM_THR at admission (R664), and the per-sequence deadlines read then (R246) -/
  thr : Word
  seqDl : Tab Nat
  phase : StepPhase
  /-- version of the program the step was admitted with (R271); the newest version while it is queued -/
  prog : Program
  op : Nat
  /-- iteration of each LOOP op in progress, by op index (R282) -/
  iters : Tab Nat
  /-- the op at `op` has been issued and waits for its end -/
  waiting : Bool
  /-- tokens whose tiles of the input gradient at `op` have run (R81, R501) -/
  backRows : Nat
  /-- physical lanes in service at admission (R151) and Carousel slices (R200) -/
  lanes : List Nat
  slices : List Nat
  /-- the sequences of the step: ID and entry (R292 to R294) -/
  seqs : List (Nat × SeqEntry)
  /-- layers classed bounded at admission (R130) -/
  boundedLayers : List Nat
  /-- placement table version adopted at admission (R419) -/
  place : Option Placement
  /-- token index and exit layer of every token that has exited (R122, R285) -/
  exited : Tab Nat
  group : Option Group
  /-- layers whose groups have completed with batches or RCLOSEs of them still to be written, oldest first (R148,
  R278, R435) -/
  tails : List Group
  slotRes : Nat
  level : Nat
  /-- step slack by the latest evaluation, in ns; none before one (R237) -/
  slack : Option Int
  tchoice : Bool
  retry : Bool
  poison : Bool
  ovf : Bool
  /-- end code of an abort (R304); 0 while the step is not aborted -/
  abort : Nat
  asyncs : List AsyncOp
  sums : StepSums
  joined : Nat
  deferred : Nat
  left : Nat
  tStart : Word
  cycles : Nat
  /-- sum of completed layer times in ns, and how many (R248) -/
  layerTime : Nat
  layersDone : Nat
  lastProgress : Word
  retries : Nat
  stretches : Nat
  /-- sequence table and pending joins before the step's edits (R304) -/
  undo : Option (Tab SeqEntry × List Join)
  /-- staging buffers its admission took, by sequence (R296) -/
  taken : List (Nat × List Nat)
  /-- frozen by lock-step (R542) -/
  frozen : Bool
  /-- its final Waymark record once formed; empty before (R528) -/
  record : Bytes
  /-- the edit list as submitted (R569), and whether the step adopted a new placement table -/
  edits : Bytes
  newTab : Bool
  /-- FRAMED buffers the step uses: class · 2^21 + index (R345) -/
  frames : List Nat
  /-- fence or twin wait marks of this step: transfer ID of its delta -/
  xid : Option Nat
  deriving DecidableEq, Repr, Inhabited

/-! ## Units -/

/-- One choice of a bound slot's choice table (R199, R206). -/
structure SlotChoice where
  expert : Nat
  gate : BitVec 16
  /-- gate of the expert first chosen, with which a shadow's row enters (R120, R235) -/
  origGate : BitVec 16
  /-- moved to the shadow of `orig`, or forced out: later returns are stale (R206, R255) -/
  withdrawn : Bool
  /-- answered by a WITHDRAW (R205) -/
  answered : Bool
  /-- a line of it has been accepted (R205, R206) -/
  lined : Bool
  orig : Nat
  /-- logical lane of its packet (R539) -/
  lane : Nat
  /-- time base at which its packet's header was taken (R255); none before that -/
  takenAt : Option Nat
  deriving DecidableEq, Repr, Inhabited

/-- One 32-element segment of a slot (R201, R202); its accumulators stand in the slot's frame of the stack (R315). -/
structure Seg where
  tally : Nat
  init : Bool
  /-- once the tally has reached the count: the rounded elements, and which of them saturated (R61, R202) -/
  out : List (Nat × Bool)
  deriving DecidableEq, Repr, Inhabited

/-- A bound Carousel slot. -/
structure Slot where
  part : Nat
  ctx : Nat
  step : Word
  /-- the token handle with bits [3:0] at 0 (R5) -/
  handle : Nat
  index : Nat
  layer : Nat
  d : Nat
  w : Int
  outFmt : FloatFmt
  count : Nat
  choices : List SlotChoice
  segs : List Seg
  ovf : Bool
  nanf : Bool
  poison : Bool
  wdraw : Bool
  /-- the mixing term has still to enter (R198) -/
  mixDue : Bool
  /-- its output row has been written and the counter increment is due (R209, R210) -/
  written : Bool
  deriving DecidableEq, Repr, Inhabited

/-- A slot that a park has saved, with the accumulators of its segments that have any (R221). -/
structure SavedSlot where
  slot : Slot
  accs : Tab Bytes
  deriving DecidableEq, Repr, Inhabited

/-- The Carousel's own state (R193, R218). -/
structure Car where
  slots : Tab Slot
  /-- binding generation of each slot (R427) -/
  gens : Tab Nat
  bad : List Nat
  deriving DecidableEq, Repr, Inhabited

/-- A packet in a dispatch queue (R147, R154). -/
structure DPkt where
  hdr : BitVec 256
  data : Bytes
  /-- a TOKEN packet; otherwise a CLOSE packet -/
  token : Bool
  void : Bool
  /-- flits written into the queue so far (R177) -/
  built : Nat
  /-- flits the tile has taken -/
  taken : Nat
  /-- the DQ_PKTS increment has been made (R159) -/
  counted : Bool
  part : Nat
  ctx : Nat
  step : Word
  expert : Nat
  index : Nat
  slot : Nat
  /-- logical lane it was built for (R148, R539) -/
  logical : Nat
  /-- token of another chip of the ring -/
  remote : Bool
  deriving DecidableEq, Repr, Inhabited

/-- A return that a tile owes (R168). -/
structure Owed where
  ctx : Nat
  step : Word
  handle : Nat
  expert : Nat
  slot : Nat
  part : Nat
  /-- elements not yet returned -/
  left : Nat
  deriving DecidableEq, Repr, Inhabited

/-- One dispatch lane beside its registers (R144 to R183). -/
structure Lane where
  /-- the image places the lane in service (R179) -/
  placed : Bool
  /-- it waits for its first step boundary: placed in service at READY, or at the PAR_LANE write that gave it to its
  partition (R179) -/
  due : Bool
  dq : List DPkt
  /-- C of the head batch, from LAN_CT as it became the head batch (R161) -/
  headC : Nat
  lpress : Bool
  /-- flits that the latest take passed, each with its end mark (R141, R143) -/
  out : List (BitVec 256 × Bool)
  owed : List Owed
  /-- occupancy of the return queue in flits, and the complete packets in it (R147, R188) -/
  rqOcc : Nat
  rqPkts : Nat
  /-- buffer handles of its backing (R145) -/
  backing : List Nat
  deriving DecidableEq, Repr, Inhabited

/-- The array's own state: tiles in progress and what continued products left (R80). -/
structure Sca where
  /-- running results of each context's product ops: (rows, columns, FP32 values), the newest of each shape first -/
  runs : Tab (List (Nat × Nat × List Num))
  /-- context whose work each partition's cube groups last ran, and its op index (R92) -/
  last : Tab (Nat × Nat)
  /-- the context most recently chosen in each partition (R503) -/
  chosen : Tab Nat
  deriving DecidableEq, Repr, Inhabited

/-- The shadow path: batches formed, and the batch each partition runs (R237, R238). -/
structure Shd where
  formed : Tab (List ShadowBatch)
  running : Tab ShadowBatch
  deriving DecidableEq, Repr, Inhabited

/-- One held slice deadline (R243, R244). -/
structure SliceDl where
  stream : Nat
  slice : Nat
  deadline : Int
  at_ : Nat
  deriving DecidableEq, Repr, Inhabited

/-- The deadline monitor. -/
structure Dlm where
  held : List SliceDl
  /-- time base of the last word of each stream (R247) -/
  last : Tab Nat
  /-- streams whose silence has been reported since their last word -/
  silent : List Nat
  /-- time base of the latest evaluation (R248) -/
  lastEval : Nat
  deriving DecidableEq, Repr, Inhabited

/-- The Ringmaster's own state. -/
structure Rgm where
  /-- loaded versions of each program ID, newest first (R269, R271) -/
  store : Tab (List Program)
  /-- program versions stored since reset -/
  loads : Nat
  steps : List Step
  seqs : Tab SeqEntry
  /-- pending joins of each context, oldest first (R298) -/
  pending : Tab (List Join)
  /-- staging buffers each sequence holds (R296, R297) -/
  seqBufs : Tab (List Nat)
  /-- TCLK count at which a step of each partition was last admitted or completed (R761) -/
  bounds : Tab Nat
  deriving DecidableEq, Repr, Inhabited

/-- Attention state that no register shows (R687, R698). -/
structure Atn where
  /-- newest unacknowledged event of each level, notice, service, urgent (R687) -/
  notice : Option Nat
  service : Option Nat
  urgent : Option Nat
  /-- newest ESEQ that a read of ATN_ESEQ has covered (R698) -/
  seen : Nat
  /-- MGT_EVTLOST has been raised since that read (R698) -/
  lossRaised : Bool
  deriving DecidableEq, Repr, Inhabited

/-- A pool buffer's state entry (R335). -/
structure PolEntry where
  owner : Nat
  part : Nat
  alloc : Bool
  quar : Bool
  held : Bool
  pchg : Bool
  framed : Bool
  gen : BitVec 32
  use : Nat
  fh : Nat
  deriving DecidableEq, Repr, Inhabited

/-- One pool beside its registers: the head of its free list, whose links stand in the buffers (R336, R337). -/
structure Pool where
  head : Option Nat
  entries : Tab PolEntry
  /-- quarantined buffers that are neither allocated nor on the list (R350, R360) -/
  off : List Nat
  rebuilding : Bool
  deriving DecidableEq, Repr, Inhabited

/-- An allocation that waits: of kind in-flight, or any kind while its pool's list is rebuilt (R341, R338). -/
structure PolWait where
  cls : Nat
  ctx : Nat
  part : Nat
  /-- the consumer's row of R339: 0 staging, 1 load, 2 restore, 3 lane backing, 4 ring tokens and copies -/
  kind : Nat
  deriving DecidableEq, Repr, Inhabited

/-- The pool manager (R334 to R351). -/
structure Pol where
  pools : Tab Pool
  /-- frame handles whose MARK is 1 (R344) -/
  marks : List Nat
  waits : List PolWait
  deriving DecidableEq, Repr, Inhabited

/-- A request in flight under its tag (R385, R403). -/
structure Req where
  ctx : Nat
  port : Nat
  pkt : Packet
  /-- lines it counts against R385 -/
  lines : Nat
  /-- TCLK count at its first issue -/
  issued : Nat
  timedOut : Bool
  retried : Bool
  /-- copy it belongs to, and the local or first line address of its lines -/
  copy : Option (Nat × Nat)
  /-- lines of it already answered (R369) -/
  got : List Nat
  /-- its place in the order of issue among those in flight (R377) -/
  serial : Nat
  deriving DecidableEq, Repr, Inhabited

/-- An async copy in flight (R387 to R391). -/
structure Copy where
  ctx : Nat
  /-- the step that issued it: its STEP -/
  step : Option Word
  pull : Bool
  sinc : Bool
  sctr : Nat
  peer : Nat
  src : Nat
  dst : Nat
  len : Nat
  rctr : Nat
  rinc : Bool
  /-- VERIFY and WCRC of a weight fetch (R443) -/
  wcrc : Option (BitVec 32)
  /-- lines issued, and lines acknowledged or written -/
  next : Nat
  done : Nat
  outcome : Nat
  poisoned : Bool
  /-- pool buffers that stage a COPY or FETCH op's lines (R339) -/
  staging : List Nat
  deriving DecidableEq, Repr, Inhabited

/-- The fabric's own state. -/
structure Fab where
  /-- packets handed to the links, oldest first: port and packet -/
  out : List (Nat × Packet)
  /-- ring packets not yet reported delivered (R431) -/
  kept : List (Nat × Packet)
  pkey : Word
  /-- ports of the mapping in force (R375, R378) -/
  map : List Nat
  /-- the set of in-service ports has changed and the mapping has not (R378) -/
  remap : Bool
  reqs : Tab Req
  copies : Tab Copy
  /-- requests that wait for the mapping or for a tag (R378, R385) -/
  held : List (Nat × Packet)
  /-- OWN messages that wait for outstanding writes (R397) -/
  owns : List (Nat × Packet)
  /-- last answer to a host requester: data, outcome, poison mark (R384, R403) -/
  answer : Bytes × Nat × Bool
  /-- the copy that ended or was refused last: its context and its outcome (R365, R399, R404) -/
  copyEnd : Nat × Nat
  /-- ownership cache: region and table entry, oldest first, at most 4,096 (R396) -/
  ownCache : List (Nat × Nat)
  /-- slots of the own rack with no chip (R363) -/
  vacant : List Nat
  deriving DecidableEq, Repr, Inhabited

/-- A remote choice held at its owner (R426, R432 to R434). -/
structure RingRec where
  ctx : Nat
  step : Nat
  src : Nat
  hdr : BitVec 256
  choice : Nat
  bgen : Nat
  nch : Nat
  epoch : Nat
  /-- 0 waits for its row, 1 ready, 2 written to a lane, 3 answered or returned whole (R437) -/
  state : Nat
  /-- 32-element segments returned so far (R437) -/
  lines : List Nat
  deriving DecidableEq, Repr, Inhabited

/-- A row held at an owner (R428, R433). -/
structure RingRow where
  ctx : Nat
  src : Nat
  handle : Nat
  /-- bits [7:0] of the step counter -/
  step : Nat
  /-- lines held; a row that is freed holds none -/
  lines : Tab Bytes
  /-- line numbers that have come (R440) -/
  seen : List Nat
  freed : Bool
  poison : Bool
  /-- choices of it written to a lane or answered -/
  used : Nat
  deriving DecidableEq, Repr, Inhabited

/-- An RCLOSE received (R429, R435). -/
structure RingClose where
  ctx : Nat
  step : Nat
  src : Nat
  layer : Nat
  expert : Nat
  count : Nat
  deriving DecidableEq, Repr, Inhabited

/-- Ring traffic held at an owner. -/
structure Ring where
  recs : List RingRec
  rows : List RingRow
  closes : List RingClose
  /-- buffers of each context that hold its rows and records (R432) -/
  bufs : Tab (List Nat)
  /-- packets that wait for a buffer, oldest first: port and packet (R341) -/
  wait : List (Nat × Packet)
  deriving DecidableEq, Repr, Inhabited

/-- What a context holds beside its registers. -/
structure Ctx where
  /-- chain of its final records (R531) -/
  chain : Word
  /-- placement table version in force, and the buffers that hold it (R419) -/
  place : Option Placement
  placeBufs : List Nat
  placeRaw : Bytes
  /-- router and shadow buffers (R231, R496) -/
  weightBufs : List Nat
  /-- where the shadows and the routers that they hold stand: routers as HBM address and place -/
  shadows : List ShadowPos
  routers : List (Nat × Nat)
  /-- the program version whose weights are held (R497) -/
  weightsOf : Option Nat
  /-- a PARK is accepted: time base at the request (R511) -/
  parkAt : Option Nat
  /-- the park boundary has been reached (R512) -/
  parkCut : Bool
  /-- LIVE bits of the op that completed last (R513) -/
  live : Nat
  /-- slots a park has saved (R221) -/
  saved : Option (List SavedSlot)
  /-- transfer ID of a checkpoint that is outstanding (R571) -/
  ckpt : Option Nat
  /-- the context runs under the assumed chip ID (R578) -/
  assumed : Bool
  /-- buffers of sequences that have left: the sequence, the STEP whose completion frees them, their handles (R297) -/
  leaving : List (Nat × Word × List Nat)
  /-- STEP of the latest completed step (R570); none since LOAD -/
  lastStep : Option Word
  deriving DecidableEq, Repr, Inhabited

/-- Power and start-up state beside the registers (R605, R622 to R639). -/
structure Pwr where
  halted : Bool
  /-- the reset input is asserted (R639) -/
  inReset : Bool
  /-- a restart has been accepted and the sequence from phase 1 has still to run (R638) -/
  booting : Bool
  /-- power state being moved to (R626) -/
  target : Option Nat
  /-- windows in a row with DUTY 1 and an estimate above the cap (R628) -/
  capWindows : Nat
  /-- a sensor above 105 °C has been reported and holds DUTY down (R631) -/
  thermal : Bool
  /-- leakage of each island kind from the image (R633) -/
  leak : List Nat
  /-- energy in 2^−32 nJ not yet counted, per context (R509) -/
  frac : Tab Nat
  deriving DecidableEq, Repr, Inhabited

/-! ## Collectives (R447 to R489) -/

/-- One segment of a collective's vector: SRC, DST and element count (R455). -/
structure ColSeg where
  src : Nat
  dst : Nat
  n : Nat
  deriving DecidableEq, Repr, Inhabited

/-- A submitted collective (R454 to R457). -/
structure ColReq where
  seq : Nat
  ctx : Nat
  /-- STEP of the step that issued it; none through COL_SUBMIT -/
  step : Option Word
  type : Nat
  ordered : Bool
  pack : Bool
  w : Int
  segs : List ColSeg
  /-- elements of the vector, padding included -/
  nelem : Nat
  cinc : Option Nat
  trig : Option (Nat × Nat)
  status : Nat
  deriving DecidableEq, Repr, Inhabited

/-- A unit of 32 elements (R461): C128 integers, or FP32 bit patterns in ordered-float mode. -/
structure ColUnit where
  vals : List Int
  nanf : Bool
  ovf : Bool
  deriving DecidableEq, Repr, Inhabited

/-- A collective that has started (R458). -/
structure ColRun where
  req : ColReq
  /-- adder islands in service at its start (R475) -/
  islands : List Nat
  /-- operations that have fired, by place in the chain (R474) -/
  fired : List Nat
  /-- lines received and checked: key of phase, round, kind and line; data, NANF, OVF -/
  lines : Tab (Bytes × Bool × Bool)
  /-- lines of staging its pieces take, trailers included, by sender · 4 + role (R472) -/
  staged : Tab Nat
  /-- packets sent of an operation that credit has stopped, by its place in the chain -/
  prog : Tab Nat
  /-- partials this member holds, and rounded results it knows, by unit -/
  hold : Tab ColUnit
  res : Tab ColUnit
  ovf : Bool
  nanf : Bool
  retried : Bool
  /-- TCLK count at the latest piece (R481); none before the first -/
  lastPiece : Option Nat
  /-- cause it has ended with, and whether a CFAIL told this member (R482) -/
  ended : Option (Nat × Bool)
  deriving DecidableEq, Repr, Inhabited

/-- A group held at this engine (R447, R448). -/
structure ColGroup where
  ctx : Nat
  addr : Nat
  members : List Nat
  lchunk : Nat
  lsmall : Nat
  inbuf : Nat
  gdig : Nat
  ready : Bool
  broken : Bool
  /-- SEQ of the next collective issued, and of the next to start -/
  seq : Nat
  queue : List ColReq
  run : Option ColRun
  /-- lines this member may still send, by partner · 4 + role (R472) -/
  credit : Tab Nat
  /-- partners · 4 + role whose initial CCRED has come (R452) -/
  granted : List Nat
  /-- lines freed and not yet returned, by partner · 4 + role -/
  freed : Tab Nat
  /-- packets for the next collective (R478) -/
  early : List Packet
  /-- cause noted for a SEQ not yet started, and whether a CFAIL told it (R480, R482) -/
  fails : Tab (Nat × Bool)
  bufs : List Nat
  deriving DecidableEq, Repr, Inhabited

/-- The collective engine. -/
structure Col where
  groups : Tab ColGroup
  /-- latest CJOIN for each group ID not held (R451) -/
  joins : Tab Packet
  /-- completion counters whose increments are due (R459): group and counter -/
  counts : List (Nat × Nat)
  deriving DecidableEq, Repr, Inhabited

/-! ## The twin (R551 to R586) -/

/-- An outgoing transfer (R567). -/
structure XferOut where
  xid : Nat
  /-- a checkpoint; a delta otherwise -/
  ckpt : Bool
  ctx : Nat
  step : Word
  data : Bytes
  /-- lines read with poison marking (R598) -/
  bad : List Nat
  sent : Bool
  resent : Nat
  /-- counter a checkpoint increments when it commits (R570) -/
  cctr : Option Nat
  deriving DecidableEq, Repr, Inhabited

/-- An incoming transfer (R567). -/
structure XferIn where
  xid : Nat
  ckpt : Bool
  ctx : Nat
  step : Word
  len : Nat
  crc : Nat
  lines : Tab Bytes
  poison : Bool
  deriving DecidableEq, Repr, Inhabited

/-- Mirrored state of one twin context beside its directory entry (R572, R573). -/
structure Mirror where
  /-- CTX entry of the base state (R569) -/
  entry : Bytes
  seqs : Tab SeqEntry
  joins : List Join
  table : Bytes
  /-- delta held pending -/
  pend : Option Bytes
  /-- 2 MiB units of the mirror that hold the checkpoint: first unit and count -/
  units : Nat × Nat
  deriving DecidableEq, Repr, Inhabited

/-- Trapeze (R551 to R586). -/
structure Twn where
  /-- an ATTREQ is outstanding, and the time base when it was last sent -/
  attreq : Option Nat
  out : List XferOut
  inc : List XferIn
  xid : Nat
  mirror : Tab Mirror
  /-- heartbeats received since the attach was agreed, and the least latency among them (R561) -/
  hbCount : Nat
  hbLeast : Int
  /-- 2n for a slot n whose heartbeat has come, 2n + 1 for one counted as missed (R562) -/
  hbSeen : List Nat
  /-- first slot that is judged (R562) -/
  hbNext : Nat
  /-- slot of the heartbeat sent last -/
  hbSent : Nat
  /-- TCLK count at the last arrival while judged without slots (R563) -/
  hbLast : Nat
  /-- offsets of the latest exchanges, newest first (R559) -/
  offs : List Int
  /-- TCLK count of the last completed exchange, and whether one has ever set the time base -/
  lastSync : Nat
  synced : Bool
  /-- TCLK count until which a DENY holds off SUSPECT (R575), and of the last SUSPECT sent -/
  holdoff : Nat
  lastSuspect : Nat
  /-- FWLVL and NUMREV the twin gave at attach -/
  peerLvl : Nat
  /-- start-up waits for the discovery of R556 since this TCLK count -/
  discovering : Option Nat
  deriving DecidableEq, Repr, Inhabited

/-! ## Waymark (R528 to R550) -/

/-- What a lock-step entry holds beside its registers (R540, R541). -/
structure LsEntry where
  /-- the layer whose digests were sent and are not yet found equal: STEP, layer, DSEL DDSP DRTN DTOUT, TCLK count -/
  mine : Option (Word × Nat × List Word × Nat)
  /-- peer digests that came early: STEP, layer, digests -/
  early : List (Word × Nat × List Word)
  /-- this engine's arrays of the layer in progress: (TSEL, TOUT) by tile, (LDSP, LRTN) by lane -/
  tiles : List (Word × Word)
  lanes : List (Word × Word)
  /-- tokens that entered that layer -/
  enter : List Nat
  /-- the twin's arrays, as far as they have come -/
  peerTiles : Tab (Word × Word)
  peerLanes : Tab (Word × Word)
  /-- first stage that differs, while the arrays are awaited -/
  stage : Option Nat
  /-- step of the comparison: the run's STEP -/
  step : Word
  deriving DecidableEq, Repr, Inhabited

/-- Waymark's own state. -/
structure Way where
  wseq : Word
  /-- records that wait to be written to the HBM ring, oldest first: context, STEP, record -/
  ring : List (Nat × Word × Bytes)
  /-- flash log queue, oldest first: entry, and whether it is a mismatch record or a fault entry (R535) -/
  flash : List (Bytes × Bool)
  ls : Tab LsEntry
  deriving DecidableEq, Repr, Inhabited

/-! ## Management, configuration, security, stack, slices, test access -/

/-- Islands (R599 to R603, R614 to R619, R727). -/
structure Mgt where
  /-- state of the islands no unit's register shows: ports, bank groups, stack interface, the single islands (R608) -/
  isl : Tab Nat
  /-- time base of each departure, and of each uncorrectable and correctable error, by island, newest first -/
  departs : Tab (List Nat)
  ues : Tab (List Nat)
  ces : Tab (List Nat)
  /-- time base of the last ISL_CE of an island -/
  ceNote : Tab Nat
  /-- granules with correctable errors and when, by bank · 512 + row (R603) -/
  rowCe : Tab (List (Nat × Nat))
  /-- tests queued, oldest first, and running (R727) -/
  testQ : List Nat
  tests : List Nat
  stretches : Tab Nat
  stretched : List Nat
  /-- cube groups that software takes out and that a tile in progress still uses (R77) -/
  leaving : List Nat
  /-- cube groups under a live repair: they return at a tile boundary (R590) -/
  repairing : List Nat
  /-- islands that the engine itself has retired (R75, R601) -/
  worn : List Nat
  /-- the spare map of the running image, and what it held for a cube group's quarter when the group was retired: a repair
  with the same value is not a new one (R75) -/
  repairMap : Nat
  wornMap : Tab Nat
  deriving DecidableEq, Repr, Inhabited

/-- The fuses (R653). -/
structure Fuses where
  hash0 : Nat
  hash1 : Nat
  prog0 : Bool
  prog1 : Bool
  revoked0 : Bool
  revoked1 : Bool
  arb : Nat
  deriving DecidableEq, Repr, Inhabited

/-- Configuration and security (R642 to R680). -/
structure Cfg where
  fuses : Fuses
  /-- sectors of the inactive bank erased in the session (R661) -/
  erased : List Nat
  /-- TCLK count of the session's last operation (R663) -/
  lastOp : Nat
  /-- UPD_HDR pieces held (R702) -/
  pieces : Tab Bytes
  /-- a PARTITION apply waits since this TCLK count, for these partitions (R664, R665) -/
  applyFrom : Option (Nat × List Nat)
  /-- the sections of the apply under way: MASK when GO was set (R664, R738) -/
  applyMask : Nat
  /-- SHA-384 that R649 verified (R673) -/
  sha : Nat
  /-- time base of the newest nonce's draw, while it can be accepted (R654) -/
  nonceAt : Option Nat
  deriving DecidableEq, Repr, Inhabited

/-- The staging stack beside its registers (R313 to R333). -/
structure Stk where
  hashKey : Word
  /-- FRAME, and byte ranges (base, length) of the frame part of the Carousel extent, of the output staging area behind
  it, of the program store and of the metadata of the pools (R314, R315) -/
  frame : Nat
  carousel : Nat × Nat
  staging : Nat × Nat
  programs : Nat × Nat
  metadata : Nat × Nat
  /-- interface lanes replaced at start-up: lane, as group · 1024 + lane, and its spare (R330) -/
  spareLanes : Tab Nat
  /-- next row to refresh of each bank (R321) -/
  nextRow : Tab Nat
  /-- time base since which every layer has been cool enough for the cooler band (R322) -/
  coolSince : Option Nat
  /-- row repairs: bank · 512 + row, and the spare it uses (R331, R332) -/
  repairs : Tab Nat
  /-- granule the patrol scrubber reads next -/
  scrub : Nat
  deriving DecidableEq, Repr, Inhabited

/-- The test access port (R732 to R734). -/
structure Tap where
  ir : Nat
  /-- bits last shifted out -/
  tdo : Nat
  /-- selected island wrapper, instruction of each wrapper, and data register of each -/
  sel : Nat
  wir : Tab Nat
  wdr : Tab Nat
  /-- boundary preload latch, and whether EXTEST drives it -/
  preload : Nat
  driving : Bool
  bypassBit : Nat
  deriving DecidableEq, Repr, Inhabited

/-! ## The machine -/

/-- Why the machine could stop: it never does. -/
inductive Fault where
  /-- raised by no command (safe: the engine reports every error as a reply, a record or an attention event) -/
  | none
  deriving DecidableEq, Repr, Inhabited

/-- Why a command could have no meaning. -/
inductive Refusal where
  /-- raised only for a command that has no meaning yet (safe: it stops) -/
  | notModelled (mnemonic : String)
  deriving DecidableEq, Repr

/-- Everything the engine holds, and the commands that wait for it. -/
structure State where
  pending : List Instr
  /-- registers whose value is not their reset value, by native address (R735) -/
  regs : Tab Word
  /-- host HBM bytes that are not 0 -/
  hbm : List Host.Cell
  /-- HBM lines of 128 bytes marked poisoned (R717) -/
  hbmPoison : List Nat
  /-- staging stack bytes that are not 0 -/
  stk : List Host.Cell
  /-- poison bits of the stack's 32-byte granules that are set: granule · 3 + copy, each bit being kept in three
  copies (R324) -/
  stkPoison : List Nat
  /-- flash bytes that are not 0xFF -/
  flash : List Host.Cell
  /-- TCLK cycles since reset, and the time base in ns (R558) -/
  tclk : Nat
  tb : Nat
  /-- the counter that free values read -/
  freeCtr : Nat
  /-- data and status of the last register-port reply (R681, R684) -/
  reply : Word × BitVec 4
  atn : Atn
  rgm : Rgm
  car : Car
  lanes : Tab Lane
  sca : Sca
  shd : Shd
  dlm : Dlm
  pol : Pol
  pwr : Pwr
  fab : Fab
  ring : Ring
  ctxs : Tab Ctx
  col : Col
  twn : Twn
  way : Way
  mgt : Mgt
  cfg : Cfg
  stack : Stk
  slices : List SliceEnt
  tap : Tap
  /-- offset still to slew, in ns (R558, R559) -/
  tbPend : Int
  /-- status last shown on SL_STAT (R722) -/
  slStat : BitVec 4
  /-- reply of the pending I3C command: outcome and data (R702) -/
  i3cReply : Option (Nat × Bytes)
  /-- bytes the I3C target drove last: a private read's, or a common command's answer (R699 to R702) -/
  i3cOut : Bytes
  deriving DecidableEq, Repr, Inhabited

/-! ## Reset -/

/-- The engine with its reset input asserted, every register at its reset value (R10, R639) and nothing held. -/
def State.reset : State where
  pending := []
  regs := []
  hbm := []
  hbmPoison := []
  stk := []
  stkPoison := []
  flash := []
  tclk := 0
  tb := 0
  freeCtr := 0
  reply := (0, 0)
  atn := { notice := none, service := none, urgent := none, seen := 0, lossRaised := false }
  rgm := { store := [], loads := 0, steps := [], seqs := [], pending := [], seqBufs := [], bounds := [] }
  car := { slots := [], gens := [], bad := [] }
  lanes := []
  sca := { runs := [], last := [], chosen := [] }
  shd := { formed := [], running := [] }
  dlm := { held := [], last := [], silent := [], lastEval := 0 }
  pol := { pools := [], marks := [], waits := [] }
  pwr := {
    halted := false, inReset := true, booting := false, target := none, capWindows := 0, thermal := false, leak := [], frac := [] }
  fab := {
    out := [], kept := [], pkey := 0, map := [], remap := false, reqs := [], copies := [], held := [], owns := [],
    answer := ([], 0, false), copyEnd := (0, 0), ownCache := [], vacant := [] }
  ring := { recs := [], rows := [], closes := [], bufs := [], wait := [] }
  ctxs := []
  col := { groups := [], joins := [], counts := [] }
  twn := {
    attreq := none, out := [], inc := [], xid := 0, mirror := [], hbCount := 0, hbLeast := 0, hbSeen := [], hbSent := 0,
    hbLast := 0, offs := [], lastSync := 0, synced := false, holdoff := 0, lastSuspect := 0, hbNext := 0,
    peerLvl := 0, discovering := none }
  way := { wseq := 0, ring := [], flash := [], ls := [] }
  mgt := {
    isl := [], departs := [], ues := [], ces := [], ceNote := [], rowCe := [], testQ := [], tests := [], stretches := [],
    stretched := [], leaving := [], repairing := [], worn := [], repairMap := 0, wornMap := [] }
  cfg := {
    fuses := { hash0 := 0, hash1 := 0, prog0 := false, prog1 := false, revoked0 := false, revoked1 := false, arb := 0 }
    erased := [], lastOp := 0, pieces := [], applyFrom := none, applyMask := 0, sha := 0, nonceAt := none }
  stack := {
    hashKey := 0, frame := 0, carousel := (0, 0), staging := (0, 0), programs := (0, 0), metadata := (0, 0)
    spareLanes := [], nextRow := [], coolSince := none, repairs := []
    scrub := 0 }
  slices := []
  tap := { ir := 0x01, tdo := 0, sel := 0, wir := [], wdr := [], preload := 0, driving := false, bypassBit := 0 }
  tbPend := 0
  slStat := 0
  i3cReply := none
  i3cOut := []

end Sys2Proof.Machine
end

