-- ==== Sys2Proof/Machine/Registers.lean ====
section
/-! DEFINITION. The register window (R735 to R756): where each register stands, which of its bits software may write
and how (R12), and the value it has at reset. -/

namespace Sys2Proof.Machine

/-- Bits [hi:lo] as a mask. -/
def fm (hi lo : Nat) : Nat := (2 ^ (hi - lo + 1) - 1) <<< lo

/-- One register, or an array of `count` registers `stride` bytes apart: the bits software stores (RW), the bits a
1 clears (W1C), the bits that start an action (W1S and WO), and the value at reset. A register none of whose bits
software writes is RO (R13). -/
structure RegRow where
  base : Nat
  stride : Nat
  count : Nat
  rw : Nat
  w1c : Nat
  act : Nat
  reset : Nat
  deriving DecidableEq, Repr, Inhabited

/-! ## GLB (R740 to R744, R721) -/

/-- GLB_ID (R740); JEDEC and CHIP are laid over it when it is read. -/
def aGlbId : Nat := 0x000000
/-- GLB_VER (R741). -/
def aGlbVer : Nat := 0x000008
/-- GLB_CAP (R742). -/
def aGlbCap : Nat := 0x000010
/-- GLB_CAP2 (R743). -/
def aGlbCap2 : Nat := 0x000018
/-- GLB_SCRATCH (R744). -/
def aGlbScratch : Nat := 0x000020
/-- GLB_HMREG of regulator r (R721). -/
def aGlbHmreg (n : Nat) : Nat := 0x000100 + 8 * n
/-- GLB_HMIL (R721). -/
def aGlbHmil : Nat := 0x000140

/-- Rows of GLB (R740 to R744, R721). -/
def rowsGlb : List RegRow := [
  ⟨0x000000, 0, 1, 0, 0, 0, 0x15331⟩,
  ⟨0x000008, 0, 1, 0, 0, 0, 0x101010303⟩,
  ⟨0x000010, 0, 1, 0, 0, 0, 0x8100001010004080⟩,
  ⟨0x000018, 0, 1, 0, 0, 0, 0x8000400000020000⟩,
  ⟨0x000020, 0, 1, fm 63 0, 0, 0, 0⟩,
  ⟨0x000100, 8, 8, fm 7 0 + fm 31 16, 0, 0, 0x1000080⟩,
  ⟨0x000140, 0, 1, fm 4 0, 0, 0, 0x7⟩]

/-! ## ATN (R704) -/

/-- ATN_CAUSE. -/
def aAtnCause : Nat := 0x001000
/-- ATN_ACK. -/
def aAtnAck : Nat := 0x001008
/-- ATN_ESEQ. -/
def aAtnEseq : Nat := 0x001010
/-- ATN_CNT_RAISE. -/
def aAtnCntRaise : Nat := 0x001018
/-- ATN_CNT_ACK. -/
def aAtnCntAck : Nat := 0x001020
/-- ATN_CNT_SAT. -/
def aAtnCntSat : Nat := 0x001028
/-- ATN_CNT_EVTLOST. -/
def aAtnCntEvtlost : Nat := 0x001030
/-- word k of the event log, entry k / 4 (R695). -/
def aAtnLog (n : Nat) : Nat := 0x001800 + 8 * n

/-- Rows of ATN (R704). -/
def rowsAtn : List RegRow := [
  ⟨0x001000, 0, 1, 0, 0, 0, 0⟩,
  ⟨0x001008, 0, 1, 0, 0, fm 15 0, 0⟩,
  ⟨0x001010, 0, 1, 0, 0, 0, 0⟩,
  ⟨0x001018, 0, 1, 0, 0, 0, 0⟩,
  ⟨0x001020, 0, 1, 0, 0, 0, 0⟩,
  ⟨0x001028, 0, 1, 0, 0, 0, 0⟩,
  ⟨0x001030, 0, 1, 0, 0, 0, 0⟩,
  ⟨0x001800, 8, 256, 0, 0, 0, 0⟩]

/-! ## CLK (R640) -/

/-- CLK_PLL. -/
def aClkPll : Nat := 0x002000
/-- CLK_DIV. -/
def aClkDiv : Nat := 0x002008
/-- CLK_DROOP. -/
def aClkDroop : Nat := 0x002010
/-- CLK_CNT_STRETCH. -/
def aClkCntStretch : Nat := 0x002018
/-- CLK_ISL_STRETCH. -/
def aClkIslStretch : Nat := 0x002020
/-- CLK_GATE. -/
def aClkGate : Nat := 0x002028

/-- Rows of CLK (R640). -/
def rowsClk : List RegRow := [
  ⟨0x002000, 0, 1, 0, 0, 0, 0x900000⟩,
  ⟨0x002008, 0, 1, 0, 0, 0, 0x9030180C0608⟩,
  ⟨0x002010, 0, 1, fm 15 0, 0, 0, 0x205C⟩,
  ⟨0x002018, 0, 1, 0, 0, 0, 0⟩,
  ⟨0x002020, 0, 1, 0, 0, 0, 0⟩,
  ⟨0x002028, 0, 1, 0, 0, 0, 0⟩]

/-! ## PWR (R641) -/

/-- PWR_STATE. -/
def aPwrState : Nat := 0x003000
/-- PWR_CAP. -/
def aPwrCap : Nat := 0x003008
/-- PWR_BOOT. -/
def aPwrBoot : Nat := 0x003010
/-- PWR_CTRL. -/
def aPwrCtrl : Nat := 0x003018
/-- PWR_TEMP. -/
def aPwrTemp : Nat := 0x003020
/-- PWR_ERR. -/
def aPwrErr : Nat := 0x003028
/-- PWR_CNT_ENERGY. -/
def aPwrCntEnergy : Nat := 0x003030
/-- PWR_COEF k. -/
def aPwrCoef (n : Nat) : Nat := 0x003100 + 8 * n

/-- Rows of PWR (R641). -/
def rowsPwr : List RegRow := [
  ⟨0x003000, 0, 1, 0, 0, 0, 0⟩,
  ⟨0x003008, 0, 1, 0, 0, 0, 0x10BE⟩,
  ⟨0x003010, 0, 1, 0, 0, 0, 0⟩,
  ⟨0x003018, 0, 1, 0, 0, fm 0 0, 0⟩,
  ⟨0x003020, 0, 1, 0, 0, 0, 0⟩,
  ⟨0x003028, 0, 1, 0, fm 2 0, 0, 0⟩,
  ⟨0x003030, 0, 1, 0, 0, 0, 0⟩,
  ⟨0x003100, 8, 16, 0, 0, 0, 0⟩]

/-! ## CFG (R678) -/

/-- CFG_STAT. -/
def aCfgStat : Nat := 0x004000
/-- CFG_UPD_CTRL. -/
def aCfgUpdCtrl : Nat := 0x004008
/-- CFG_UPD_SRC. -/
def aCfgUpdSrc : Nat := 0x004010
/-- CFG_UPD_OFS. -/
def aCfgUpdOfs : Nat := 0x004018
/-- CFG_APPLY. -/
def aCfgApply : Nat := 0x004020
/-- CFG_RD. -/
def aCfgRd : Nat := 0x004028
/-- CFG_RD_DST. -/
def aCfgRdDst : Nat := 0x004030
/-- CFG_LOG. -/
def aCfgLog : Nat := 0x004038
/-- CFG_CNT_UPD. -/
def aCfgCntUpd : Nat := 0x004040
/-- CFG_CNT_LOG. -/
def aCfgCntLog : Nat := 0x004048

/-- Rows of CFG (R678). -/
def rowsCfg : List RegRow := [
  ⟨0x004000, 0, 1, 0, 0, 0, 0⟩,
  ⟨0x004008, 0, 1, 0, 0, fm 2 0, 0⟩,
  ⟨0x004010, 0, 1, fm 47 0, 0, 0, 0⟩,
  ⟨0x004018, 0, 1, fm 25 0 + fm 57 32, 0, 0, 0⟩,
  ⟨0x004020, 0, 1, fm 15 0, 0, fm 16 16, 0⟩,
  ⟨0x004028, 0, 1, fm 31 0 + fm 56 32, 0, fm 63 63, 0⟩,
  ⟨0x004030, 0, 1, fm 47 0, 0, 0, 0⟩,
  ⟨0x004038, 0, 1, 0, 0, 0, 0⟩,
  ⟨0x004040, 0, 1, 0, 0, 0, 0⟩,
  ⟨0x004048, 0, 1, 0, 0, 0, 0⟩]

/-! ## SEC (R680) -/

/-- SEC_FUSE. -/
def aSecFuse : Nat := 0x005000
/-- SEC_STAT. -/
def aSecStat : Nat := 0x005008
/-- SEC_NONCE i. -/
def aSecNonce (n : Nat) : Nat := 0x005010 + 8 * n
/-- SEC_CMD. -/
def aSecCmd : Nat := 0x005030
/-- SEC_CTRL. -/
def aSecCtrl : Nat := 0x005038
/-- SEC_ERR. -/
def aSecErr : Nat := 0x005040
/-- SEC_CNT_CMD. -/
def aSecCntCmd : Nat := 0x005048

/-- Rows of SEC (R680). -/
def rowsSec : List RegRow := [
  ⟨0x005000, 0, 1, 0, 0, 0, 0⟩,
  ⟨0x005008, 0, 1, 0, 0, 0, 0x4⟩,
  ⟨0x005010, 8, 4, 0, 0, 0, 0⟩,
  ⟨0x005030, 0, 1, 0, 0, fm 47 0, 0⟩,
  ⟨0x005038, 0, 1, 0, 0, fm 0 0, 0⟩,
  ⟨0x005040, 0, 1, 0, fm 2 0, 0, 0⟩,
  ⟨0x005048, 0, 1, 0, 0, 0, 0⟩]

/-! ## MGT (R705, R607 to R609) -/

/-- MGT_I3C; MFGID is laid over it when it is read. -/
def aMgtI3c : Nat := 0x006000
/-- MGT_CNT_DAA_WD. -/
def aMgtCntDaaWd : Nat := 0x006008
/-- MGT_CNT_I3C. -/
def aMgtCntI3c : Nat := 0x006010
/-- MGT_ISL_SEL. -/
def aMgtIslSel : Nat := 0x006100
/-- MGT_ISL_FLT. -/
def aMgtIslFlt : Nat := 0x006108
/-- MGT_RETIRE. -/
def aMgtRetire : Nat := 0x006110
/-- MGT_ROWNOM. -/
def aMgtRownom : Nat := 0x006118

/-- Rows of MGT (R705, R607 to R609). -/
def rowsMgt : List RegRow := [
  ⟨0x006000, 0, 1, 0, 0, 0, 0⟩,
  ⟨0x006008, 0, 1, 0, 0, 0, 0⟩,
  ⟨0x006010, 0, 1, 0, 0, 0, 0⟩,
  ⟨0x006100, 0, 1, fm 8 0, 0, fm 13 12, 0⟩,
  ⟨0x006108, 0, 1, 0, 0, 0, 0⟩,
  ⟨0x006110, 0, 1, fm 19 0 + fm 31 24 + fm 39 32, 0, 0, 0x4180203E8⟩,
  ⟨0x006118, 0, 1, 0, fm 63 63, 0, 0⟩]

/-! ## RGM and doorbells (R309 to R312, R290, R736) -/

/-- RGM_CAP. -/
def aRgmCap : Nat := 0x010000
/-- RGM_PLOAD_ADDR. -/
def aRgmPloadAddr : Nat := 0x010008
/-- RGM_PLOAD_CTRL. -/
def aRgmPloadCtrl : Nat := 0x010010
/-- RGM_CNT_STEP. -/
def aRgmCntStep : Nat := 0x010018
/-- RGM_CNT_ABORT. -/
def aRgmCntAbort : Nat := 0x010020
/-- RGM_CNT_DEFER. -/
def aRgmCntDefer : Nat := 0x010028
/-- RGM_CNT_REFUSE. -/
def aRgmCntRefuse : Nat := 0x010030
/-- DB_RING of partition p. -/
def aDbRing (n : Nat) : Nat := 0x018000 + 0x200 * n
/-- DB_ABORT of partition p. -/
def aDbAbort (n : Nat) : Nat := 0x018008 + 0x200 * n
/-- DB_STAT of partition p. -/
def aDbStat (n : Nat) : Nat := 0x018010 + 0x200 * n
/-- DB1_RING of partition p. -/
def aDb1Ring (n : Nat) : Nat := 0x01C000 + 0x100 * n

/-- Rows of RGM and doorbells (R309 to R312, R290, R736). -/
def rowsRgmAndDoorbells : List RegRow := [
  ⟨0x010000, 0, 1, 0, 0, 0, 0x30310000100⟩,
  ⟨0x010008, 0, 1, fm 47 0, 0, 0, 0⟩,
  ⟨0x010010, 0, 1, fm 7 0, 0, fm 8 8, 0⟩,
  ⟨0x010018, 0, 1, 0, 0, 0, 0⟩,
  ⟨0x010020, 0, 1, 0, 0, 0, 0⟩,
  ⟨0x010028, 0, 1, 0, 0, 0, 0⟩,
  ⟨0x010030, 0, 1, 0, 0, 0, 0⟩,
  ⟨0x018000, 512, 64, 0, 0, fm 47 0, 0⟩,
  ⟨0x018008, 512, 64, 0, 0, fm 11 0, 0⟩,
  ⟨0x018010, 512, 64, 0, 0, 0, 0⟩,
  ⟨0x01C000, 256, 64, 0, 0, fm 47 0, 0⟩]

/-! ## PAR (R520) -/

/-- PAR_LANE_LO of partition p. -/
def aParLaneLo (n : Nat) : Nat := 0x020000 + 0x400 * n
/-- PAR_LANE_HI of partition p. -/
def aParLaneHi (n : Nat) : Nat := 0x020008 + 0x400 * n
/-- PAR_GROUP of partition p. -/
def aParGroup (n : Nat) : Nat := 0x020010 + 0x400 * n
/-- PAR_SLOT of partition p. -/
def aParSlot (n : Nat) : Nat := 0x020018 + 0x400 * n
/-- PAR_SHARE of partition p. -/
def aParShare (n : Nat) : Nat := 0x020020 + 0x400 * n
/-- PAR_CEIL of class 0, partition p. -/
def aParCeil0 (n : Nat) : Nat := 0x020028 + 0x400 * n
/-- PAR_CEIL of class 1, partition p. -/
def aParCeil1 (n : Nat) : Nat := 0x020030 + 0x400 * n
/-- PAR_CEIL of class 2, partition p. -/
def aParCeil2 (n : Nat) : Nat := 0x020038 + 0x400 * n
/-- PAR_CEIL of class 3, partition p. -/
def aParCeil3 (n : Nat) : Nat := 0x020040 + 0x400 * n
/-- PAR_CEIL of class 4, partition p. -/
def aParCeil4 (n : Nat) : Nat := 0x020048 + 0x400 * n
/-- PAR_CEIL of class 5, partition p. -/
def aParCeil5 (n : Nat) : Nat := 0x020050 + 0x400 * n
/-- PAR_USE of partition p. -/
def aParUse (n : Nat) : Nat := 0x020058 + 0x400 * n

/-- Rows of PAR (R520). -/
def rowsPar : List RegRow := [
  ⟨0x020000, 1024, 64, fm 63 0, 0, 0, 0⟩,
  ⟨0x020008, 1024, 64, fm 63 0, 0, 0, 0⟩,
  ⟨0x020010, 1024, 64, fm 31 0, 0, 0, 0⟩,
  ⟨0x020018, 1024, 64, fm 14 0 + fm 31 16, 0, 0, 0⟩,
  ⟨0x020020, 1024, 64, fm 18 0 + fm 20 20, 0, 0, 0x1⟩,
  ⟨0x020028, 1024, 64, fm 20 0, 0, 0, 0⟩,
  ⟨0x020030, 1024, 64, fm 20 0, 0, 0, 0⟩,
  ⟨0x020038, 1024, 64, fm 20 0, 0, 0, 0⟩,
  ⟨0x020040, 1024, 64, fm 20 0, 0, 0, 0⟩,
  ⟨0x020048, 1024, 64, fm 20 0, 0, 0, 0⟩,
  ⟨0x020050, 1024, 64, fm 20 0, 0, 0, 0⟩,
  ⟨0x020058, 1024, 64, 0, 0, 0, 0⟩]

/-! ## CTX (R521) and ACC (R507) -/

/-- CTX_CFG of context x. -/
def aCtxCfg (n : Nat) : Nat := 0x040000 + 0x40 * n
/-- CTX_CMD. -/
def aCtxCmd (n : Nat) : Nat := 0x040008 + 0x40 * n
/-- CTX_QUOTA_A. -/
def aCtxQuotaA (n : Nat) : Nat := 0x040010 + 0x40 * n
/-- CTX_QUOTA_B. -/
def aCtxQuotaB (n : Nat) : Nat := 0x040018 + 0x40 * n
/-- CTX_PLACE. -/
def aCtxPlace (n : Nat) : Nat := 0x040020 + 0x40 * n
/-- CTX_SAVE. -/
def aCtxSave (n : Nat) : Nat := 0x040028 + 0x40 * n
/-- CTX_SAVELEN. -/
def aCtxSavelen (n : Nat) : Nat := 0x040030 + 0x40 * n
/-- CTX_VTIME. -/
def aCtxVtime (n : Nat) : Nat := 0x040038 + 0x40 * n
/-- ACC_CYCLES of context x. -/
def aAccCycles (n : Nat) : Nat := 0x080000 + 0x40 * n
/-- ACC_FAB_TX of context x. -/
def aAccFabTx (n : Nat) : Nat := 0x080008 + 0x40 * n
/-- ACC_FAB_RX of context x. -/
def aAccFabRx (n : Nat) : Nat := 0x080010 + 0x40 * n
/-- ACC_STK of context x. -/
def aAccStk (n : Nat) : Nat := 0x080018 + 0x40 * n
/-- ACC_HBM of context x. -/
def aAccHbm (n : Nat) : Nat := 0x080020 + 0x40 * n
/-- ACC_ENERGY of context x. -/
def aAccEnergy (n : Nat) : Nat := 0x080028 + 0x40 * n
/-- ACC_TCHOICE of context x. -/
def aAccTchoice (n : Nat) : Nat := 0x080030 + 0x40 * n
/-- ACC_STEPS of context x. -/
def aAccSteps (n : Nat) : Nat := 0x080038 + 0x40 * n

/-- Rows of CTX (R521) and ACC (R507). -/
def rowsCtx : List RegRow := [
  ⟨0x040000, 64, 4096, fm 16 0 + fm 63 32, 0, 0, 0x100000000⟩,
  ⟨0x040008, 64, 4096, 0, 0, fm 6 4, 0⟩,
  ⟨0x040010, 64, 4096, fm 62 0, 0, 0, 0⟩,
  ⟨0x040018, 64, 4096, fm 62 0, 0, 0, 0⟩,
  ⟨0x040020, 64, 4096, fm 47 0, 0, 0, 0⟩,
  ⟨0x040028, 64, 4096, fm 47 0, 0, 0, 0⟩,
  ⟨0x040030, 64, 4096, fm 23 0, 0, 0, 0⟩,
  ⟨0x040038, 64, 4096, 0, 0, 0, 0⟩,
  ⟨0x080000, 64, 4096, 0, 0, 0, 0⟩,
  ⟨0x080008, 64, 4096, 0, 0, 0, 0⟩,
  ⟨0x080010, 64, 4096, 0, 0, 0, 0⟩,
  ⟨0x080018, 64, 4096, 0, 0, 0, 0⟩,
  ⟨0x080020, 64, 4096, 0, 0, 0, 0⟩,
  ⟨0x080028, 64, 4096, 0, 0, 0, 0⟩,
  ⟨0x080030, 64, 4096, 0, 0, 0, 0⟩,
  ⟨0x080038, 64, 4096, 0, 0, 0, 0⟩]

/-! ## LAN (R184 to R191) -/

/-- LAN_CTRL of lane n. -/
def aLanCtrl (n : Nat) : Nat := 0x0C0000 + 0x400 * n
/-- LAN_CT. -/
def aLanCt (n : Nat) : Nat := 0x0C0008 + 0x400 * n
/-- LAN_DQ_WM. -/
def aLanDqWm (n : Nat) : Nat := 0x0C0010 + 0x400 * n
/-- LAN_RQ_WM. -/
def aLanRqWm (n : Nat) : Nat := 0x0C0018 + 0x400 * n
/-- LAN_BACK. -/
def aLanBack (n : Nat) : Nat := 0x0C0020 + 0x400 * n
/-- LAN_DQ_STAT. -/
def aLanDqStat (n : Nat) : Nat := 0x0C0028 + 0x400 * n
/-- LAN_RQ_STAT. -/
def aLanRqStat (n : Nat) : Nat := 0x0C0030 + 0x400 * n
/-- LAN_HEAD. -/
def aLanHead (n : Nat) : Nat := 0x0C0038 + 0x400 * n
/-- LAN_ERR. -/
def aLanErr (n : Nat) : Nat := 0x0C0040 + 0x400 * n
/-- LAN_CNT_TOKEN. -/
def aLanCntToken (n : Nat) : Nat := 0x0C0048 + 0x400 * n
/-- LAN_CNT_CLOSE. -/
def aLanCntClose (n : Nat) : Nat := 0x0C0050 + 0x400 * n
/-- LAN_CNT_VOID. -/
def aLanCntVoid (n : Nat) : Nat := 0x0C0058 + 0x400 * n
/-- LAN_CNT_DROP. -/
def aLanCntDrop (n : Nat) : Nat := 0x0C0060 + 0x400 * n
/-- LAN_CNT_STORE. -/
def aLanCntStore (n : Nat) : Nat := 0x0C0068 + 0x400 * n
/-- LAN_CNT_WDRAW. -/
def aLanCntWdraw (n : Nat) : Nat := 0x0C0070 + 0x400 * n

/-- Rows of LAN (R184 to R191). -/
def rowsLan : List RegRow := [
  ⟨0x0C0000, 1024, 128, 0, 0, fm 10 8, 0x1⟩,
  ⟨0x0C0008, 1024, 128, fm 12 0, 0, 0, 0⟩,
  ⟨0x0C0010, 1024, 128, fm 19 0 + fm 51 32, 0, 0, 0x80000001800⟩,
  ⟨0x0C0018, 1024, 128, fm 19 0 + fm 51 32, 0, 0, 0x100000001C00⟩,
  ⟨0x0C0020, 1024, 128, fm 6 0 + fm 14 8, 0, 0, 0⟩,
  ⟨0x0C0028, 1024, 128, 0, 0, 0, 0⟩,
  ⟨0x0C0030, 1024, 128, 0, 0, 0, 0x8000000000000000⟩,
  ⟨0x0C0038, 1024, 128, 0, 0, 0, 0⟩,
  ⟨0x0C0040, 1024, 128, 0, fm 4 0, 0, 0⟩,
  ⟨0x0C0048, 1024, 128, 0, 0, 0, 0⟩,
  ⟨0x0C0050, 1024, 128, 0, 0, 0, 0⟩,
  ⟨0x0C0058, 1024, 128, 0, 0, 0, 0⟩,
  ⟨0x0C0060, 1024, 128, 0, 0, 0, 0⟩,
  ⟨0x0C0068, 1024, 128, 0, 0, 0, 0⟩,
  ⟨0x0C0070, 1024, 128, 0, 0, 0, 0⟩]

/-! ## SCA (R101 to R103, R745 to R747) -/

/-- SCA_CAP. -/
def aScaCap : Nat := 0x0E0000
/-- SCA_GROUP_STATE. -/
def aScaGroupState : Nat := 0x0E0008
/-- SCA_SPARE_MAP. -/
def aScaSpareMap : Nat := 0x0E0010
/-- SCA_SFU. -/
def aScaSfu : Nat := 0x0E0018
/-- SCA_CNT_STEP. -/
def aScaCntStep : Nat := 0x0E0020
/-- SCA_CNT_RETRY. -/
def aScaCntRetry : Nat := 0x0E0028
/-- SCA_CNT_RERUN. -/
def aScaCntRerun : Nat := 0x0E0030
/-- SCA_PGMAP, word k % 4 of partition k / 4. -/
def aScaPgmap (n : Nat) : Nat := 0x0E0100 + 8 * n

/-- Rows of SCA (R101 to R103, R745 to R747). -/
def rowsSca : List RegRow := [
  ⟨0x0E0000, 0, 1, 0, 0, 0, 0x104208084⟩,
  ⟨0x0E0008, 0, 1, 0, 0, 0, 0⟩,
  ⟨0x0E0010, 0, 1, 0, 0, 0, 0⟩,
  ⟨0x0E0018, 0, 1, 0, 0, 0, 0x5000003⟩,
  ⟨0x0E0020, 0, 1, 0, 0, 0, 0⟩,
  ⟨0x0E0028, 0, 1, 0, 0, 0, 0⟩,
  ⟨0x0E0030, 0, 1, 0, 0, 0, 0⟩,
  ⟨0x0E0100, 8, 256, 0, 0, 0, 0xFFFFFFFFFFFFFFFF⟩]

/-! ## SEL (R748 to R750) -/

/-- SEL_CAP. -/
def aSelCap : Nat := 0x0F0000
/-- SEL_ERR. -/
def aSelErr : Nat := 0x0F0008
/-- SEL_CNT_TOKEN. -/
def aSelCntToken : Nat := 0x0F0010
/-- SEL_CNT_CHOICE. -/
def aSelCntChoice : Nat := 0x0F0018
/-- SEL_CNT_MOVED. -/
def aSelCntMoved : Nat := 0x0F0020
/-- SEL_CNT_SHADOW. -/
def aSelCntShadow : Nat := 0x0F0028
/-- SEL_CNT_DROP. -/
def aSelCntDrop : Nat := 0x0F0030
/-- SEL_CNT_EXIT. -/
def aSelCntExit : Nat := 0x0F0038
/-- SEL_CNT_RETRY. -/
def aSelCntRetry : Nat := 0x0F0040

/-- Rows of SEL (R748 to R750). -/
def rowsSel : List RegRow := [
  ⟨0x0F0000, 0, 1, 0, 0, 0, 0x8004000410⟩,
  ⟨0x0F0008, 0, 1, 0, fm 0 0, 0, 0⟩,
  ⟨0x0F0010, 0, 1, 0, 0, 0, 0⟩,
  ⟨0x0F0018, 0, 1, 0, 0, 0, 0⟩,
  ⟨0x0F0020, 0, 1, 0, 0, 0, 0⟩,
  ⟨0x0F0028, 0, 1, 0, 0, 0, 0⟩,
  ⟨0x0F0030, 0, 1, 0, 0, 0, 0⟩,
  ⟨0x0F0038, 0, 1, 0, 0, 0, 0⟩,
  ⟨0x0F0040, 0, 1, 0, 0, 0, 0⟩]

/-! ## CAR (R222 to R227) -/

/-- CAR_CAP. -/
def aCarCap : Nat := 0x100000
/-- CAR_SLICE_STATE. -/
def aCarSliceState : Nat := 0x100008
/-- CAR_STALL. -/
def aCarStall : Nat := 0x100010
/-- CAR_ERR. -/
def aCarErr : Nat := 0x100018
/-- CAR_SLOT_USE. -/
def aCarSlotUse : Nat := 0x100020
/-- CAR_CNT_LINE. -/
def aCarCntLine : Nat := 0x100028
/-- CAR_CNT_STALE. -/
def aCarCntStale : Nat := 0x100030
/-- CAR_CNT_RETRY. -/
def aCarCntRetry : Nat := 0x100038
/-- CAR_CNT_RELEASE. -/
def aCarCntRelease : Nat := 0x100040
/-- CAR_CNT_OVF. -/
def aCarCntOvf : Nat := 0x100048

/-- Rows of CAR (R222 to R227). -/
def rowsCar : List RegRow := [
  ⟨0x100000, 0, 1, 0, 0, 0, 0x888000⟩,
  ⟨0x100008, 0, 1, 0, 0, 0, 0⟩,
  ⟨0x100010, 0, 1, fm 15 0, 0, 0, 0x3E8⟩,
  ⟨0x100018, 0, 1, 0, fm 4 0, 0, 0⟩,
  ⟨0x100020, 0, 1, 0, 0, fm 63 63, 0⟩,
  ⟨0x100028, 0, 1, 0, 0, 0, 0⟩,
  ⟨0x100030, 0, 1, 0, 0, 0, 0⟩,
  ⟨0x100038, 0, 1, 0, 0, 0, 0⟩,
  ⟨0x100040, 0, 1, 0, 0, 0, 0⟩,
  ⟨0x100048, 0, 1, 0, 0, 0, 0⟩]

/-! ## SHD (R261 to R263) and DLM (R264 to R267) -/

/-- SHD_CAP. -/
def aShdCap : Nat := 0x110000
/-- SHD_CFG. -/
def aShdCfg : Nat := 0x110008
/-- SHD_CNT_OVF. -/
def aShdCntOvf : Nat := 0x110010
/-- SHD_CNT_LATE. -/
def aShdCntLate : Nat := 0x110018
/-- SHD_CNT_UNREACH. -/
def aShdCntUnreach : Nat := 0x110020
/-- SHD_CNT_BATCH. -/
def aShdCntBatch : Nat := 0x110028
/-- SHD_CNT_TOKEN. -/
def aShdCntToken : Nat := 0x110030
/-- DLM_CTRL. -/
def aDlmCtrl : Nat := 0x118000
/-- DLM_ERR. -/
def aDlmErr : Nat := 0x118008
/-- DLM_CNT_WORD. -/
def aDlmCntWord : Nat := 0x118010
/-- DLM_CNT_ESC. -/
def aDlmCntEsc : Nat := 0x118018
/-- DLM_CNT_MISS. -/
def aDlmCntMiss : Nat := 0x118020
/-- DLM_THR of partition p. -/
def aDlmThr (n : Nat) : Nat := 0x118100 + 8 * n

/-- Rows of SHD (R261 to R263) and DLM (R264 to R267). -/
def rowsShd : List RegRow := [
  ⟨0x110000, 0, 1, 0, 0, 0, 0x8200⟩,
  ⟨0x110008, 0, 1, fm 12 0 + fm 47 16, 0, 0, 0xA00140100⟩,
  ⟨0x110010, 0, 1, 0, 0, 0, 0⟩,
  ⟨0x110018, 0, 1, 0, 0, 0, 0⟩,
  ⟨0x110020, 0, 1, 0, 0, 0, 0⟩,
  ⟨0x110028, 0, 1, 0, 0, 0, 0⟩,
  ⟨0x110030, 0, 1, 0, 0, 0, 0⟩,
  ⟨0x118000, 0, 1, fm 1 0 + fm 63 16, 0, 0, 0x00C803E800320000⟩,
  ⟨0x118008, 0, 1, 0, fm 2 0, 0, 0⟩,
  ⟨0x118010, 0, 1, 0, 0, 0, 0⟩,
  ⟨0x118018, 0, 1, 0, 0, 0, 0⟩,
  ⟨0x118020, 0, 1, 0, 0, 0, 0⟩,
  ⟨0x118100, 8, 64, fm 63 0, 0, 0, 0x320096012C⟩]

/-! ## POL (R751, R752, R358 to R360) -/

/-- POL_CAP. -/
def aPolCap : Nat := 0x120000
/-- POL_ERR. -/
def aPolErr : Nat := 0x120008
/-- POL_CNT_BADFREE. -/
def aPolCntBadfree : Nat := 0x120010
/-- POL_FQ. -/
def aPolFq : Nat := 0x120018
/-- POL_OP. -/
def aPolOp : Nat := 0x120020
/-- POL_OP_HANDLE. -/
def aPolOpHandle : Nat := 0x120028
/-- POL_EXT of pool c. -/
def aPolExt (n : Nat) : Nat := 0x120100 + 0x40 * n
/-- POL_FREE. -/
def aPolFree (n : Nat) : Nat := 0x120108 + 0x40 * n
/-- POL_THR. -/
def aPolThr (n : Nat) : Nat := 0x120110 + 0x40 * n
/-- POL_HYST. -/
def aPolHyst (n : Nat) : Nat := 0x120118 + 0x40 * n
/-- POL_CNT_ALLOC. -/
def aPolCntAlloc (n : Nat) : Nat := 0x120120 + 0x40 * n
/-- POL_CNT_FREE. -/
def aPolCntFree (n : Nat) : Nat := 0x120128 + 0x40 * n

/-- Rows of POL (R751, R752, R358 to R360). -/
def rowsPol : List RegRow := [
  ⟨0x120000, 0, 1, 0, 0, 0, 0x100006⟩,
  ⟨0x120008, 0, 1, 0, fm 3 0, 0, 0⟩,
  ⟨0x120010, 0, 1, 0, 0, 0, 0⟩,
  ⟨0x120018, 0, 1, fm 11 0, 0, 0, 0⟩,
  ⟨0x120020, 0, 1, fm 14 0, 0, fm 17 16, 0⟩,
  ⟨0x120028, 0, 1, fm 63 0, 0, 0, 0⟩,
  ⟨0x120100, 64, 6, 0, 0, 0, 0⟩,
  ⟨0x120108, 64, 6, 0, 0, 0, 0⟩,
  ⟨0x120110, 64, 6, fm 62 0, 0, 0, 0⟩,
  ⟨0x120118, 64, 6, fm 20 0, 0, 0, 0x10⟩,
  ⟨0x120120, 64, 6, 0, 0, 0, 0⟩,
  ⟨0x120128, 64, 6, 0, 0, 0, 0⟩]

/-! ## STK (R352 to R357) -/

/-- STK_CAP. -/
def aStkCap : Nat := 0x130000
/-- STK_CTRL. -/
def aStkCtrl : Nat := 0x130008
/-- STK_TEMP. -/
def aStkTemp : Nat := 0x130010
/-- STK_ERR. -/
def aStkErr : Nat := 0x130018
/-- STK_CNT_CE. -/
def aStkCntCe : Nat := 0x130020
/-- STK_CNT_UE. -/
def aStkCntUe : Nat := 0x130028
/-- STK_CNT_RMW_CE. -/
def aStkCntRmwCe : Nat := 0x130030
/-- STK_CNT_REPAIR. -/
def aStkCntRepair : Nat := 0x130038
/-- STK_REPAIR_LOG i. -/
def aStkRepairLog (n : Nat) : Nat := 0x130040 + 8 * n

/-- Rows of STK (R352 to R357). -/
def rowsStk : List RegRow := [
  ⟨0x130000, 0, 1, 0, 0, 0, 0x4002008004⟩,
  ⟨0x130008, 0, 1, fm 7 0, 0, 0, 0x18⟩,
  ⟨0x130010, 0, 1, 0, 0, 0, 0x200000000⟩,
  ⟨0x130018, 0, 1, 0, fm 2 0, 0, 0⟩,
  ⟨0x130020, 0, 1, 0, 0, 0, 0⟩,
  ⟨0x130028, 0, 1, 0, 0, 0, 0⟩,
  ⟨0x130030, 0, 1, 0, 0, 0, 0⟩,
  ⟨0x130038, 0, 1, 0, 0, 0, 0⟩,
  ⟨0x130040, 8, 64, 0, 0, 0, 0⟩]

/-! ## FAB (R407 to R410) -/

/-- FAB_STATE of port n. -/
def aFabState (n : Nat) : Nat := 0x140000 + 0x1000 * n
/-- FAB_VCW. -/
def aFabVcw (n : Nat) : Nat := 0x140008 + 0x1000 * n
/-- FAB_ERR. -/
def aFabErr (n : Nat) : Nat := 0x140010 + 0x1000 * n
/-- FAB_CNT_TXPKT. -/
def aFabCntTxpkt (n : Nat) : Nat := 0x140018 + 0x1000 * n
/-- FAB_CNT_RXPKT. -/
def aFabCntRxpkt (n : Nat) : Nat := 0x140020 + 0x1000 * n
/-- FAB_CNT_TXBYTE. -/
def aFabCntTxbyte (n : Nat) : Nat := 0x140028 + 0x1000 * n
/-- FAB_CNT_RETRY. -/
def aFabCntRetry (n : Nat) : Nat := 0x140030 + 0x1000 * n
/-- FAB_CNT_RATN. -/
def aFabCntRatn (n : Nat) : Nat := 0x140038 + 0x1000 * n

/-- Rows of FAB (R407 to R410). -/
def rowsFab : List RegRow := [
  ⟨0x140000, 4096, 16, 0, 0, fm 9 8, 0⟩,
  ⟨0x140008, 4096, 16, fm 63 8, 0, 0, 0x1010203030202000⟩,
  ⟨0x140010, 4096, 16, 0, fm 3 0, 0, 0⟩,
  ⟨0x140018, 4096, 16, 0, 0, 0, 0⟩,
  ⟨0x140020, 4096, 16, 0, 0, 0, 0⟩,
  ⟨0x140028, 4096, 16, 0, 0, 0, 0⟩,
  ⟨0x140030, 4096, 16, 0, 0, 0, 0⟩,
  ⟨0x140038, 4096, 16, 0, 0, 0, 0⟩]

/-! ## MSF (R411 to R413) -/

/-- MSF_CTRL. -/
def aMsfCtrl : Nat := 0x150000
/-- MSF_CHIP. -/
def aMsfChip : Nat := 0x150008
/-- MSF_WIN_BASE. -/
def aMsfWinBase : Nat := 0x150010
/-- MSF_OWN_BASE. -/
def aMsfOwnBase : Nat := 0x150018
/-- MSF_OWN_COUNT. -/
def aMsfOwnCount : Nat := 0x150020
/-- MSF_CPY. -/
def aMsfCpy : Nat := 0x150028
/-- MSF_ERR. -/
def aMsfErr : Nat := 0x150030
/-- MSF_CNT_REFUSE. -/
def aMsfCntRefuse : Nat := 0x150038
/-- MSF_CNT_DEAD. -/
def aMsfCntDead : Nat := 0x150040
/-- MSF_CNT_LATE. -/
def aMsfCntLate : Nat := 0x150048
/-- MSF_CNT_CPY. -/
def aMsfCntCpy : Nat := 0x150050
/-- MSF_INFLT. -/
def aMsfInflt : Nat := 0x150058

/-- Rows of MSF (R411 to R413). -/
def rowsMsf : List RegRow := [
  ⟨0x150000, 0, 1, fm 7 0 + fm 31 16, 0, 0, 0x7FC10008⟩,
  ⟨0x150008, 0, 1, 0, 0, 0, 0⟩,
  ⟨0x150010, 0, 1, fm 47 0, 0, 0, 0⟩,
  ⟨0x150018, 0, 1, fm 47 0, 0, 0, 0⟩,
  ⟨0x150020, 0, 1, fm 20 0, 0, 0, 0⟩,
  ⟨0x150028, 0, 1, 0, 0, fm 59 0, 0⟩,
  ⟨0x150030, 0, 1, 0, fm 4 0, 0, 0⟩,
  ⟨0x150038, 0, 1, 0, 0, 0, 0⟩,
  ⟨0x150040, 0, 1, 0, 0, 0, 0⟩,
  ⟨0x150048, 0, 1, 0, 0, 0, 0⟩,
  ⟨0x150050, 0, 1, 0, 0, 0, 0⟩,
  ⟨0x150058, 0, 1, 0, 0, 0, 0⟩]

/-! ## COL (R484 to R489) -/

/-- COL_CAP. -/
def aColCap : Nat := 0x160000
/-- COL_ISL_STATE. -/
def aColIslState : Nat := 0x160008
/-- COL_CTRL. -/
def aColCtrl : Nat := 0x160010
/-- COL_GRP. -/
def aColGrp : Nat := 0x160018
/-- COL_SUBMIT. -/
def aColSubmit : Nat := 0x160020
/-- COL_ERR. -/
def aColErr : Nat := 0x160028
/-- COL_CNT_DONE. -/
def aColCntDone : Nat := 0x160030
/-- COL_CNT_FAIL. -/
def aColCntFail : Nat := 0x160038
/-- COL_CNT_RETRY. -/
def aColCntRetry : Nat := 0x160040
/-- COL_CNT_OVF. -/
def aColCntOvf : Nat := 0x160048

/-- Rows of COL (R484 to R489). -/
def rowsCol : List RegRow := [
  ⟨0x160000, 0, 1, 0, 0, 0, 0x400000000880100⟩,
  ⟨0x160008, 0, 1, 0, 0, 0, 0⟩,
  ⟨0x160010, 0, 1, fm 15 0, 0, 0, 0x3E8⟩,
  ⟨0x160018, 0, 1, 0, 0, fm 61 0, 0⟩,
  ⟨0x160020, 0, 1, 0, 0, fm 59 0, 0⟩,
  ⟨0x160028, 0, 1, 0, fm 5 0, 0, 0⟩,
  ⟨0x160030, 0, 1, 0, 0, 0, 0⟩,
  ⟨0x160038, 0, 1, 0, 0, 0, 0⟩,
  ⟨0x160040, 0, 1, 0, 0, 0, 0⟩,
  ⟨0x160048, 0, 1, 0, 0, 0, 0⟩]

/-! ## TWN (R585, R586) -/

/-- TWN_CAP. -/
def aTwnCap : Nat := 0x170000
/-- TWN_CTRL. -/
def aTwnCtrl : Nat := 0x170008
/-- TWN_STATE. -/
def aTwnState : Nat := 0x170010
/-- TWN_MIR_BASE. -/
def aTwnMirBase : Nat := 0x170018
/-- TWN_MIR_LEN. -/
def aTwnMirLen : Nat := 0x170020
/-- TWN_CKPT. -/
def aTwnCkpt : Nat := 0x170028
/-- TWN_ADOPT. -/
def aTwnAdopt : Nat := 0x170030
/-- TWN_HBLAT. -/
def aTwnHblat : Nat := 0x170038
/-- TWN_TB; the time base is laid over it when it is read. -/
def aTwnTb : Nat := 0x170040
/-- TWN_TBOFS. -/
def aTwnTbofs : Nat := 0x170048
/-- TWN_ERR. -/
def aTwnErr : Nat := 0x170050
/-- TWN_CNT_HBTX. -/
def aTwnCntHbtx : Nat := 0x170058
/-- TWN_CNT_ONTIME. -/
def aTwnCntOntime : Nat := 0x170060
/-- TWN_CNT_EDGE. -/
def aTwnCntEdge : Nat := 0x170068
/-- TWN_CNT_OOW. -/
def aTwnCntOow : Nat := 0x170070
/-- TWN_CNT_MISS. -/
def aTwnCntMiss : Nat := 0x170078
/-- TWN_CNT_DELTA. -/
def aTwnCntDelta : Nat := 0x170080
/-- TWN_CNT_CKPT. -/
def aTwnCntCkpt : Nat := 0x170088
/-- TWN_CNT_NAK. -/
def aTwnCntNak : Nat := 0x170090

/-- Rows of TWN (R585, R586). -/
def rowsTwn : List RegRow := [
  ⟨0x170000, 0, 1, 0, 0, 0, 0x1⟩,
  ⟨0x170008, 0, 1, fm 13 0 + fm 31 24 + fm 47 32, 0, fm 16 14, 0x6414000000⟩,
  ⟨0x170010, 0, 1, 0, 0, 0, 0⟩,
  ⟨0x170018, 0, 1, fm 47 0, 0, 0, 0⟩,
  ⟨0x170020, 0, 1, fm 15 0, 0, 0, 0⟩,
  ⟨0x170028, 0, 1, 0, 0, fm 59 0, 0⟩,
  ⟨0x170030, 0, 1, 0, 0, fm 11 0 + fm 27 16 + fm 37 32, 0⟩,
  ⟨0x170038, 0, 1, 0, 0, 0, 0⟩,
  ⟨0x170040, 0, 1, 0, 0, 0, 0⟩,
  ⟨0x170048, 0, 1, 0, 0, 0, 0⟩,
  ⟨0x170050, 0, 1, 0, fm 8 0, 0, 0⟩,
  ⟨0x170058, 0, 1, 0, 0, 0, 0⟩,
  ⟨0x170060, 0, 1, 0, 0, 0, 0⟩,
  ⟨0x170068, 0, 1, 0, 0, 0, 0⟩,
  ⟨0x170070, 0, 1, 0, 0, 0, 0⟩,
  ⟨0x170078, 0, 1, 0, 0, 0, 0⟩,
  ⟨0x170080, 0, 1, 0, 0, 0, 0⟩,
  ⟨0x170088, 0, 1, 0, 0, 0, 0⟩,
  ⟨0x170090, 0, 1, 0, 0, 0, 0⟩]

/-! ## WAY (R545 to R550) -/

/-- WAY_CTRL. -/
def aWayCtrl : Nat := 0x178000
/-- WAY_RING. -/
def aWayRing : Nat := 0x178008
/-- WAY_WPTR. -/
def aWayWptr : Nat := 0x178010
/-- WAY_RPTR. -/
def aWayRptr : Nat := 0x178018
/-- WAY_ERR. -/
def aWayErr : Nat := 0x178020
/-- WAY_LSCTRL. -/
def aWayLsctrl : Nat := 0x178028
/-- WAY_CNT_REC. -/
def aWayCntRec : Nat := 0x178030
/-- WAY_CNT_OVERWRITE. -/
def aWayCntOverwrite : Nat := 0x178038
/-- WAY_CNT_FLASHDROP. -/
def aWayCntFlashdrop : Nat := 0x178040
/-- WAY_CNT_LSLAYER. -/
def aWayCntLslayer : Nat := 0x178048
/-- WAY_LS_CFG i. -/
def aWayLsCfg (n : Nat) : Nat := 0x178100 + 0x20 * n
/-- WAY_LS_MM i. -/
def aWayLsMm (n : Nat) : Nat := 0x178108 + 0x20 * n
/-- WAY_LS_TOK i. -/
def aWayLsTok (n : Nat) : Nat := 0x178110 + 0x20 * n

/-- Rows of WAY (R545 to R550). -/
def rowsWay : List RegRow := [
  ⟨0x178000, 0, 1, fm 1 0, 0, 0, 0x1⟩,
  ⟨0x178008, 0, 1, fm 52 0, 0, 0, 0⟩,
  ⟨0x178010, 0, 1, 0, 0, 0, 0⟩,
  ⟨0x178018, 0, 1, fm 63 0, 0, 0, 0⟩,
  ⟨0x178020, 0, 1, 0, fm 2 0, 0, 0⟩,
  ⟨0x178028, 0, 1, fm 15 0, 0, 0, 0x64⟩,
  ⟨0x178030, 0, 1, 0, 0, 0, 0⟩,
  ⟨0x178038, 0, 1, 0, 0, 0, 0⟩,
  ⟨0x178040, 0, 1, 0, 0, 0, 0⟩,
  ⟨0x178048, 0, 1, 0, 0, 0, 0⟩,
  ⟨0x178100, 32, 16, fm 11 0 + fm 27 16 + fm 32 32, 0, 0, 0⟩,
  ⟨0x178108, 32, 16, 0, 0, 0, 0⟩,
  ⟨0x178110, 32, 16, 0, 0, 0, 0⟩]

/-! ## Arrival counters (R753) -/

/-- arrival counter c. -/
def aCtr (n : Nat) : Nat := 0x180000 + 8 * n

/-- Rows of Arrival counters (R753). -/
def rowsArrivalCounters : List RegRow := [
  ⟨0x180000, 8, 65536, fm 63 0, 0, 0, 0⟩]

/-- Every register of the window but the alias entries (R735). -/
def regRows : List RegRow :=
  rowsGlb ++ rowsAtn ++ rowsClk ++ rowsPwr ++ rowsCfg ++ rowsSec ++ rowsMgt ++ rowsRgmAndDoorbells ++ rowsPar ++ rowsCtx ++ rowsLan ++ rowsSca ++ rowsSel ++ rowsCar ++ rowsShd ++ rowsPol ++ rowsStk ++ rowsFab ++ rowsMsf ++ rowsCol ++ rowsTwn ++ rowsWay ++ rowsArrivalCounters

/-- The row that holds an address, if a register stands there. -/
def regRow (a : Nat) : Option RegRow :=
  regRows.find? (fun r => r.base ≤ a && a < r.base + (if r.count == 1 then 1 else r.stride * r.count) &&
    (r.count == 1 || (a - r.base) % r.stride == 0))

/-- The value a register has at reset; 0 where no register stands. -/
def regReset (a : Nat) : Word := ((regRow a).elim 0 (·.reset)) |> BitVec.ofNat 64

/-- The native address of an entry of the Casvin legacy alias (R755, R756); an address outside it is its own. -/
def aliasTarget (a : Nat) : Nat :=
  if a == 0xF00000 then aGlbId
  else if a == 0xF00008 then aAtnCause
  else if a == 0xF00010 then aAtnAck
  else if a == 0xF00018 then aPwrBoot
  else if 0xF00100 ≤ a && a < 0xF00300 then aDb1Ring ((a - 0xF00100) / 8)
  else if 0xF00300 ≤ a && a < 0xF00500 then aDbAbort ((a - 0xF00300) / 8)
  else if 0xF00500 ≤ a && a < 0xF00700 then aDbStat ((a - 0xF00500) / 8)
  else if 0xF01000 ≤ a && a < 0xF09000 then aCtr ((a - 0xF01000) / 8)
  else a

end Sys2Proof.Machine
end

