-- ==== Sys2Proof/Machine/Ops.lean ====
section
/-! DEFINITION. The operations that read and write what the state holds: sparse arrays, registers and their fields,
memories with their poison marks, and the CRCs. -/

namespace Sys2Proof.Machine

/-- The outcome of a command that completes. -/
abbrev Out := Host.Outcome State Fault Refusal

/-! ## Sparse arrays -/

/-- The value at an index, `d` where the array lists none. -/
def tabGet {α : Type} (d : α) (t : Tab α) (i : Nat) : α :=
  match t with
  | [] => d
  | (j, x) :: rest => if j == i then x else tabGet d rest i

/-- The listed value at an index. -/
def tabFind {α : Type} (t : Tab α) (i : Nat) : Option α :=
  match t with
  | [] => none
  | (j, x) :: rest => if j == i then some x else tabFind rest i

/-- Removes an index. -/
def tabErase {α : Type} (t : Tab α) (i : Nat) : Tab α :=
  match t with
  | [] => []
  | (j, x) :: rest => if j == i then tabErase rest i else (j, x) :: tabErase rest i

/-- Lists a value at an index. -/
def tabPut {α : Type} (t : Tab α) (i : Nat) (v : α) : Tab α :=
  match t with
  | [] => [(i, v)]
  | (j, x) :: rest =>
    if j < i then (j, x) :: tabPut rest i v
    else if j == i then (i, v) :: rest else (i, v) :: (j, x) :: rest

/-- Sets an index in an array whose unlisted value is `d`, keeping the canonical form. -/
def tabSet {α : Type} [DecidableEq α] (d : α) (t : Tab α) (i : Nat) (v : α) : Tab α :=
  if v = d then tabErase t i else tabPut t i v

/-! ## Sorted sets of numbers -/

/-- Adds a number to a set kept in rising order. -/
def setInsert (l : List Nat) (i : Nat) : List Nat :=
  match l with
  | [] => [i]
  | j :: rest => if j < i then j :: setInsert rest i else if j == i then l else i :: l

/-- Takes a number out of a set kept in rising order. -/
def setErase (l : List Nat) (i : Nat) : List Nat :=
  match l with
  | [] => []
  | j :: rest => if j < i then j :: setErase rest i else if j == i then rest else l

/-! ## Bit fields (R7 to R9) -/

/-- Field [hi:lo] of a number. -/
def fld (w : Nat) (hi lo : Nat) : Nat := (w >>> lo) % 2 ^ (hi - lo + 1)

/-- Bit n of a number. -/
def bitAt (w : Nat) (n : Nat) : Bool := (w >>> n) % 2 == 1

/-- A number with field [hi:lo] replaced. -/
def withFld (w : Nat) (hi lo v : Nat) : Nat :=
  (w >>> (hi + 1)) <<< (hi + 1) + ((v % 2 ^ (hi - lo + 1)) <<< lo) + w % 2 ^ lo

/-- Bool as a bit. -/
def bit (b : Bool) : Nat := if b then 1 else 0

/-- The bits of `w` that `mask` names replaced by those of `v`. -/
def mergeMask (w v : Word) (mask : Nat) : Word :=
  (w &&& ~~~(BitVec.ofNat 64 mask)) ||| (v &&& BitVec.ofNat 64 mask)

/-- Whether n names lie in a word, and which: the set bits of a number below 2^k, ascending. -/
def bitsOf (k w : Nat) : List Nat := (List.range k).filter (fun i => bitAt w i)

/-! ## Registers -/

/-- The stored value of a register. -/
def State.reg (s : State) (a : Nat) : Word := tabGet (regReset a) s.regs a

/-- The stored value of a register as a number. -/
def State.regN (s : State) (a : Nat) : Nat := (s.reg a).toNat

/-- Field [hi:lo] of a register. -/
def State.f (s : State) (a hi lo : Nat) : Nat := fld (s.regN a) hi lo

/-- One bit of a register. -/
def State.flag (s : State) (a n : Nat) : Bool := bitAt (s.regN a) n

/-- Stores a register. -/
def State.setReg (s : State) (a : Nat) (v : Word) : State := { s with regs := tabSet (regReset a) s.regs a v }

/-- Stores a field of a register. -/
def State.setF (s : State) (a hi lo v : Nat) : State := s.setReg a (BitVec.ofNat 64 (withFld (s.regN a) hi lo v))

/-- Adds to a 64-bit counter, wrapping. -/
def State.addCtr (s : State) (a n : Nat) : State := s.setReg a (s.reg a + BitVec.ofNat 64 n)

/-- Adds 1 to a 64-bit counter. -/
def State.bump (s : State) (a : Nat) : State := s.addCtr a 1

/-- Sets a bit of a register, such as a W1C error bit. -/
def State.setBit (s : State) (a n : Nat) : State := s.setF a n n 1

/-- Adds to a field that saturates at its largest value. -/
def State.satAdd (s : State) (a hi lo n : Nat) : State :=
  s.setF a hi lo (min (s.f a hi lo + n) (2 ^ (hi - lo + 1) - 1))

/-! ## Bytes (R7) -/

/-- Little-endian bytes as a number. -/
def leNat : Bytes → Nat
  | [] => 0
  | b :: rest => b.toNat + 256 * leNat rest

/-- A number as n little-endian bytes. -/
def natLe : Nat → Nat → Bytes
  | 0, _ => []
  | n + 1, v => BitVec.ofNat 8 v :: natLe n (v / 256)

/-- n bytes of a string from an offset; bytes past its end are 0. -/
def sliceBytes (bs : Bytes) (ofs n : Nat) : Bytes :=
  let got := (bs.drop ofs).take n
  got ++ List.replicate (n - got.length) 0

/-- A little-endian field of n bytes of a string. -/
def fieldAt (bs : Bytes) (ofs n : Nat) : Nat := leNat (sliceBytes bs ofs n)

/-- A string with n bytes from an offset replaced. -/
def putBytes (bs : Bytes) (ofs : Nat) (v : Bytes) : Bytes := bs.take ofs ++ v ++ bs.drop (ofs + v.length)

/-- A string cut into pieces of n bytes. -/
def chunksOf {α : Type} (n : Nat) : Nat → List α → List (List α)
  | 0, _ => []
  | k + 1, l => if l.isEmpty then [] else l.take n :: chunksOf n k (l.drop n)

/-! ## Memory cells -/

/-- The byte at an address where unlisted addresses read as `d`. -/
def cellGet (d : Byte) (m : List Host.Cell) (a : Nat) : Byte := tabGet d m a

/-- Writes a byte, keeping the canonical form: rising addresses, no entry equal to `d`. -/
def cellSet (d : Byte) (m : List Host.Cell) (a : Nat) (v : Byte) : List Host.Cell := tabSet d m a v

/-- Bytes from an address on. -/
def cellRead (d : Byte) (m : List Host.Cell) (a n : Nat) : Bytes := (List.range n).map (fun i => cellGet d m (a + i))

/-- Writes bytes from an address on, the last byte first. -/
def cellWrite (d : Byte) (m : List Host.Cell) (a : Nat) : Bytes → List Host.Cell
  | [] => m
  | b :: rest => cellSet d (cellWrite d m (a + 1) rest) a b

/-- The canonical form of a memory whose unlisted bytes read as `d`. -/
def Memory.wf (d : Byte) : List Host.Cell → Bool
  | [] => true
  | [(_, x)] => x != d
  | (a, x) :: (b, y) :: rest => x != d && decide (a < b) && Memory.wf d ((b, y) :: rest)

/-! ## Host memory (R717) -/

/-- Bytes of host HBM. -/
def State.hbmRead (s : State) (a n : Nat) : Bytes := cellRead 0 s.hbm a n

/-- A little-endian number in host HBM. -/
def State.hbmNat (s : State) (a n : Nat) : Nat := leNat (s.hbmRead a n)

/-- The lines that n bytes from an address touch. -/
def linesOf (a n : Nat) : List Nat :=
  if n == 0 then [] else (List.range ((a + n - 1) / 128 - a / 128 + 1)).map (· + a / 128)

/-- Whether any line of a range is marked poisoned. -/
def State.hbmPoisoned (s : State) (a n : Nat) : Bool := (linesOf a n).any s.hbmPoison.contains

/-- The poison marks after a write: a line written whole takes the write's mark, a line written in part keeps its
mark and takes a poisoned write's (R717). -/
def markLines (marks : List Nat) (a n : Nat) (poison : Bool) : List Nat :=
  (linesOf a n).foldl (fun m l =>
    if poison then setInsert m l
    else if a ≤ l * 128 && l * 128 + 128 ≤ a + n then setErase m l else m) marks

/-- Writes bytes to host HBM with or without poison marking. -/
def State.hbmWriteP (s : State) (a : Nat) (bs : Bytes) (poison : Bool) : State :=
  { s with hbm := cellWrite 0 s.hbm a bs, hbmPoison := markLines s.hbmPoison a bs.length poison }

/-- Writes clean bytes to host HBM. -/
def State.hbmWrite (s : State) (a : Nat) (bs : Bytes) : State := s.hbmWriteP a bs false

/-! ## Staging stack (R313, R324 to R328) -/

/-- Bytes of the staging stack. -/
def State.stkRead (s : State) (a n : Nat) : Bytes := cellRead 0 s.stk a n

/-- The 32-byte granules that n bytes from a stack address touch. -/
def granulesOf (a n : Nat) : List Nat :=
  if n == 0 then [] else (List.range ((a + n - 1) / 32 - a / 32 + 1)).map (· + a / 32)

/-- The poison bit of a granule, by majority of its three copies (R324). -/
def State.granulePoison (s : State) (g : Nat) : Bool :=
  decide (2 ≤ ((List.range 3).filter (fun c => s.stkPoison.contains (3 * g + c))).length)

/-- Writes all three copies of a granule's poison bit (R324). -/
def markGranule (m : List Nat) (g : Nat) (poison : Bool) : List Nat :=
  (List.range 3).foldl (fun m c => if poison then setInsert m (3 * g + c) else setErase m (3 * g + c)) m

/-- Sets a granule's poison bit (R326). -/
def State.poisonGranule (s : State) (g : Nat) : State := { s with stkPoison := markGranule s.stkPoison g true }

/-- Whether any granule of a stack range is poisoned. -/
def State.stkPoisoned (s : State) (a n : Nat) : Bool := (granulesOf a n).any s.granulePoison

/-- Writes stack bytes: a granule written whole loses its poison bit, one written in part keeps it (R327, R328). -/
def State.stkWrite (s : State) (a : Nat) (bs : Bytes) : State :=
  { s with
    stk := cellWrite 0 s.stk a bs
    stkPoison := (granulesOf a bs.length).foldl (fun m g =>
      if a ≤ g * 32 && g * 32 + 32 ≤ a + bs.length then markGranule m g false else m) s.stkPoison }

/-! ## Flash (R643) -/

/-- Bytes of the flash. -/
def State.flashRead (s : State) (a n : Nat) : Bytes := cellRead 0xFF s.flash a n

/-- Programs or erases flash bytes. -/
def State.flashWrite (s : State) (a : Nat) (bs : Bytes) : State := { s with flash := cellWrite 0xFF s.flash a bs }

/-- Erases n bytes of flash from an address on: every listed byte of the range goes. -/
def State.flashErase (s : State) (a n : Nat) : State :=
  { s with flash := s.flash.filter (fun c => c.1 < a || a + n ≤ c.1) }

/-! ## Check codes -/

/-- One byte of the reflected CRC-32C (polynomial 0x1EDC6F41, reflected 0x82F63B78). -/
def crc32cByte (c : BitVec 32) (b : Byte) : BitVec 32 :=
  (List.range 8).foldl (fun (x : BitVec 32) _ =>
    if x.getLsbD 0 then (x >>> 1) ^^^ 0x82F63B78#32 else x >>> 1) (c ^^^ b.setWidth 32)

/-- CRC-32C of a byte string. -/
def crc32c (bs : Bytes) : BitVec 32 := ~~~(bs.foldl crc32cByte 0xFFFFFFFF#32)

/-- CRC-32C as a number. -/
def crcN (bs : Bytes) : Nat := (crc32c bs).toNat

/-- HCRC: the CRC-16 of R156 over a byte string. -/
def crc16 (bs : Bytes) : BitVec 16 :=
  bs.foldl (fun c b =>
    (List.range 8).foldl (fun (x : BitVec 16) _ =>
      if x.getLsbD 15 then (x <<< 1) ^^^ 0x1021#16 else x <<< 1) (c ^^^ BitVec.ofNat 16 (b.toNat * 256))) 0xFFFF#16

/-- mix() of R107. -/
def mix (x : Word) : Word :=
  let x := x ^^^ (x >>> 30)
  let x := x * 0xBF58476D1CE4E5B9#64
  let x := x ^^^ (x >>> 27)
  let x := x * 0x94D049BB133111EB#64
  x ^^^ (x >>> 31)

/-- A number as a word. -/
def word (n : Nat) : Word := BitVec.ofNat 64 n

/-- (a − b) mod 2^n lies from 1 to 2^(n−1) − 1: a is after b (R648, R687). -/
def serialAfter (n a b : Nat) : Bool :=
  let k := (a + 2 ^ n - b % 2 ^ n) % 2 ^ n
  1 ≤ k && k < 2 ^ (n - 1)

/-! ## Replies (R681, R684) -/

/-- The engine is in Retain and no resume from it has begun (R625, R637). -/
def State.retains (s : State) : Bool := s.f aPwrState 1 0 == 1 && s.f aPwrBoot 3 0 == 0

/-- Nothing answers: reset is asserted, or the engine is in Retain (R625, R639). -/
def State.dark (s : State) : Bool := s.pwr.inReset || s.retains

/-- Sets the register-port reply: data and outcome, with the attention level of the moment; no reply
where nothing answers. -/
def State.setReply (s : State) (data : Word) (outcome : Nat) : State :=
  if s.dark then s else { s with reply := (data, BitVec.ofNat 4 (outcome + 4 * s.f aAtnCause 35 34)) }

/-- Performed: outcome 0. -/
def State.done (s : State) : State := s.setReply 0 0

/-- Refused: outcome 2. -/
def State.refuse (s : State) : State := s.setReply 0 2

end Sys2Proof.Machine
end

