-- ==== Sys2Proof/Machine/Flags.lean ====
section
/-! DEFINITION. The status flags: attention events, their levels, the event log and acknowledgement (R684 to R698). -/

namespace Sys2Proof.Machine

/-! ## Cause codes (R693) -/

/-- The level of a cause code: 1 notice, 2 service, 3 urgent (R693). -/
def causeLevel (c : Nat) : Nat :=
  if [0x0103, 0x0203, 0x0305, 0x0401, 0x0402, 0x0403, 0x0504, 0x0505, 0x0514, 0x0601, 0x0603, 0x0807, 0x0A01,
      0x0A02, 0x0C03, 0x0D04, 0x0F01].contains c then 1
  else if [0x0502, 0x0503, 0x0506, 0x0B05, 0x0B06, 0x0C01, 0x0C05, 0x0D01, 0x0D03, 0x0D05, 0x0E01].contains c then 3
  else 2

def cLaneProto : Nat := 0x0101
def cLaneDown : Nat := 0x0102
def cLaneCmd : Nat := 0x0103
def cLaneNone : Nat := 0x0104
def cArrCube : Nat := 0x0201
def cSramUe : Nat := 0x0202
def cIslCe : Nat := 0x0203
def cIslRetire : Nat := 0x0204
def cArrNone : Nat := 0x0205
def cCarOverrun : Nat := 0x0301
def cCarStall : Nat := 0x0302
def cCarPoison : Nat := 0x0303
def cCarSlice : Nat := 0x0304
def cCarOvf : Nat := 0x0305
def cHmpWrite : Nat := 0x0306
def cDlmCodec : Nat := 0x0401
def cDlmEscalate : Nat := 0x0402
def cDlmMiss : Nat := 0x0403
def cStkUe : Nat := 0x0501
def cStkHot : Nat := 0x0502
def cStkLanes : Nat := 0x0503
def cStkKeyfix : Nat := 0x0504
def cStkRowce : Nat := 0x0505
def cStkTest : Nat := 0x0506
def cPolList : Nat := 0x0511
def cPolEarly : Nat := 0x0512
def cPolFloor : Nat := 0x0513
def cPolBadfree : Nat := 0x0514
def cFabMalf : Nat := 0x0601
def cFabLinkDown : Nat := 0x0602
def cMsfRefuse : Nat := 0x0603
def cMsfDead : Nat := 0x0604
def cRingTable : Nat := 0x0701
def cRingProto : Nat := 0x0702
def cFetchCrc : Nat := 0x0703
def cColMismatch : Nat := 0x0801
def cColLost : Nat := 0x0802
def cColPayload : Nat := 0x0803
def cColProto : Nat := 0x0804
def cColGroup : Nat := 0x0805
def cColAdder : Nat := 0x0806
def cColOvf : Nat := 0x0807
def cCtxFault : Nat := 0x0901
def cWayOverwrite : Nat := 0x0A01
def cWayFlash : Nat := 0x0A02
def cWayLs : Nat := 0x0A03
def cTwnAttach : Nat := 0x0B01
def cTwnUnprot : Nat := 0x0B02
def cTwnSuspect : Nat := 0x0B03
def cTwnDeny : Nat := 0x0B04
def cTwnTakeover : Nat := 0x0B05
def cTwnFenced : Nat := 0x0B06
def cTwnCkpt : Nat := 0x0B07
def cTbUnlock : Nat := 0x0B08
def cClkNolock : Nat := 0x0C01
def cPwrDeny : Nat := 0x0C02
def cPwrCap : Nat := 0x0C03
def cPwrTherm : Nat := 0x0C04
def cThermTrip : Nat := 0x0C05
def cCfgAuth : Nat := 0x0D01
def cCfgFallback : Nat := 0x0D02
def cCfgSfu : Nat := 0x0D03
def cSecCmd : Nat := 0x0D04
def cSecDebug : Nat := 0x0D05
def cEngHalt : Nat := 0x0E01
def cMgtEvtlost : Nat := 0x0F01

/-! ## Levels (R687) -/

/-- The attention level: the highest level whose newest event is unacknowledged (R687). -/
def Atn.level (a : Atn) : Nat :=
  if a.urgent.isSome then 3 else if a.service.isSome then 2 else if a.notice.isSome then 1 else 0

/-- The newest event of a level becomes n (R687). -/
def Atn.note (a : Atn) (level n : Nat) : Atn :=
  if level == 1 then { a with notice := some n }
  else if level == 2 then { a with service := some n }
  else { a with urgent := some n }

/-- An event of a level is forgotten once ACKSEQ has reached it (R687). -/
def ackOne (ack : Nat) (o : Option Nat) : Option Nat := o.filter (fun n => serialAfter 16 n ack)

/-- The levels after ACKSEQ has become `ack`. -/
def Atn.acked (a : Atn) (ack : Nat) : Atn :=
  { a with notice := ackOne ack a.notice, service := ackOne ack a.service, urgent := ackOne ack a.urgent }

/-- Writes the level into ATN_CAUSE. -/
def State.showLevel (s : State) : State := s.setF aAtnCause 35 34 s.atn.level

/-! ## The event log (R694 to R698) -/

/-- An event's KIND, STAT, PORT, CODE, ASEQ and CONTEXT as word 1 of its entry (R695). -/
def eventWord (kind stat port code aseq ctx : Nat) : Word :=
  word (kind + stat <<< 8 + port <<< 12 + code <<< 16 + aseq <<< 32 + ctx <<< 48)

/-- Makes an event readable: the next ESEQ, its entry in the log, ATN_ESEQ, and the count of events lost to the
log (R694, R696, R698). -/
def State.logEvent (s : State) (w1 arg : Word) : State :=
  let e := s.regN aAtnEseq + 1
  let k := 4 * (e % 64)
  let lost := decide (64 < e) && decide (s.atn.seen < e - 64)
  let s := (((s.setReg (aAtnLog k) (word e)).setReg (aAtnLog (k + 1)) w1).setReg (aAtnLog (k + 2)) (word s.tb)).setReg
    (aAtnLog (k + 3)) arg
  let s := s.setReg aAtnEseq (word e)
  if lost then s.bump aAtnCntEvtlost else s

/-- Puts an entry into the flash log queue: 256 places, 16 of them for mismatch records only (R535). -/
def State.queueFlash (s : State) (entry : Bytes) (mismatch : Bool) : Option State :=
  let others := (s.way.flash.filter (fun e => !e.2)).length
  if s.way.flash.length ≥ 256 || (!mismatch && others ≥ 240) then none
  else some { s with way := { s.way with flash := s.way.flash ++ [(entry, mismatch)] } }

/-- A fault entry of the flash log (R670). -/
def State.faultEntry (s : State) (cause level island : Nat) : Bytes :=
  let b := [0x10, 0x01] ++ natLe 2 cause ++ natLe 1 level ++ [0] ++ natLe 2 island ++ natLe 8 s.tb ++
    natLe 8 s.way.wseq.toNat ++ natLe 1 (s.f aPwrBoot 3 0)
  let b := b ++ List.replicate (124 - b.length) 0
  b ++ natLe 4 (crcN b)

/-- Queues a fault entry where R670 asks for one. -/
def State.noteFault (s : State) (cause level island : Nat) : State :=
  (s.queueFlash (s.faultEntry cause level island) false).getD s

/-- Causes that write a fault entry: every urgent one, ISL_RETIRE and CFG_FALLBACK (R670). -/
def faultLogged (cause : Nat) : Bool := causeLevel cause == 3 || cause == cIslRetire || cause == cCfgFallback

/-- One attention event, or a raise merged into the newest one (R686, R692). -/
def State.raiseCore (s : State) (cause island : Nat) : State :=
  let newest := s.f aAtnCause 15 0
  let ack := s.f aAtnCause 63 48
  let lvl := causeLevel cause
  let s := s.bump aAtnCntRaise
  let s := if faultLogged cause then s.noteFault cause lvl island else s
  let open_ := (newest + 65536 - ack) % 65536
  if open_ == 32767 then
    let lvl := max lvl (s.f aAtnCause 33 32)
    let s := ((s.setF aAtnCause 31 16 cause).setF aAtnCause 33 32 lvl).setF aAtnCause 36 36 1
    let s := s.bump aAtnCntSat
    let s := { s with atn := s.atn.note lvl newest }
    (s.logEvent (eventWord 1 (lvl * 4) 0 cause newest 0) (word island)).showLevel
  else
    let n := (newest + 1) % 65536
    let s := ((s.setF aAtnCause 15 0 n).setF aAtnCause 31 16 cause).setF aAtnCause 33 32 lvl
    let s := { s with atn := s.atn.note lvl n }
    (s.logEvent (eventWord 1 (lvl * 4) 0 cause n 0) (word island)).showLevel

/-- Raises MGT_EVTLOST for the first loss since ATN_ESEQ was last read (R698); `lostBefore` is the count of losses
before the event that may have caused one. -/
def State.settleLoss (s : State) (lostBefore : Word) : State :=
  if s.reg aAtnCntEvtlost != lostBefore && !s.atn.lossRaised then
    ({ s with atn := { s.atn with lossRaised := true } }).raiseCore cMgtEvtlost 0xFFFF
  else s

/-- Raises attention with a cause, naming an island. -/
def State.raiseAt (s : State) (cause island : Nat) : State :=
  (s.raiseCore cause island).settleLoss (s.reg aAtnCntEvtlost)

/-- Raises attention with a cause that names no island. -/
def State.raise (s : State) (cause : Nat) : State := s.raiseAt cause 0xFFFF

/-- Makes an event other than an attention event readable (R694). -/
def State.event (s : State) (w1 arg : Word) : State :=
  (s.logEvent w1 arg).settleLoss (s.reg aAtnCntEvtlost)

/-- Sets an error bit and raises its cause. -/
def State.errBit (s : State) (a n cause : Nat) : State := (s.setBit a n).raise cause

/-- Acknowledgement of every event up to n, from a port: 1 register port, 2 I3C (R689). -/
def State.ackTo (s : State) (n port : Nat) : State :=
  let newest := s.f aAtnCause 15 0
  let ack := s.f aAtnCause 63 48
  if serialAfter 16 n newest then s.refuse
  else if serialAfter 16 n ack then
    let s := (s.setF aAtnCause 63 48 n).setF aAtnCause 36 36 0
    let s := { s with atn := s.atn.acked n }
    let s := s.showLevel.bump aAtnCntAck
    (s.event (eventWord 2 0 port 0 n 0) 0).done
  else s.done

/-- A read of ATN_ESEQ covers every event made readable so far (R698). -/
def State.eseqRead (s : State) : State :=
  ({ s with atn := { s.atn with seen := s.regN aAtnEseq, lossRaised := false } }).setReply (s.reg aAtnEseq) 0

end Sys2Proof.Machine
end

