-- ==== Sys2Proof/Machine/Pools.lean ====
section
/-! DEFINITION. Buffer pools (R334 to R351): state entries, free lists held in the buffers, quotas and ceilings,
thresholds, frees, quarantine and frame-handle buffers. -/

namespace Sys2Proof.Machine

/-! ## Buffers and handles (R334, R335) -/

/-- The state entry of a buffer no event has touched. -/
def polEntry0 : PolEntry :=
  { owner := 0, part := 0, alloc := false, quar := false, held := false, pchg := false, framed := false, gen := 0,
    use := 0, fh := 0 }

/-- A pool no event has touched. -/
def pool0 : Pool := { head := none, entries := [], off := [], rebuilding := false }

/-- Buffer size of a class (R334). -/
def classSize (c : Nat) : Nat := 2048 * 4 ^ c

/-- The smallest class whose buffers hold a size; none above 2 MiB (R339). -/
def classFor (size : Nat) : Option Nat := (List.range 6).find? (fun c => size ≤ classSize c)

/-- A buffer handle (R334). -/
def handleOf (c i : Nat) (gen : BitVec 32) : Nat := i + c <<< 24 + gen.toNat <<< 32

def handleIndex (h : Nat) : Nat := fld h 20 0
def handleClass (h : Nat) : Nat := fld h 26 24

def State.pool (s : State) (c : Nat) : Pool := tabGet pool0 s.pol.pools c
def State.setPool (s : State) (c : Nat) (p : Pool) : State :=
  { s with pol := { s.pol with pools := tabSet pool0 s.pol.pools c p } }

/-- Stack address of a buffer (R334, R360). -/
def State.bufAddr (s : State) (c i : Nat) : Nat := (s.f (aPolExt c) 20 0) * 2048 + i * classSize c

/-- Buffers in a pool (R360). -/
def State.poolCount (s : State) (c : Nat) : Nat := s.f (aPolExt c) 52 32

/-- The 16 bytes of a state entry (R335). -/
def PolEntry.bytes (e : PolEntry) : Bytes :=
  natLe 8 (e.owner % 4096 + (e.part % 64) <<< 12 + bit e.alloc <<< 18 + bit e.quar <<< 19 + bit e.held <<< 20 +
    bit e.pchg <<< 21 + bit e.framed <<< 22 + e.gen.toNat <<< 32) ++ natLe 8 (e.use % 65536 + (e.fh % 4096) <<< 16)

/-- Stack address of a state entry in the metadata region: the classes one behind the other, each by index (R314, R335;
the order is a DESIGN CHOICE, log 87). -/
def State.entryAddr (s : State) (c i : Nat) : Nat :=
  s.stack.metadata.1 + 16 * ((List.range c).foldl (fun n k => n + s.poolCount k) 0 + i)

def State.entry (s : State) (c i : Nat) : PolEntry := tabGet polEntry0 (s.pool c).entries i

/-- Changes a state entry: in the metadata cache, and in the stack, where the region holds it (R335, R588). -/
def State.setEntry (s : State) (c i : Nat) (e : PolEntry) : State :=
  let a := s.entryAddr c i
  let s := s.setPool c { s.pool c with entries := tabSet polEntry0 (s.pool c).entries i e }
  if a + 16 ≤ s.stack.metadata.1 + s.stack.metadata.2 then s.stkWrite a e.bytes else s

/-! ## Free lists (R336, R337) -/

/-- The free-list header of a free buffer (R336). -/
def freeHeader (c i next : Nat) (gen : BitVec 32) : Bytes :=
  let h := natLe 4 (next + c <<< 24) ++ natLe 4 gen.toNat ++ natLe 4 0x53464C31
  h ++ natLe 4 (crcN (h ++ natLe 4 i))

/-- Puts a buffer at the head of its pool's list (R337). -/
def State.push (s : State) (c i : Nat) : State :=
  let p := s.pool c
  let next := p.head.getD 0x1FFFFF
  let s := s.stkWrite (s.bufAddr c i) (freeHeader c i next (s.entry c i).gen)
  let s := s.setPool c { s.pool c with head := some i }
  s.setF (aPolFree c) 20 0 (s.f (aPolFree c) 20 0 + 1)

/-- Whether a popped buffer passes the check of R338; an unreadable header fails it. -/
def State.headGood (s : State) (c i : Nat) : Bool :=
  let a := s.bufAddr c i
  let bs := s.stkRead a 16
  let e := s.entry c i
  !s.stkPoisoned a 16 && decide (i < s.poolCount c) && fieldAt bs 0 4 >>> 24 == c && fieldAt bs 4 4 == e.gen.toNat &&
    fieldAt bs 8 4 == 0x53464C31 && fieldAt bs 12 4 == crcN (bs.take 12 ++ natLe 4 i) && !e.alloc && !e.quar

/-! ## Thresholds (R342, R343) -/

/-- Threshold k of a pool: 1 EARLY, 2 LOW, 3 FLOOR (R360). -/
def State.polThr (s : State) (c k : Nat) : Nat :=
  if k == 1 then s.f (aPolThr c) 20 0 else if k == 2 then s.f (aPolThr c) 41 21 else s.f (aPolThr c) 62 42

/-- The state a free count gives (R342). -/
def State.polTarget (s : State) (c : Nat) : Nat :=
  let n := s.f (aPolFree c) 20 0
  if n ≤ s.polThr c 3 then 3 else if n ≤ s.polThr c 2 then 2 else if n ≤ s.polThr c 1 then 1 else 0

/-- Enters a lower state k with its attention and error bit (R342, R343). -/
def State.polEnter (s : State) (c k : Nat) : State :=
  let s := s.setF (aPolFree c) 61 60 k
  if k == 1 then s.errBit aPolErr 2 cPolEarly else if k == 3 then s.errBit aPolErr 3 cPolFloor else s

/-- Moves a pool up past every threshold its free count exceeds by the hysteresis; fuel for the three states. -/
def polRise : Nat → Nat → State → State
  | 0, _, s => s
  | k + 1, c, s =>
    let st := s.f (aPolFree c) 61 60
    let n := s.f (aPolFree c) 20 0
    if st ≥ 1 && n > s.polThr c st && n ≥ s.polThr c st + s.f (aPolHyst c) 20 0 then
      polRise k c (s.setF (aPolFree c) 61 60 (st - 1))
    else s

/-- The state of a pool follows its free count (R343). -/
def State.polSettle (s : State) (c : Nat) : State :=
  let st := s.f (aPolFree c) 61 60
  let t := s.polTarget c
  if t > st then ((List.range (t - st)).map (· + st + 1)).foldl (fun s k => s.polEnter c k) s
  else polRise 3 c s

/-! ## Allocation (R337 to R341) -/

/-- Discards a damaged list (R338). -/
def State.listDamaged (s : State) (c : Nat) : State :=
  let s := s.setPool c { s.pool c with head := none, rebuilding := true }
  ((s.setF (aPolFree c) 20 0 0).errBit aPolErr 1 cPolList).polSettle c

/-- A quarantined buffer that is off the list counts in POL_FREE.QUAR (R350, R360). -/
def State.setOff (s : State) (c : Nat) (l : List Nat) : State :=
  (s.setPool c { s.pool c with off := l }).setF (aPolFree c) 52 32 l.length

/-- Links every free buffer of a pool into its list, the lowest index first (R336, R338); quarantined ones stay off
it. -/
def State.fillPool (s : State) (c : Nat) : State :=
  let s := s.setPool c { s.pool c with head := none, rebuilding := false }
  let s := s.setF (aPolFree c) 20 0 0
  let s := s.setOff c (((s.pool c).entries.filter (fun e => e.2.quar && !e.2.alloc)).map (·.1))
  let free := (List.range (s.poolCount c)).filter (fun i =>
    let e := s.entry c i
    !e.alloc && !e.quar && !e.held)
  free.reverse.foldl (fun s i => s.push c i) s

/-- Rebuilds a pool's list from its state entries (R338). -/
def State.rebuild (s : State) (c : Nat) : State := (s.fillPool c).polSettle c

/-- Buffers of a class charged to a context (R340). -/
def State.heldCtx (s : State) (c x : Nat) : Nat :=
  ((s.pool c).entries.filter (fun e => e.2.alloc && !e.2.pchg && e.2.owner == x)).length

/-- Buffers of a class charged to a partition and its contexts (R340). -/
def State.heldPart (s : State) (c p : Nat) : Nat :=
  ((s.pool c).entries.filter (fun e => e.2.alloc && e.2.part == p)).length

/-- A context's quota of a class (R521). -/
def State.quota (s : State) (x c : Nat) : Nat :=
  let a := if c < 3 then aCtxQuotaA x else aCtxQuotaB x
  s.f a (20 + 21 * (c % 3)) (21 * (c % 3))

/-- A partition's ceiling of a class (R520). -/
def State.ceil (s : State) (p c : Nat) : Nat := s.f (aParCeil0 p + 8 * c) 20 0

/-- Who is charged: a context of a partition, or the partition alone (R335). -/
structure Charge where
  ctx : Nat
  part : Nat
  partOnly : Bool
  deriving DecidableEq, Repr, Inhabited

/-- Whether quota, ceiling, threshold state and free count allow n buffers (R340); kind as in `PolWait`. Whether a join
fits at the low threshold is the Turnstile's test (R301). -/
def State.allocAllowed (s : State) (c n : Nat) (w : Charge) (kind : Nat) : Bool :=
  (w.partOnly || decide (s.heldCtx c w.ctx + n ≤ s.quota w.ctx c)) &&
  decide (s.heldPart c w.part + n ≤ s.ceil w.part c) &&
  (!(kind == 1 || kind == 3) || decide (s.f (aPolFree c) 61 60 < 3)) &&
  decide (n ≤ s.f (aPolFree c) 20 0)

/-- Pops and checks the head of a list: the buffer's handle, or none when the list proves damaged (R338). -/
def State.popOne (s : State) (c : Nat) (w : Charge) : Option Nat × State :=
  match (s.pool c).head with
  | none => (none, s)
  | some i =>
    if s.headGood c i then
      let next := fieldAt (s.stkRead (s.bufAddr c i) 4) 0 4 % 2 ^ 21
      let e := s.entry c i
      let gen := e.gen + 1
      let s := s.setEntry c i { polEntry0 with
        owner := w.ctx, part := w.part, alloc := true, pchg := w.partOnly, gen := gen }
      let s := s.setPool c { s.pool c with head := if next == 0x1FFFFF then none else some next }
      let s := s.setF (aPolFree c) 20 0 (s.f (aPolFree c) 20 0 - 1)
      (some (handleOf c i gen), (s.bump (aPolCntAlloc c)).polSettle c)
    else (none, s.listDamaged c)

/-- Takes n buffers one by one; a damaged list is rebuilt at once, since the request waits for the rebuild (R338).
The fuel bounds pops and rebuilds together. -/
def takeLoop : Nat → Nat → Nat → Charge → List Nat → State → List Nat × State
  | 0, _, _, _, got, s => (got, s)
  | k + 1, c, n, w, got, s =>
    if n == 0 then (got, s)
    else
      match s.popOne c w with
      | (some h, s') => takeLoop k c (n - 1) w (got ++ [h]) s'
      | (none, s') =>
        if (s'.pool c).rebuilding then takeLoop k c n w got (s'.rebuild c) else (got, s')

/-- Takes a buffer back as if it had not been handed out, for an allocation that takes all or none (R339). -/
def State.giveBack (s : State) (h : Nat) : State :=
  let c := handleClass h
  let i := handleIndex h
  let e := s.entry c i
  let s := s.setEntry c i { polEntry0 with gen := e.gen, quar := e.quar }
  if e.quar then s.setOff c (setInsert (s.pool c).off i)
  else ((s.push c i).bump (aPolCntFree c)).polSettle c

/-- Allocates n buffers of a class, all or none (R339, R340): their handles, or none when it fails. -/
def State.allocN (s : State) (c n : Nat) (w : Charge) (kind : Nat) : Option (List Nat) × State :=
  let s := if (s.pool c).rebuilding then s.rebuild c else s
  if n == 0 then (some [], s)
  else if s.allocAllowed c n w kind then
    let r := takeLoop (2 * n + 2) c n w [] s
    if r.1.length == n then (some r.1, r.2) else (none, r.1.foldl State.giveBack r.2)
  else (none, s)

/-! ## Frees and quarantine (R346, R349 to R351) -/

/-- A buffer's last use is gone: it returns to its list, or stays off it while quarantined (R350). -/
def State.returnBuf (s : State) (c i : Nat) : State :=
  let e := s.entry c i
  let s := s.setEntry c i { polEntry0 with gen := e.gen, quar := e.quar }
  if e.quar then s.setOff c (setInsert (s.pool c).off i)
  else ((s.push c i).bump (aPolCntFree c)).polSettle c

/-- A FRAMED buffer gives one use back (R345, R346). -/
def State.dropUse (s : State) (c i : Nat) : State :=
  let e := s.entry c i
  let u := e.use - 1
  let s := s.setEntry c i { e with use := u }
  if u == 0 then
    if s.pol.marks.contains e.fh then s.setEntry c i { e with use := 0, held := true } else s.returnBuf c i
  else s

/-- A step takes a use of a FRAMED buffer (R345). -/
def State.takeUse (s : State) (c i : Nat) : State :=
  let e := s.entry c i
  if e.alloc && e.framed then s.setEntry c i { e with use := e.use + 1 } else s

/-- Whether a free of a handle is refused (R349). -/
def State.badFree (s : State) (h x : Nat) (partLevel : Bool) : Bool :=
  let c := handleClass h
  let i := handleIndex h
  let e := s.entry c i
  c ≥ 6 || decide (s.poolCount c ≤ i) || fld h 23 21 != 0 || fld h 31 27 != 0 || !e.alloc || e.held ||
    h >>> 32 != e.gen.toNat || (if e.pchg then !partLevel else e.owner != x)

/-- A free (R349, R350): its outcome and the state after it. -/
def State.freeBuf (s : State) (h x : Nat) (partLevel : Bool) : Nat × State :=
  if s.badFree h x partLevel then (2, (s.bump aPolCntBadfree).errBit aPolErr 0 cPolBadfree)
  else
    let c := handleClass h
    let i := handleIndex h
    (0, if (s.entry c i).framed then s.dropUse c i else s.returnBuf c i)

/-- Frees handles the engine itself holds. -/
def State.freeAll (s : State) (hs : List Nat) : State :=
  hs.foldl (fun s h =>
    let c := handleClass h
    let i := handleIndex h
    let e := s.entry c i
    if e.alloc && h >>> 32 == e.gen.toNat then
      (if e.framed then s.dropUse c i else s.returnBuf c i)
    else s) s

/-- The pool buffer a stack address lies in (R334). -/
def State.bufAt (s : State) (a : Nat) : Option (Nat × Nat) :=
  (List.range 6).findSome? (fun c =>
    let base := s.bufAddr c 0
    if base ≤ a && a < base + s.poolCount c * classSize c then some (c, (a - base) / classSize c) else none)

/-- Sets QUAR in the state entry of the buffer that holds a stack address, if any (R326). -/
def State.quarantine (s : State) (a : Nat) : State :=
  match s.bufAt a with
  | none => s
  | some (c, i) => s.setEntry c i { s.entry c i with quar := true }

/-- Zeros over n bytes of the stack from an address on, in whole granules (R327). -/
def State.stkZero (s : State) (a n : Nat) : State :=
  { s with
    stk := s.stk.filter (fun c => c.1 < a || a + n ≤ c.1)
    stkPoison := s.stkPoison.filter (fun k => k / 3 * 32 < a || a + n < k / 3 * 32 + 32) }

/-- QREL of a quarantined buffer (R351): its outcome and the state after it; `clean` says whether every granule reads
clean after the zeros are written. A buffer that still stands on its list has lost its header to the zeros: the list is
linked anew (DESIGN CHOICE, log 87). -/
def State.qrel (s : State) (h : Nat) (clean : Bool) : Nat × State :=
  let c := handleClass h
  let i := handleIndex h
  let e := s.entry c i
  if c ≥ 6 || decide (s.poolCount c ≤ i) || !e.quar || e.alloc then (2, s)
  else
    let off := (s.pool c).off.contains i
    let s := s.stkZero (s.bufAddr c i) (classSize c)
    if clean then
      let s := s.setEntry c i { e with quar := false }
      if off then
        let s := s.setOff c (setErase (s.pool c).off i)
        (0, ((s.push c i).bump (aPolCntFree c)).polSettle c)
      else (0, s.fillPool c)
    else (3, if off then s else s.fillPool c)

/-! ## Frame marks (R344, R346) -/

/-- Buffers bound to a frame handle that are HELD: class and index, ascending. -/
def State.heldFrames (s : State) (fh : Nat) : List (Nat × Nat) :=
  (List.range 6).flatMap (fun c =>
    ((s.pool c).entries.filter (fun e => e.2.framed && e.2.fh == fh && e.2.held)).map (fun e => (c, e.1)))

/-- Sets or clears MARK of a frame handle; clearing frees every HELD buffer of it (R346). -/
def State.setMark (s : State) (fh : Nat) (on : Bool) : State :=
  if on then { s with pol := { s.pol with marks := setInsert s.pol.marks fh } }
  else
    let s := { s with pol := { s.pol with marks := setErase s.pol.marks fh } }
    (s.heldFrames fh).foldl (fun s b => s.returnBuf b.1 b.2) s

/-- A context's buffers at UNLOAD or teardown: FRAMED ones take PCHG = 1, the rest are released (R348, R499, R518). -/
def State.releaseCtx (s : State) (x : Nat) : State :=
  (List.range 6).foldl (fun s c =>
    ((s.pool c).entries.filter (fun e => e.2.alloc && !e.2.pchg && e.2.owner == x)).foldl (fun s e =>
      if e.2.framed then s.setEntry c e.1 { e.2 with pchg := true } else s.returnBuf c e.1) s) s

/-! ## Commands -/

/-- Charge of an allocation that names a context and a partition. -/
def chargeOf (x p : Nat) : Charge := { ctx := x, part := p, partOnly := false }

/-- Who a waiting or new allocation is charged to: the partition alone for lane backing, ring tokens and copies
(R339). -/
def PolWait.charge (w : PolWait) : Charge := { ctx := w.ctx, part := w.part, partOnly := decide (3 ≤ w.kind) }

/-- The kinds that wait and are retried (R339, R341). -/
def PolWait.inFlight (w : PolWait) : Bool := w.kind == 2 || w.kind == 4

/-- An allocation that a consumer asks for succeeds now (R340, R342): staging is a join's, which early lets in only beside
no running step, and low not at all (R301). -/
def State.grants (s : State) (w : PolWait) : Bool :=
  let st := s.f (aPolFree w.cls) 61 60
  let busy := s.rgm.steps.any (fun t => t.part == w.part && t.phase == .running)
  s.allocAllowed w.cls 1 w.charge w.kind && (w.kind != 0 || st == 0 || (st == 1 && !busy))

/-- POOL_ALLOC: a consumer of row `kind` of R339 asks a pool for one buffer (R338, R340, R341). -/
def execPoolAlloc (cls x p kind : Nat) (s : State) : Out :=
  if cls ≥ 6 then .next s
  else
    let w : PolWait := { cls := cls, ctx := x, part := p, kind := kind }
    let wait := { s with pol := { s.pol with waits := s.pol.waits ++ [w] } }
    if (s.pool cls).rebuilding then .next wait
    else if s.grants w then
      match s.popOne cls w.charge with
      | (some _, s') => .next s'
      | (none, s') => .next { s' with pol := { s'.pol with waits := s'.pol.waits ++ [w] } }
    else if w.inFlight then .next wait
    else .next s

/-- Retries waiting allocations of a pool, oldest first, while they succeed. -/
def serveWaits : Nat → Nat → State → State
  | 0, _, s => s
  | k + 1, cls, s =>
    match s.pol.waits.find? (fun w => w.cls == cls) with
    | none => s
    | some w =>
      if s.grants w then
        match s.popOne cls w.charge with
        | (some _, s') => serveWaits k cls { s' with pol := { s'.pol with waits := s'.pol.waits.erase w } }
        | (none, s') => s'
      else if w.inFlight then s
      else serveWaits k cls { s with pol := { s.pol with waits := s.pol.waits.erase w } }

/-- The partition a context names (R521). -/
def State.ctxPart (s : State) (x : Nat) : Nat := s.f (aCtxCfg x) 7 2

/-- A halted engine (R605). -/
def State.halted (s : State) : Bool := s.pwr.halted

/-- READY has been published (R635). -/
def State.ready (s : State) : Bool := s.flag aPwrBoot 4

/-- Blocks outside GLB, ATN, CLK, PWR, CFG, SEC and MGT do not answer yet (R635, R737). -/
def State.portShut (s : State) : Bool := !s.ready && !s.halted && s.flag aSecStat 2

/-- A command of the register port to the blocks that answer before READY; none where nothing answers (R625, R635). -/
def State.early (s : State) (k : State → State) : Out := .next (if s.dark then s else k s)

/-- A live apply is under way that names a section, whose registers then take no write (R738). -/
def State.applying (s : State) (section_ : Nat) : Bool := s.flag aCfgApply 17 && bitAt s.cfg.applyMask section_

/-- POL_OP's RW fields take a write (R359). -/
def State.polOpFields (s : State) (v : Word) : State := s.setReg aPolOp (mergeMask (s.reg aPolOp) v (fm 14 0))

/-- Whether a pool operation is refused before its own checks: no READY, or a halt (R635, R606). -/
def State.unitShut (s : State) : Bool := !s.ready || s.halted

end Sys2Proof.Machine
end

