-- ==== Sys2Proof/Machine/Programs.lean ====
section
/-! DEFINITION. Route programs: images, ops, parameter blocks, loops, and the checks of a load (R268 to R283). -/

namespace Sys2Proof.Machine

/-! ## Ops (R272, R273) -/

def opScore : Nat := 1
def opSelect : Nat := 2
def opSort : Nat := 3
def opDispatch : Nat := 4
def opAwait : Nat := 5
def opCombine : Nat := 6
def opExit : Nat := 7
def opShadow : Nat := 8
def opReduce : Nat := 9
def opFetch : Nat := 10
def opCopy : Nat := 11
def opMark : Nat := 12
def opFence : Nat := 13
def opLoop : Nat := 14

/-- Bits of an op's 128, and whether the common reserved bits are 0 (R272). -/
def decodeOp (bs : Bytes) : RouteOp × Bool :=
  let w := fieldAt bs 0 8
  ({ opcode := fld w 7 0, layer := fld w 15 8, cheap := bitAt w 16, cont := bitAt w 17, save := bitAt w 18,
     live := fld w 28 24, param := fld w 63 32, spec := word (fieldAt bs 8 8) },
   fld w 23 19 == 0 && fld w 31 29 == 0)

/-- Op-specific field, bits counted from bit 64 of the op (R273). -/
def opF (o : RouteOp) (hi lo : Nat) : Nat := fld o.spec.toNat hi lo

/-- MODE of a SCORE op. -/
def opMode (o : RouteOp) : Nat := opF o 1 0

/-- The op-specific bits an opcode leaves reserved are 0 (R273). -/
def opSpecOk (o : RouteOp) : Bool :=
  if o.opcode == opScore then opF o 63 3 == 0 && opMode o ≤ 2
  else if o.opcode == opDispatch then opF o 63 4 == 0 && opF o 3 0 ≤ 6
  else if o.opcode == opAwait then opF o 15 2 == 0 && !(opF o 0 0 == 0 && opF o 1 1 == 1)
  else if o.opcode == opLoop then opF o 63 49 == 0 && 1 ≤ opF o 31 16
  else o.spec == 0

/-- An op that R273 gives a parameter block. -/
def opHasParam (o : RouteOp) : Bool :=
  [opScore, opSelect, opDispatch, opCombine, opExit, opShadow, opReduce, opFetch, opCopy].contains o.opcode

/-- CONT and SAVE only where R272 allows them; PARAM nonzero exactly where a block is due. -/
def opFlagsOk (o : RouteOp) : Bool :=
  (!o.cont || o.opcode == opScore) && (!o.save || (o.opcode == opScore && opMode o == 0)) &&
    (opHasParam o == (o.param != 0))

/-! ## Loops (R282) -/

/-- The LOOP ops whose bodies hold op i, innermost first. -/
def loopsAround (ops : List RouteOp) (i : Nat) : List Nat :=
  (List.range ops.length).filter (fun j =>
    match ops[j]? with
    | some o => o.opcode == opLoop && decide (opF o 15 0 ≤ i) && decide (i < j)
    | none => false)

/-- Sum over the enclosing loops of `step` times the iteration. -/
def loopSum (ops : List RouteOp) (iters : Tab Nat) (i : Nat) (step : RouteOp → Nat) : Nat :=
  (loopsAround ops i).foldl (fun n j =>
    match ops[j]? with
    | some o => n + tabGet 0 iters j * step o
    | none => n) 0

/-- Effective LAYER of op i (R282). -/
def effLayer (ops : List RouteOp) (iters : Tab Nat) (i : Nat) : Nat :=
  match ops[i]? with
  | some o => o.layer + loopSum ops iters i (fun l => opF l 48 48)
  | none => 0

/-- Effective PARAM of op i, in bytes from the start of the parameter area (R272, R282). -/
def effParam (ops : List RouteOp) (iters : Tab Nat) (i : Nat) : Nat :=
  match ops[i]? with
  | some o => if o.param == 0 then 0 else 16 * (o.param + loopSum ops iters i (fun l => opF l 47 32))
  | none => 0

/-- The op after op i, and the loop iterations: a LOOP op starts its body again until it has run COUNT times. -/
def nextOp (ops : List RouteOp) (iters : Tab Nat) (i : Nat) : Nat × Tab Nat :=
  match ops[i]? with
  | some o =>
    if o.opcode == opLoop then
      let k := tabGet 0 iters i
      if k + 1 < opF o 31 16 then (opF o 15 0, tabSet 0 iters i (k + 1)) else (i + 1, tabSet 0 iters i 0)
    else (i + 1, iters)
  | none => (i + 1, iters)

/-- LOOP ops nest properly: TARGET below the op, bodies inside one another or apart, at most four deep. -/
def loopsOk (ops : List RouteOp) (i : Nat) : Bool :=
  match ops[i]? with
  | some o =>
    if o.opcode == opLoop then
      let t := opF o 15 0
      decide (t < i) && decide ((loopsAround ops i).length ≤ 3) &&
        (loopsAround ops i).all (fun j =>
          match ops[j]? with
          | some l => decide (opF l 15 0 ≤ t)
          | none => true)
    else true
  | none => true

/-! ## Parameter blocks (R275, R277) -/

/-- The parameter area from a byte offset on. -/
def Program.blk (p : Program) (ofs : Nat) : Bytes := p.params.drop ofs

/-- Little-endian field of n bytes at an offset of a block. -/
def Program.at (p : Program) (blk ofs n : Nat) : Nat := fieldAt p.params (blk + ofs) n

/-- A signed byte. -/
def signed8 (n : Nat) : Int := if n ≥ 128 then (n : Int) - 256 else n

/-- An address field's bits [63:51] are 0 (R275). -/
def addrFieldOk (v : Nat) : Bool := v >>> 51 == 0

/-- The resolved address: BASE[BSEL] + offset, BASE[0] = 0 (R275). -/
def resolve (bases : List Nat) (v : Nat) : Nat :=
  let b := fld v 50 48
  (if b == 0 then 0 else bases.getD (b - 1) 0) + fld v 47 0

/-- An address field in block `blk`, resolved. -/
def Program.addr (p : Program) (bases : List Nat) (blk ofs : Nat) : Nat := resolve bases (p.at blk ofs 8)

/-- Payload flits of a row of width d in lane format `fmt` (R153). -/
def nflit (fmt d : Nat) : Nat :=
  if fmt ≤ 1 then d / 16 else if fmt == 2 then d / 8 else if fmt ≤ 4 then d / 32 else (33 * d + 1023) / 1024

/-- Bytes of a row of width d in format `fmt` of R153, MXFP8 padded by R30. -/
def rowBytes (fmt d : Nat) : Nat := 32 * nflit fmt d

/-- E8 of R88. -/
def e8Of (e : Nat) : Nat := 8 * ((e + 1 + 7) / 8)

def fmtOfOut (k : Nat) : FloatFmt :=
  if k == 0 then .bf16 else if k == 1 then .fp16 else if k == 2 then .fp32 else if k == 3 then .e4m3 else .e5m2

/-- Bytes of a range of a block are 0. -/
def Program.zeros (p : Program) (blk : Nat) (ranges : List (Nat × Nat)) : Bool :=
  ranges.all (fun r => p.at blk r.1 r.2 == 0)

/-- An address field with BSEL 0 keeps an alignment at load (R759). -/
def loadAligned (v align : Nat) : Bool := fld v 50 48 != 0 || fld v 47 0 % align == 0

/-- Size of the parameter block of an op (R273, R277); a block whose size it holds itself is read first. -/
def blockSize (p : Program) (o : RouteOp) (blk : Nat) : Nat :=
  if o.opcode == opScore then 128
  else if o.opcode == opSelect then 64 + 4 * p.at blk 0x16 2
  else if o.opcode == opDispatch then 16 + 16 * p.at blk 0 2
  else if o.opcode == opExit || o.opcode == opShadow then 16
  else if opHasParam o then 64 else 0

/-! ### SCORE -/

def Program.sE (p : Program) (b : Nat) : Nat := p.at b 0 2
def Program.sRfmt (p : Program) (b : Nat) : Nat := p.at b 2 1
def Program.sConvp (p : Program) (b : Nat) : Nat := p.at b 3 1
/-- Kernel extents (k_t, k_h, k_w) (R94, R277). -/
def convExt (c : Nat) : Nat × Nat × Nat :=
  (if bitAt c 0 then 3 else 1, if bitAt c 1 then 3 else 1, if bitAt c 2 then 3 else 1)
/-- Strides on t, h and w (R94, R277). -/
def convStride (c : Nat) : Nat × Nat × Nat :=
  (if bitAt c 3 then 2 else 1, if bitAt c 4 then 2 else 1, if bitAt c 5 then 2 else 1)
/-- Number of taps (R94). -/
def convTaps (c : Nat) : Nat := (convExt c).1 * (convExt c).2.1 * (convExt c).2.2

/-- The SCORE block is within R64, R79, R87 and R94 and its reserved bytes are 0. -/
def scoreOk (p : Program) (o : RouteOp) (b : Nat) : Bool :=
  let e := p.sE b
  let c := p.sConvp b
  let f := p.at b 0x2A 2 + p.at b 0x2C 2 + p.at b 0x2E 2
  let mode := opMode o
  let conv := opF o 2 2 == 1
  decide (1 ≤ e) && decide (e ≤ 1024) && decide (p.sRfmt b ≤ 4) && c < 128 &&
  (!bitAt c 3 || bitAt c 0) && (!bitAt c 4 || bitAt c 1) && (!bitAt c 5 || bitAt c 2) &&
  decide (p.at b 0x28 2 + 2 * f ≤ p.d) && decide (p.at b 0x2A 2 ≤ 256) && decide (p.at b 0x2C 2 ≤ 256) &&
  decide (p.at b 0x2E 2 ≤ 256) &&
  p.at b 0x30 4 < 2 ^ 24 && p.at b 0x34 4 < 2 ^ 24 && p.at b 0x38 4 < 2 ^ 24 &&
  [0x08, 0x10, 0x18, 0x20, 0x48, 0x50, 0x60].all (fun k => addrFieldOk (p.at b k 8)) &&
  p.zeros b [(0x3E, 2), (0x44, 4), (0x5A, 6), (0x6D, 19)] &&
  (if mode == 0 then
    decide (p.at b 0x6C 1 ≤ 6) && p.at b 0x68 4 % 32 == 0 && decide (rowBytes (p.at b 0x6C 1) p.d ≤ p.at b 0x68 4) &&
      loadAligned (p.at b 0x60 8) 128
   else if mode == 1 then decide (p.sRfmt b ≤ 2) && !conv
   else p.at b 0x58 2 % 8 == 0 && decide (8 ≤ p.at b 0x58 2) && decide (p.at b 0x58 2 ≤ 4096) && !conv)

/-! ### SELECT -/

def Program.kFlags (p : Program) (b : Nat) : Nat := p.at b 0 1
def Program.kMin (p : Program) (b : Nat) : Nat := p.at b 1 1
def Program.kMax (p : Program) (b : Nat) : Nat := p.at b 2 1
def Program.kShared (p : Program) (b : Nat) : Nat := p.at b 3 1
def Program.kLminExit (p : Program) (b : Nat) : Nat := p.at b 4 1
def Program.kE (p : Program) (b : Nat) : Nat := p.at b 0x16 2
/-- Capacity word of expert e. -/
def Program.kCap (p : Program) (b e : Nat) : Nat := p.at b (0x40 + 4 * e) 4

/-- An FP32 field from 0 to +∞. -/
def nonNegF32 (v : Nat) : Bool := v ≤ 0x7F800000 || v == 0x80000000

/-- The SELECT block is within R104 and its reserved bytes are 0. -/
def selectOk (p : Program) (b : Nat) : Bool :=
  let e := p.kE b
  p.kFlags b < 16 && decide (p.kMin b ≤ p.kMax b) && (p.kMin b != 0 || p.kShared b != 0) &&
  decide (1 ≤ p.kMax b) && decide (p.kMax b ≤ min 16 e) && decide (p.kShared b ≤ 4) && decide (e ≤ 1024) &&
  nonNegF32 (p.at b 8 4) && nonNegF32 (p.at b 0xC 4) &&
  (p.at b 0x10 4 ≤ 0x3F800000 || p.at b 0x10 4 == 0x80000000) &&
  (p.at b 0x14 2 ≤ 0x3F00 || p.at b 0x14 2 == 0x8000) &&
  addrFieldOk (p.at b 0x20 8) && addrFieldOk (p.at b 0x28 8) && p.zeros b [(5, 3), (0x30, 16)] &&
  (List.range e).all (fun i => p.kCap b i ≤ 4194304 || p.kCap b i == 0xFFFFFFFF)

/-! ### DISPATCH -/

def Program.dN (p : Program) (b : Nat) : Nat := p.at b 0 2

/-- Logical lanes of entry i of a DISPATCH block (R277). -/
def Program.dLanes (p : Program) (b i : Nat) : List Nat :=
  let a := b + 16 + 16 * i
  let h := fieldAt p.params a 1
  if h ≥ 128 then (List.range (h % 128 + 1)).map (· + fieldAt p.params (a + 1) 1)
  else (List.range (h % 16)).map (fun k => fieldAt p.params (a + 1 + k) 1)

/-- The DISPATCH block is well formed (R277). -/
def dispatchOk (p : Program) (b : Nat) : Bool :=
  p.zeros b [(2, 14)] && (List.range (p.dN b)).all (fun i =>
    let a := b + 16 + 16 * i
    let h := fieldAt p.params a 1
    let ls := p.dLanes b i
    ls.all (· < p.nlane) &&
      (if h ≥ 128 then fieldAt p.params (a + 2) 14 == 0
       else decide (1 ≤ h) && decide (h ≤ 15) && fieldAt p.params (a + 1 + h) (15 - h) == 0))

/-! ### COMBINE -/

def Program.cW (p : Program) (b : Nat) : Int := signed8 (p.at b 0 1)
def Program.cFmt (p : Program) (b : Nat) : FloatFmt := fmtOfOut (p.at b 1 1)
def Program.cMix (p : Program) (b : Nat) : Bool := p.at b 2 1 == 1
def Program.cSlotRes (p : Program) (b : Nat) : Nat := p.at b 6 2

/-- W from −64 to +40 (R54). -/
def windowOk (w : Int) : Bool := decide (-64 ≤ w) && decide (w ≤ 40)

/-- The COMBINE block is within R192 and its reserved bytes are 0. -/
def combineOk (p : Program) (b : Nat) : Bool :=
  windowOk (p.cW b) && decide (p.at b 1 1 ≤ 4) && decide (p.at b 2 1 ≤ 1) && p.zeros b [(3, 1), (0x30, 16)] &&
  p.cSlotRes b % 64 == 0 && decide (64 ≤ p.cSlotRes b) && decide (p.cSlotRes b ≤ 32768) &&
  p.at b 0x10 4 % 128 == 0 && decide (p.d * floatBytes (p.cFmt b) ≤ p.at b 0x10 4) &&
  [0x08, 0x18, 0x20, 0x28].all (fun k => addrFieldOk (p.at b k 8)) && loadAligned (p.at b 8 8) 128

/-! ### REDUCE, FETCH, COPY (R454, R443, R387) -/

/-- A collective descriptor's fields that need no run: reserved bits, TYPE, OP, MODE, W and NELEM (R454, R456). -/
def collDescOk (bs : Bytes) : Bool :=
  let w := fieldAt bs 0 8
  let n := fieldAt bs 0x18 8
  fld w 23 20 == 0 && fld w 63 40 == 0 && fld w 15 12 ≤ 3 && fld w 39 32 == 1 &&
  !(bitAt w 16 && fld w 15 12 == 3) && !(bitAt w 16 && fld w 31 24 != 0) &&
  windowOk (signed8 (fld w 31 24)) && decide (1 ≤ n) && decide (n ≤ if bitAt w 17 then 256 else 2 ^ 26) &&
  fld (fieldAt bs 0x20 8) 63 32 == 0 && fieldAt bs 0x38 8 == 0

/-- A copy descriptor's reserved fields, DIR and LEN (R387). -/
def copyDescOk (bs : Bytes) (fetch : Bool) : Bool :=
  let w := fieldAt bs 0 8
  let len := fieldAt bs 0x18 8
  let rc := fieldAt bs 0x20 8
  let v := fieldAt bs 0x28 8
  fld w 1 0 ≤ 1 && fld w 7 2 == 0 && fld w 15 9 == 0 && fld w 63 46 == 0 &&
  len % 128 == 0 && decide (128 ≤ len) && decide (len ≤ 2 ^ 30) && fld rc 63 17 == 0 &&
  fieldAt bs 0x30 8 == 0 && fieldAt bs 0x38 8 == 0 &&
  (if fetch then fld w 1 0 == 1 && v >>> 33 == 0 && !(bitAt v 32 && (bitAt rc 16 || !bitAt w 8)) else v == 0)

/-- The block of an op is legal, its layer group apart. -/
def blockOk (p : Program) (o : RouteOp) (b : Nat) : Bool :=
  if o.opcode == opScore then scoreOk p o b
  else if o.opcode == opSelect then selectOk p b
  else if o.opcode == opDispatch then dispatchOk p b
  else if o.opcode == opCombine then combineOk p b
  else if o.opcode == opExit || o.opcode == opShadow then
    addrFieldOk (p.at b 0 8) && p.zeros b [(8, 8)]
  else if o.opcode == opReduce then
    collDescOk (sliceBytes (p.blk b) 0 64) && addrFieldOk (p.at b 8 8) && addrFieldOk (p.at b 0x30 8) &&
      (bitAt (p.at b 0 8) 17 || addrFieldOk (p.at b 0x10 8)) && loadAligned (p.at b 0x30 8) 16
  else if o.opcode == opFetch || o.opcode == opCopy then
    copyDescOk (sliceBytes (p.blk b) 0 64) (o.opcode == opFetch) &&
      [0x08, 0x10].all (fun k => addrFieldOk (p.at b k 8) && loadAligned (p.at b k 8) 128)
  else true

/-! ## Layer groups (R278) -/

/-- The op at an index, with opcode and effective layer. -/
def opIs (ops : List RouteOp) (iters : Tab Nat) (i code layer : Nat) : Bool :=
  match ops[i]? with
  | some o => o.opcode == code && effLayer ops iters i == layer
  | none => false

/-- Op i is a SCORE with MODE 0. -/
def isForward (ops : List RouteOp) (i : Nat) : Bool :=
  match ops[i]? with
  | some o => o.opcode == opScore && opMode o == 0
  | none => false

/-- The SCORE op of the layer group that begins at op i; none where no layer group begins. -/
def groupScore (ops : List RouteOp) (i : Nat) : Option Nat :=
  if isForward ops i then some i
  else
    match ops[i]? with
    | some o => if o.opcode == opShadow && isForward ops (i + 1) then some (i + 1) else none
    | none => none

/-- The five or six ops of the group that begins at i stand in order with one effective layer. -/
def groupOk (p : Program) (iters : Tab Nat) (i : Nat) : Bool :=
  match groupScore p.ops i with
  | none => false
  | some k =>
    let l := effLayer p.ops iters i
    effLayer p.ops iters k == l && opIs p.ops iters (k + 1) opSelect l && opIs p.ops iters (k + 2) opSort l &&
    opIs p.ops iters (k + 3) opDispatch l && opIs p.ops iters (k + 4) opCombine l

/-- An op of a layer group agrees with the blocks before it: SELECT on E, DISPATCH on n. -/
def agreeOk (p : Program) (iters : Tab Nat) (i : Nat) (o : RouteOp) (b : Nat) : Bool :=
  if o.opcode == opSelect then p.sE (effParam p.ops iters (i - 1)) == p.kE b
  else if o.opcode == opDispatch then
    let k := effParam p.ops iters (i - 2)
    p.dN b == p.kE k + p.kShared k
  else true

/-! ## Walking a program (R283) -/

/-- What a walk of the executed ops has met. -/
structure Walk where
  op : Nat
  iters : Tab Nat
  steps : Nat
  layers : List Nat
  /-- ops of a layer group in progress that are still to come -/
  left : Nat
  top : Nat
  bad : Option Nat
  deriving DecidableEq, Repr, Inhabited

/-- One executed op of the walk: its own checks, and where the walk goes on. A group is passed as a whole. -/
def walkOp (p : Program) (w : Walk) : Walk :=
  match p.ops[w.op]? with
  | none => w
  | some o =>
    let b := effParam p.ops w.iters w.op
    let l := effLayer p.ops w.iters w.op
    let fits := decide (b + blockSize p o b ≤ p.params.length)
    let inGroup := [opSelect, opSort, opDispatch, opCombine].contains o.opcode ||
      (o.opcode == opScore && opMode o == 0) || o.opcode == opShadow
    let first := w.left == 0 && (groupScore p.ops w.op).isSome
    let bad :=
      l > 255 || !fits || !blockOk p o b || !loopsOk p.ops w.op || (inGroup && !first && w.left == 0) ||
      (w.left != 0 && !agreeOk p w.iters w.op o b) || (first && (!groupOk p w.iters w.op || w.layers.contains l))
    let tooMany := decide (w.steps + 1 > 65536)
    let n := nextOp p.ops w.iters w.op
    { op := n.1, iters := n.2, steps := w.steps + 1,
      layers := if first then l :: w.layers else w.layers
      left := if first then (groupScore p.ops w.op).getD 0 + 4 - w.op else w.left - 1
      top := max w.top l
      bad :=
        if tooMany then some (((loopsAround p.ops w.op).getLast?).getD w.op)
        else if bad then some w.op else none }

/-- Walks until the program ends or an op offends. -/
def walk (p : Program) : Nat → Walk → Walk
  | 0, w => w
  | k + 1, w =>
    if w.bad.isSome || decide (p.ops.length ≤ w.op) then w else walk p k (walkOp p w)

/-- Every executed op of a program: its index and the iterations it runs under, in execution order. -/
def runsOf (p : Program) : Nat → Nat → Tab Nat → List (Nat × Tab Nat)
  | 0, _, _ => []
  | k + 1, i, iters =>
    if p.ops.length ≤ i then []
    else
      let n := nextOp p.ops iters i
      (i, iters) :: runsOf p k n.1 n.2

/-- The executed ops of a loaded program. -/
def Program.runs (p : Program) : List (Nat × Tab Nat) := runsOf p 65537 0 []

/-! ## Images (R268, R270) -/

/-- The program an image holds. -/
def parseProgram (img : Bytes) : Program :=
  let nops := fieldAt img 8 2
  let plen := fieldAt img 0x10 4
  { ver := 0, place := 0, crc := BitVec.ofNat 32 (fieldAt img 0x3C 4), profiles := fieldAt img 7 1, nlayer := fieldAt img 0xA 2,
    d := fieldAt img 0xC 2, nlane := fieldAt img 0xE 2, stgTok := fieldAt img 0x14 4,
    ops := (List.range nops).map (fun i => (decodeOp (sliceBytes img (0x40 + 16 * i) 16)).1),
    params := sliceBytes img (0x40 + 16 * nops) plen }

/-- Bytes of an image by its header. -/
def imageLen (img : Bytes) : Nat := 64 + 16 * fieldAt img 8 2 + fieldAt img 0x10 4

/-- The image's CRC with its own field at 0 (R268). -/
def imageCrcOk (img : Bytes) : Bool :=
  crcN (putBytes img 0x3C [0, 0, 0, 0]) == fieldAt img 0x3C 4

/-- The header is acceptable (R268, R24, R69, R315); `frame` is FRAME of the Carousel extent. -/
def headerOk (img : Bytes) (frame : Nat) : Bool :=
  let d := fieldAt img 0xC 2
  let plen := fieldAt img 0x10 4
  fieldAt img 0 4 == 0x4D525053 && fieldAt img 4 2 == 1 && fieldAt img 6 1 == 3 && fieldAt img 7 1 < 8 &&
  decide (1 ≤ fieldAt img 8 2) && decide (fieldAt img 8 2 ≤ 4096) &&
  decide (1 ≤ fieldAt img 0xA 2) && decide (fieldAt img 0xA 2 ≤ 256) &&
  d % 64 == 0 && decide (64 ≤ d) && decide (d ≤ 16384) && decide (10 * d ≤ frame) &&
  decide (1 ≤ fieldAt img 0xE 2) && decide (fieldAt img 0xE 2 ≤ 128) &&
  plen % 16 == 0 && decide (plen ≤ 1048576) && fieldAt img 0x18 36 == 0

/-- The first op, in op order, whose own bits offend. -/
def badOpBits (img : Bytes) (nops : Nat) : Option Nat :=
  (List.range nops).find? (fun i =>
    let r := decodeOp (sliceBytes img (0x40 + 16 * i) 16)
    !(r.2 && decide (1 ≤ r.1.opcode) && decide (r.1.opcode ≤ 14) && opSpecOk r.1 && opFlagsOk r.1))

/-- The lower of two op indexes (R310). -/
def firstOf (a b : Option Nat) : Option Nat :=
  match a, b with
  | some i, some j => some (min i j)
  | a, none => a
  | none, b => b

/-- Checks an image: the program, or the ERROP of the refusal (R270, R283, R310). -/
def checkImage (img : Bytes) (frame : Nat) : Program ⊕ Nat :=
  if !headerOk img frame || !imageCrcOk img then .inr 0xFFFF
  else
    let p := parseProgram img
    let w := walk p 65538 { op := 0, iters := [], steps := 0, layers := [], left := 0, top := 0, bad := none }
    match firstOf (badOpBits img (fieldAt img 8 2)) w.bad with
    | some i => .inr i
    | none => if p.nlayer != w.top + 1 || leNat (p.params.take 16) != 0 then .inr 0xFFFF else .inl p

/-! ## Shadow tables (R229) -/

/-- Entry e of a shadow table in HBM: RANK, WFMT, ADDR, and whether it is acceptable. -/
def State.shadowEntry (s : State) (table e : Nat) : Nat × Nat × Nat × Bool :=
  let bs := s.hbmRead (table + 16 * e) 16
  let r := fieldAt bs 0 2
  let a := fieldAt bs 8 8
  (r, fieldAt bs 2 1, a,
   (r == 0 || (r % 8 == 0 && decide (32 ≤ r) && decide (r ≤ 512))) && fieldAt bs 2 1 ≤ 1 && fieldAt bs 3 5 == 0 &&
     (r == 0 || (a % 128 == 0 && a < 2 ^ 48)))

/-- The SHADOW ops of a program: op index, effective parameter block, E of the layer. -/
def Program.shadowOps (p : Program) : List (Nat × Nat × Nat) :=
  p.runs.filterMap (fun r =>
    match p.ops[r.1]? with
    | some o =>
      if o.opcode == opShadow then
        some (r.1, effParam p.ops r.2 r.1, p.sE (effParam p.ops r.2 (r.1 + 1))) else none
    | none => none)

/-- The first SHADOW op whose table, named with BSEL 0, holds an entry R229 refuses. -/
def State.badShadowTable (s : State) (p : Program) : Option Nat :=
  (p.shadowOps.find? (fun t =>
    let v := p.at t.2.1 0 8
    fld v 50 48 == 0 && (s.hbmPoisoned (fld v 47 0) (16 * t.2.2) ||
      !((List.range t.2.2).all (fun e => (s.shadowEntry (fld v 47 0) e).2.2.2))))).map (·.1)

/-! ## Save requirement (R513) -/

/-- Slot reservation of a program: the largest SLOT_RES among its COMBINE ops (R192). -/
def Program.slotRes (p : Program) : Nat :=
  p.runs.foldl (fun m r =>
    match p.ops[r.1]? with
    | some o => if o.opcode == opCombine then max m (p.cSlotRes (effParam p.ops r.2 r.1)) else m
    | none => m) 0

/-- E of the layer group that holds an executed op; 0 outside a group. -/
def Program.opE (p : Program) (r : Nat × Tab Nat) : Nat :=
  match (List.range 6).find? (fun k =>
    decide (k ≤ r.1) && (match groupScore p.ops (r.1 - k) with
      | some j => decide (r.1 ≤ j + 4)
      | none => false)) with
  | some k =>
    match groupScore p.ops (r.1 - k) with
    | some j => p.sE (effParam p.ops r.2 j)
    | none => 0
  | none => 0

/-- Bytes of a saved slot of width d, to a multiple of 64 (R221, R513). -/
def slotRecord (d : Nat) : Nat := (128 + d / 32 + 10 * d + 63) / 64 * 64

/-- Bytes that an op's LIVE classes reserve (R513); an op outside a layer group counts the program's largest E
(DEDUCED, log 28). -/
def Program.saveAt (p : Program) (bigE res : Nat) (r : Nat × Tab Nat) : Nat :=
  match p.ops[r.1]? with
  | some o =>
    let e := if p.opE r == 0 then bigE else p.opE r
    4096 + (if bitAt o.live 0 then 64 + 4 * e else 0) + (if bitAt o.live 1 then res * slotRecord p.d else 0) +
      (if bitAt o.live 2 then 32 * p.nlane else 0) + (if bitAt o.live 3 then 128 * res else 0)
  | none => 0

/-- The save requirement of a program, in units of 4 KiB (R513). -/
def Program.saveReq (p : Program) : Nat :=
  let bigE := p.runs.foldl (fun m r => max m (p.opE r)) 0
  (p.runs.foldl (fun m r => max m (p.saveAt bigE p.slotRes r)) 4096 + 4095) / 4096

/-- The newest loaded version of a program ID. -/
def State.newest (s : State) (prog : Nat) : Option Program := (tabGet [] s.rgm.store prog).head?

/-- Save requirement of a context's program, in 4 KiB units (R513). -/
def State.saveNeed (s : State) (x : Nat) : Nat :=
  (s.newest (s.f (aCtxCfg x) 15 8)).elim 0 Program.saveReq

end Sys2Proof.Machine
end

