-- ==== Sys2Proof/Machine/Operands.lean ====
section
/-! DEFINITION. Operand forms: token handles (R5), lane header flits (R154), Nalmal headers (R367), and how a packet
leaves on a port (R365, R366, R375, R386). -/

namespace Sys2Proof.Machine

/-! ## Token handles (R5, R6) -/

/-- A token handle, bits [3:0] at 0. -/
def handleFor (origin index layer : Nat) : Nat := origin <<< 34 + index <<< 12 + layer <<< 4

/-- A received handle with its reserved bits ignored (R6). -/
def cleanHandle (h : Nat) : Nat := (h >>> 4) <<< 4

def handleOrigin (h : Nat) : Nat := fld h 47 34
def handleIdx (h : Nat) : Nat := fld h 33 12
def handleLayer (h : Nat) : Nat := fld h 11 4

/-! ## Lane headers (R154 to R156) -/

/-- The 32 bytes of a header flit. -/
def flitBytes (h : BitVec 256) : Bytes := natLe 32 h.toNat

/-- A header with its HCRC written (R156). -/
def sealFlit (w : Nat) : BitVec 256 :=
  let c := crc16 (natLe 30 w)
  BitVec.ofNat 256 (w % 2 ^ 240 + c.toNat <<< 240)

/-- The HCRC of a header matches (R156). -/
def flitOk (h : BitVec 256) : Bool := (crc16 (natLe 30 h.toNat)).toNat == fld h.toNat 255 240

/-- A dispatch header (R154): TOKEN (kind 1) or CLOSE (kind 2). -/
def dispatchFlit (kind partialBit handle expert gate slot fmt ctx nfl d64 step bseq : Nat) : BitVec 256 :=
  sealFlit (kind + partialBit <<< 5 + handle <<< 8 + expert <<< 56 + gate <<< 72 + slot <<< 88 + fmt <<< 104 +
    ctx <<< 112 + nfl <<< 128 + d64 <<< 144 + (step % 2 ^ 32) <<< 160 + (bseq % 2 ^ 32) <<< 192)

/-- A header with VOID set, and its HCRC anew (R163). -/
def voidFlit (h : BitVec 256) : BitVec 256 := sealFlit (withFld h.toNat 4 4 1)

def hdrKind (h : BitVec 256) : Nat := fld h.toNat 3 0
def hdrHandle (h : BitVec 256) : Nat := cleanHandle (fld h.toNat 55 8)
def hdrExpert (h : BitVec 256) : Nat := fld h.toNat 66 56
def hdrGate (h : BitVec 256) : Nat := fld h.toNat 87 72
def hdrSlot (h : BitVec 256) : Nat := fld h.toNat 102 88
def hdrFmt (h : BitVec 256) : Nat := fld h.toNat 107 104
def hdrCtx (h : BitVec 256) : Nat := fld h.toNat 123 112
def hdrNline (h : BitVec 256) : Nat := fld h.toNat 137 128
def hdrOffset (h : BitVec 256) : Nat := fld h.toNat 157 144
def hdrBseq (h : BitVec 256) : Nat := fld h.toNat 223 192
def hdrStep (h : BitVec 256) : Nat := fld h.toNat 191 160

/-! ## Nalmal headers (R367) -/

/-- A header: VC, OPCODE, SRC, DST, CONTEXT, LEN, POISON, RI, ADDR, TAG, STAT. GEN, TC and CMB are the port's. -/
def nalHdr (vc op src dst ctx len poison ri addr tag stat : Nat) : BitVec 128 :=
  BitVec.ofNat 128 (vc <<< 2 + op <<< 5 + src <<< 11 + dst <<< 25 + ctx <<< 39 + len <<< 51 + poison <<< 54 +
    ri <<< 57 + addr <<< 58 + tag <<< 106 + stat <<< 123)

def pGen (p : Packet) : Nat := fld p.hdr.toNat 1 0
def pVc (p : Packet) : Nat := fld p.hdr.toNat 4 2
def pOp (p : Packet) : Nat := fld p.hdr.toNat 10 5
def pSrc (p : Packet) : Nat := fld p.hdr.toNat 24 11
def pDst (p : Packet) : Nat := fld p.hdr.toNat 38 25
def pCtx (p : Packet) : Nat := fld p.hdr.toNat 50 39
def pLen (p : Packet) : Nat := fld p.hdr.toNat 53 51
def pPoison (p : Packet) : Bool := bitAt p.hdr.toNat 54
def pTc (p : Packet) : Bool := bitAt p.hdr.toNat 55
def pRi (p : Packet) : Bool := bitAt p.hdr.toNat 57
def pAddr (p : Packet) : Nat := fld p.hdr.toNat 105 58
def pTag (p : Packet) : Nat := fld p.hdr.toNat 122 106
def pStat (p : Packet) : Nat := fld p.hdr.toNat 126 123

/-- Bytes of a packet, header included. -/
def pBytes (p : Packet) : Nat := 16 + p.data.length

/-- Channels and lengths an opcode allows (R368, R425, R469, R544, R566): (VC, least LEN, most LEN); none for a
reserved opcode. -/
def opShape (op : Nat) : Option (Nat × Nat × Nat) :=
  if op == 0x01 then some (1, 0, 0)
  else if op == 0x02 then some (1, 1, 1)
  else if op == 0x03 then some (1, 2, 2)
  else if 0x08 ≤ op && op ≤ 0x10 then some (1, 1, 1)
  else if op == 0x18 then some (6, 1, 4)
  else if op == 0x19 then some (6, 0, 0)
  else if op == 0x20 then some (2, 0, 4)
  else if op == 0x21 then some (2, 0, 0)
  else if op == 0x28 then some (3, 1, 1)
  else if op == 0x29 then some (3, 1, 4)
  else if op == 0x2A then some (3, 0, 0)
  else if op == 0x2C then some (4, 1, 4)
  else if op == 0x2D then some (4, 0, 0)
  else if op == 0x30 || op == 0x31 then some (5, 2, 4)
  else if 0x32 ≤ op && op ≤ 0x34 then some (5, 0, 0)
  else if op == 0x38 then some (7, 1, 4)
  else if op == 0x39 then some (7, 0, 1)
  else if op == 0x3A then some (0, 0, 0)
  else if op == 0x3C then some (0, 0, 1)
  else if op == 0x3D then some (0, 0, 0)
  else if op == 0x3E then some (0, 1, 1)
  else if op == 0x3F then some (0, 0, 0)
  else if op == 0x3B then some (7, 1, 4)
  else none

/-! ## Ports -/

/-- The engine's own chip ID (R361). -/
def State.chip (s : State) : Nat := s.f aMsfChip 13 0

/-- Link state of a port (R407): 2 is up. -/
def State.link (s : State) (n : Nat) : Nat := s.f (aFabState n) 1 0

/-- Generation of a port (R364). -/
def State.gen (s : State) (n : Nat) : Nat := s.f (aFabState n) 3 2

/-- A port is in service: its link is up and no request to leave stands (R378, R407). -/
def State.portIn (s : State) (n : Nat) : Bool := decide (n < 16) && s.link n == 2 && !s.flag (aFabState n) 8

/-- The ports in service, ascending. -/
def State.portsIn (s : State) : List Nat := (List.range 16).filter s.portIn

/-- Whether a port can carry a packet (R365). -/
def State.carries (s : State) (n src dst vc : Nat) : Bool :=
  s.gen n != 1 || (decide (src ≤ 1023) && decide (dst ≤ 1023) && vc != 5)

/-- The port a hash picks among those of the mapping in force that can carry the packet (R375); none when no port
can (R365). The key is 0 while PKEYZ reads 1 (R376). -/
def State.pickPort (s : State) (x : Nat) (src dst vc : Nat) : Option Nat :=
  let ports := s.fab.map.filter (fun n => s.portIn n && s.carries n src dst vc)
  if ports.isEmpty then none
  else
    let h := (mix ((if s.flag aMsfCtrl 8 then 0 else s.fab.pkey) ^^^ word x)).toNat
    ports[((h >>> 32) * ports.length) >>> 32]?

/-- Some step of a context in flight has its timing-choice bit set. -/
def State.ctxTchoice (s : State) (x : Nat) : Bool := s.rgm.steps.any (fun t => t.desc.ctx == x && t.tchoice)

/-- A packet as a port sends it: GEN, TC on N3, CMB on N1 (R364, R366, R386). -/
def State.dress (s : State) (n : Nat) (p : Packet) : Packet :=
  let g := s.gen n
  let h := withFld p.hdr.toNat 1 0 g
  let h := withFld h 55 55 (bit (g == 3 && s.ctxTchoice (pCtx p)))
  let op := fld h 10 5
  let h := withFld h 56 56 (bit (g == 1 && (op == 0x01 || op == 0x08 || op == 0x09)))
  { p with hdr := BitVec.ofNat 128 h }

/-- The engine may send a packet: a halted engine sends only VC0 time-base packets (R605), one with an open debug
lock those and ATTEST (R677), a fenced one nothing (R579). -/
def State.maySend (s : State) (p : Packet) : Bool :=
  !(s.f aTwnState 2 0 == 5) && (pOp p == 0x3D || (!s.pwr.halted &&
    (s.flag aSecStat 2 || (pOp p == 0x3C && pAddr p % 256 == 0x20))))

/-- State of a context (R493). -/
def State.ctxState (s : State) (x : Nat) : Nat := s.f (aCtxCmd x) 2 0

/-- Adds to an ACC register of a context; those of a FREE context keep their values (R510). -/
def State.accAdd (s : State) (a : Nat → Nat) (x n : Nat) : State :=
  if s.ctxState x == 0 then s else s.addCtr (a x) n

/-- Hands a packet to a port's link (R410, R507); nothing where the port cannot carry it (R365). -/
def State.sendOn (s : State) (n : Nat) (p : Packet) : State :=
  if !s.maySend p || !s.carries n (pSrc p) (pDst p) (pVc p) then s
  else
    let p := s.dress n p
    let s := (s.bump (aFabCntTxpkt n)).addCtr (aFabCntTxbyte n) (pBytes p)
    let s := s.accAdd aAccFabTx (pCtx p) (pBytes p)
    { s with fab := { s.fab with out := s.fab.out ++ [(n, p)] } }

/-- Sends a packet that no hash places on a port, or, where that port cannot carry it, on the lowest in service that can
(R365). -/
def State.sendVia (s : State) (ports : List Nat) (p : Packet) : State :=
  match ports.find? (fun n => s.carries n (pSrc p) (pDst p) (pVc p)) with
  | some n => s.sendOn n p
  | none => s

/-- Sends a packet on the port a hash picks; `none` when no in-service port can carry it (R365). -/
def State.sendHash (s : State) (x : Nat) (p : Packet) : Option (Nat × State) :=
  match s.pickPort x (pSrc p) (pDst p) (pVc p) with
  | none => none
  | some n => some (n, s.sendOn n p)

/-- The attention bits of a reply formed now, with an outcome (R685). -/
def State.stat (s : State) (outcome : Nat) : Nat := outcome + 4 * s.f aAtnCause 35 34

/-- Context default: nothing held. -/
def ctx0 : Ctx :=
  { chain := 0, place := none, placeBufs := [], placeRaw := [], weightBufs := [], shadows := [], routers := [], weightsOf := none, parkAt := none, parkCut := false,
    live := 0, saved := none, ckpt := none, assumed := false, leaving := [], lastStep := none }

def State.ctx (s : State) (x : Nat) : Ctx := tabGet ctx0 s.ctxs x
def State.setCtx (s : State) (x : Nat) (c : Ctx) : State := { s with ctxs := tabSet ctx0 s.ctxs x c }

/-- Profile of a context: 0 Train, 1 Serve, 2 Audit. -/
def State.profile (s : State) (x : Nat) : Nat := s.f (aCtxCfg x) 1 0

/-- Host-memory bytes moved for a context (R507). -/
def State.chargeHbm (s : State) (x n : Nat) : State := s.accAdd aAccHbm (x % 4096) n

/-- Stack bytes moved for a context (R507). -/
def State.chargeStk (s : State) (x n : Nat) : State := s.accAdd aAccStk (x % 4096) n

end Sys2Proof.Machine
end

