-- ==== Sys2Proof/Machine/Links.lean ====
section
/-! DEFINITION. What several units do on the fabric: packets that are kept until delivered (R430, R431), messages to
the fabric manager (R574), the sender's window and ownership checks (R393 to R399), and arrival counters (R389). -/

namespace Sys2Proof.Machine

/-! ## Kept packets -/

/-- The number R430 hashes for a ring, collective or Trapeze packet. -/
def keptHash (p : Packet) : Nat := (((pDst p) <<< 50) ^^^ ((pTag p) <<< 33) ^^^ pAddr p) % 2 ^ 64

/-- Sends a packet that is kept until its delivery is reported (R431, R473, R565). Where no port can carry it, or the
mapping is changing (R378), it is held. -/
def State.sendKept (s : State) (p : Packet) : State :=
  let hold := { s with fab := { s.fab with held := s.fab.held ++ [(0, p)] } }
  if s.fab.remap then hold
  else
    match s.pickPort (keptHash p) (pSrc p) (pDst p) (pVc p) with
    | none => hold
    | some n =>
      let s := s.sendOn n p
      { s with fab := { s.fab with kept := s.fab.kept ++ [(n, s.dress n p)] } }

/-- The chip ID a context sends with: its assumed one after an adoption (R578). -/
def State.srcOf (s : State) (x : Nat) : Nat := if (s.ctx x).assumed then s.f aTwnState 29 16 else s.chip

/-- A chip ID is this engine's: its own, or the one it has assumed (R400, R578). -/
def State.isMine (s : State) (c : Nat) : Bool := c == s.chip || (s.flag aTwnState 30 && c == s.f aTwnState 29 16)

/-- Sends an FM message (R368, R574): ADDR holds kind, chip concerned and survivor. It leaves on the lowest port in
service that can carry it; the manager's ID is sent as 0 (DESIGN CHOICE, log 20). -/
def State.fmSend (s : State) (kind chip survivor ctx : Nat) (data : Bytes) : State :=
  s.sendVia s.portsIn
    ⟨nalHdr 0 0x3C s.chip 0 ctx (data.length / 128) 0 0 (kind + chip <<< 8 + survivor <<< 22) 0 0, data⟩

/-! ## Windows and ownership (R393 to R399, R762) -/

/-- Why a sender's check refuses. -/
inductive CheckFail where
  | window | owner
  deriving DecidableEq, Repr, Inhabited

/-- Permission bits of a window entry's third word (R393). -/
def permRd : Nat := 0
def permWr : Nat := 1
def permAt : Nat := 2
def permCsrc : Nat := 3
def permCdst : Nat := 4

/-- Window entry i of a context covers n bytes from a rack address with a permission (R393, R394). -/
def State.windowCovers (s : State) (x i rack lo n perm : Nat) : Bool :=
  let a := s.f aMsfWinBase 47 0 + x * 0x200 + 32 * i
  let w := s.hbmNat a 8
  let size := fld (s.hbmNat (a + 8) 8) 47 0
  bitAt w 63 && bitAt (s.hbmNat (a + 16) 8) perm && fld w 54 48 == rack && decide (fld w 47 0 ≤ lo) &&
    decide (lo + n ≤ fld w 47 0 + size)

/-- Looks through the windows in order; a poisoned entry ends the search with a refusal (R762). -/
def State.windowSearch (s : State) (x rack lo n perm : Nat) : Nat → Nat → Bool
  | 0, _ => false
  | k + 1, i =>
    if s.hbmPoisoned (s.f aMsfWinBase 47 0 + x * 0x200 + 32 * i) 32 then false
    else if s.windowCovers x i rack lo n perm then true else s.windowSearch x rack lo n perm k (i + 1)

/-- The window check (R394). -/
def State.windowOk (s : State) (x rack lo n perm : Nat) : Bool := s.windowSearch x rack lo n perm 16 0

/-- The entry of a region in the ownership table: (OWNER, OCTX, MODE); `none` where a poisoned entry is read (R762).
The table is searched by halving between lo and hi. -/
def State.ownSearch (s : State) (region : Nat) : Nat → Nat → Nat → Option (Option (Nat × Nat × Nat))
  | 0, _, _ => some none
  | k + 1, lo, hi =>
    if hi ≤ lo then some none
    else
      let m := (lo + hi) / 2
      let a := s.f aMsfOwnBase 47 0 + 8 * m
      let w := s.hbmNat a 8
      if s.hbmPoisoned a 8 then none
      else if fld w 24 0 == region then some (some (fld w 31 25, fld w 43 32, fld w 45 44))
      else if fld w 24 0 < region then s.ownSearch region k (m + 1) hi else s.ownSearch region k lo m

/-- The entry of a region as the ownership cache holds it, or else as the table does (R396). -/
def State.ownEntry (s : State) (region : Nat) : Option (Option (Nat × Nat × Nat)) :=
  match s.fab.ownCache.find? (fun e => e.1 == region) with
  | some (_, w) => some (some (fld w 31 25, fld w 43 32, fld w 45 44))
  | none => s.ownSearch region 22 0 (s.f aMsfOwnCount 20 0)

/-- Whether a context of this engine may write a region (R395). -/
def State.regionOk (s : State) (x region : Nat) : Bool :=
  match s.ownEntry region with
  | none => false
  | some none => (region >>> 18) == s.srcOf x % 128
  | some (some (o, c, m)) => m == 1 && o == s.srcOf x % 128 && c == x

/-- The regions that n bytes from a rack address lie in. -/
def regionsOf (lo n : Nat) : List Nat := (List.range ((lo + n - 1) / 2 ^ 21 - lo / 2 ^ 21 + 1)).map (lo / 2 ^ 21 + ·)

/-- The ownership check of n bytes from a rack address of the own rack. -/
def State.ownOk (s : State) (x lo n : Nat) : Bool := (regionsOf lo n).all (fun r => s.regionOk x r)

/-- Puts a table entry into the ownership cache; the oldest of 4,096 makes room (R396; DESIGN CHOICE, log 105). -/
def State.ownFill (s : State) (region entry : Nat) : State :=
  let held := s.fab.ownCache.filter (fun e => e.1 != region)
  { s with fab := { s.fab with ownCache := held.drop (held.length - 4095) ++ [(region, entry)] } }

/-- What an ownership check of n bytes leaves in the cache: the entries it found in the table (R396). -/
def State.ownNote (s : State) (lo n : Nat) : State :=
  (regionsOf lo n).foldl (fun s r =>
    if s.fab.ownCache.any (fun e => e.1 == r) then s
    else
      match s.ownSearch r 22 0 (s.f aMsfOwnCount 20 0) with
      | some (some (o, c, m)) => s.ownFill r (r + o <<< 25 + c <<< 32 + m <<< 44)
      | _ => s) s

/-- Rack address of a byte of this chip's HBM (R362). -/
def State.rackAddr (s : State) (a : Nat) : Nat := (s.chip % 128) <<< 39 + a % 2 ^ 39

/-- The check of an access to n bytes at a rack address of the own rack; `own` where ownership is checked too. -/
def State.checkAccess (s : State) (x lo n perm : Nat) (own : Bool) : Option CheckFail :=
  if !s.windowOk x (s.chip / 128) lo n perm then some .window
  else if own && !s.ownOk x lo n then some .owner else none

/-- The check of n bytes of this chip's HBM. -/
def State.checkLocal (s : State) (x a n perm : Nat) (own : Bool) : Option CheckFail :=
  if 2 ^ 39 < a + n then some .window else s.checkAccess x (s.rackAddr a) n perm own

/-- A refused access: counted, its error bit set, notice raised (R399). -/
def State.checkRefused (s : State) (c : CheckFail) : State :=
  (s.bump aMsfCntRefuse).errBit aMsfErr (if c = .window then 0 else 1) cMsfRefuse

/-! ## Arrival counters (R389) -/

/-- Adds to an arrival counter. -/
def State.countUp (s : State) (c n : Nat) : State := s.addCtr (aCtr (c % 65536)) n

/-! ## The twin's view (R552, R568) -/

/-- Trapeze state. -/
def State.twinState (s : State) : Nat := s.f aTwnState 2 0

/-- A twin is attached (R552). -/
def State.attached (s : State) : Bool := s.twinState == 2 || s.twinState == 3

/-- The twin's chip ID (R551). -/
def State.twin (s : State) : Nat := s.f aTwnCtrl 13 0

/-- A control packet to the twin (R565, R566). -/
def State.tctl (s : State) (dst kind xid ctx : Nat) (data : Bytes) : State :=
  s.sendKept ⟨nalHdr 7 0x39 s.chip dst ctx (data.length / 128) 0 0 kind xid 0, data⟩

/-- Bytes padded with zeros to a whole line. -/
def padLine (bs : Bytes) : Bytes := bs ++ List.replicate ((128 - bs.length % 128) % 128) 0

/-- The packets of a transfer: BEGIN, its lines in fours, END (R566, R567). -/
def State.sendTransfer (s : State) (t : XferOut) : State :=
  let body := natLe 1 (bit t.ckpt) ++ [0] ++ natLe 2 t.ctx ++ natLe 4 t.data.length ++ natLe 4 (crcN t.data) ++
    natLe 4 0 ++ natLe 8 t.step.toNat
  let s := s.tctl s.twin 4 t.xid t.ctx (padLine body)
  let lines := padLine t.data
  let s := (List.range ((lines.length + 511) / 512)).foldl (fun s i =>
    let d := (lines.drop (512 * i)).take 512
    let p := (List.range 4).any (fun k => t.bad.contains (4 * i + k))
    s.sendKept ⟨nalHdr 7 0x38 s.chip s.twin t.ctx (d.length / 128) (bit p) 0 (512 * i) t.xid 0, d⟩) s
  s.tctl s.twin 5 t.xid t.ctx []

/-- Starts every transfer that may be outstanding: one delta and one checkpoint at a time, each kind in order (R567).-/
def State.pumpTwin (s : State) : State :=
  [false, true].foldl (fun s ck =>
    match s.twn.out.find? (fun t => t.ckpt == ck) with
    | some t =>
      if t.sent then s
      else
        let s := { s with twn := { s.twn with
          out := s.twn.out.map (fun (u : XferOut) => if u.xid == t.xid then { u with sent := true } else u) } }
        s.sendTransfer t
    | none => s) s

/-- Queues a transfer under the next XID (R567). -/
def State.queueTransfer (s : State) (ckpt : Bool) (x : Nat) (step : Word) (data : Bytes) (bad : List Nat)
    (cctr : Option Nat) : State :=
  let t : XferOut := {
    xid := s.twn.xid, ckpt := ckpt, ctx := x, step := step, data := data, bad := bad, sent := false, resent := 0, cctr := cctr }
  ({ s with twn := { s.twn with out := s.twn.out ++ [t], xid := (s.twn.xid + 1) % 2 ^ 17 } }).pumpTwin

end Sys2Proof.Machine
end

