-- ==== Sys2Proof/Machine/Records.lean ====
section
/-! DEFINITION. Waymark records (R528 to R535), lock-step freezes (R537 to R544) and state deltas (R568, R569). -/

namespace Sys2Proof.Machine

/-! ## Steps by context and counter -/

/-- A step is the one a context and STEP name. -/
def Step.is (t : Step) (x : Nat) (step : Word) : Bool := t.desc.ctx == x && t.desc.step == step

/-- The running step of a context. -/
def State.running (s : State) (x : Nat) : Option Step :=
  s.rgm.steps.find? (fun t => t.desc.ctx == x && t.phase == .running)

/-- Replaces a step. -/
def State.setStep (s : State) (t : Step) : State :=
  { s with rgm := { s.rgm with steps := s.rgm.steps.map (fun u => if u.is t.desc.ctx t.desc.step then t else u) } }

/-- The step a context and STEP name, when it is not COMPLETE. -/
def State.stepOf (s : State) (x : Nat) (step : Word) : Option Step := s.rgm.steps.find? (fun t => t.is x step)

/-- Changes a step, where it exists. -/
def State.modStep (s : State) (x : Nat) (step : Word) (f : Step → Step) : State :=
  { s with rgm := { s.rgm with steps := s.rgm.steps.map (fun u => if u.is x step then f u else u) } }

/-- Retries of any kind, link, residue or ECC, touch a step: its outcome becomes 1 and its record counts them (R307,
R528). -/
def State.noteRetry (s : State) (x : Nat) (step : Word) (n : Nat) : State :=
  if n == 0 then s else s.modStep x step (fun t => { t with retry := true, retries := t.retries + n })

/-! ## Records (R528 to R533) -/

/-- Seed of a step (R107). -/
def stepSeed (seed step : Word) : Word := mix (seed ^^^ mix step)

/-- Word 8 of a record: PASS, LAYER, LEVEL, TCHOICE, OVF, POISON. -/
def Step.recWord8 (t : Step) (layer : Nat) : Word :=
  word (t.desc.pass + (layer % 256) <<< 16 + t.level <<< 24 + (bit t.tchoice) <<< 27 + (bit t.ovf) <<< 28 +
    (bit t.poison) <<< 29)

/-- Words 0 to 8 of a final or intermediate record. -/
def Step.recWords (t : Step) (kind : Nat) : List Word :=
  let u := t.sums
  [word (kind + 0x100 + 3 <<< 16 + t.prog.crc.toNat <<< 32), t.desc.step, t.desc.seed,
    stepSeed t.desc.seed t.desc.step, u.digest, word (u.tokens + u.exited <<< 32), word (u.choices + u.shadowed <<< 32),
    word (u.dropped + u.moved <<< 32), t.recWord8 u.layer]

/-- Words 0 to 8 of a mismatch record: the same, with the digest 0 and the place of the difference (R541). -/
def Step.mismatchWords (t : Step) (stage layer lane lo hi : Nat) : List Word :=
  [word (3 + 0x100 + 3 <<< 16 + t.prog.crc.toNat <<< 32), t.desc.step, t.desc.seed,
    stepSeed t.desc.seed t.desc.step, 0, word (lo + hi <<< 32), word (stage + lane <<< 8), 0, t.recWord8 layer]

/-- The chain after a final record's words (R531). -/
def chainOver (c : Word) (ws : List Word) : Word := ws.foldl (fun c w => mix (c ^^^ w)) c

/-- Forms a record from its first nine words and CHAIN: its 128 bytes, and the state that has numbered it and queued
it for the HBM ring (R528, R533). -/
def State.formRecord (s : State) (x : Nat) (t : Step) (ws : List Word) (chain : Word) : Bytes × State :=
  let epoch := t.place.elim 0 (·.epoch)
  let b := (ws ++ [s.reg (aAccTchoice x),
    word (x + s.profile x <<< 12 + s.chip <<< 16 + epoch <<< 32), s.way.wseq, word s.tb, chain,
    word (t.retries % 2 ^ 32 + (t.stretches % 2 ^ 32) <<< 32)]).flatMap (fun w => natLe 8 w.toNat) ++ natLe 4 0
  let b := b ++ natLe 4 (crcN b)
  let s := { s with way := { s.way with wseq := s.way.wseq + 1 } }
  let s := s.bump aWayCntRec
  (b, if s.f aWayRing 47 0 == 0 then s
      else { s with way := { s.way with ring := s.way.ring ++ [(x, t.desc.step, b)] } })

/-- Forms the final record of a step and advances its context's chain (R531). -/
def State.formFinal (s : State) (t : Step) : Bytes × State :=
  let x := t.desc.ctx
  let ws := t.recWords 1
  let c := chainOver (s.ctx x).chain ws
  let r := s.formRecord x t ws c
  (r.1, r.2.setCtx x { r.2.ctx x with chain := c })

/-- Whether the HBM ring is full (R533): full it stays while overwriting (R534), since only software moves WAY_RPTR
(DEDUCED, log 39). -/
def State.ringFull (s : State) : Bool :=
  decide (2 ^ s.f aWayRing 52 48 ≤ (s.reg aWayWptr - s.reg aWayRptr).toNat)

/-- Writes a record at its place in the HBM ring (R533, R534). -/
def State.ringWrite (s : State) (x : Nat) (b : Bytes) : State :=
  let full := s.ringFull
  let at_ := s.f aWayRing 47 0 + 128 * (s.regN aWayWptr % 2 ^ s.f aWayRing 52 48)
  let s := (s.hbmWrite at_ b).chargeHbm x 128
  let s := s.bump aWayWptr
  if full then ((s.bump aWayCntOverwrite).setBit aWayErr 0).raise cWayOverwrite else s

/-- Puts a record into the flash log queue, or leaves it out (R535). -/
def State.recordToFlash (s : State) (b : Bytes) (mismatch : Bool) : State :=
  match s.queueFlash b mismatch with
  | some s' => s'
  | none => ((s.bump aWayCntFlashdrop).setBit aWayErr 1).raise cWayFlash

/-! ## Lock-step (R537 to R544) -/

/-- A lock-step entry that compares nothing. -/
def ls0 : LsEntry :=
  { mine := none, early := [], tiles := [], lanes := [], enter := [], peerTiles := [], peerLanes := [], stage := none, step := 0 }

def State.ls (s : State) (i : Nat) : LsEntry := tabGet ls0 s.way.ls i
def State.setLs (s : State) (i : Nat) (e : LsEntry) : State :=
  { s with way := { s.way with ls := tabSet ls0 s.way.ls i e } }

/-- State of an entry: 0 off, 1 comparing, 2 frozen (R550). -/
def State.lsState (s : State) (i : Nat) : Nat := s.f (aWayLsCfg i) 34 33

/-- The entry that names a local context (R537). -/
def State.lsOf (s : State) (x : Nat) : Option Nat :=
  (List.range 16).find? (fun i => s.flag (aWayLsCfg i) 32 && s.f (aWayLsCfg i) 11 0 == x)

/-- An LSCMP packet (R544). -/
def State.lsSend (s : State) (x : Nat) (step : Word) (layer kind stage first count : Nat) (body : Bytes) : State :=
  let d := natLe 1 kind ++ natLe 1 stage ++ natLe 2 first ++ natLe 2 count ++ [0, 0] ++ natLe 8 step.toNat ++ body
  let len := if kind == 0 || kind == 3 then 128 else 512
  let d := d ++ List.replicate (len - d.length) 0
  s.sendKept ⟨nalHdr 7 0x3B (s.srcOf x) s.twin x (len / 128) 0 0 (step.toNat % 2 ^ 40 + layer <<< 40) 0 0, d⟩

/-- A step that stands for a context with none: what a mismatch record holds outside any step (log 21). -/
def State.lsStep (s : State) (x : Nat) : Step :=
  (s.running x).getD { (default : Step) with desc := { (default : Desc) with ctx := x } }

/-- Freezes an entry and its context's running step (R541 to R543). -/
def State.lsMark (s : State) (i : Nat) : State :=
  let s1 := s.setF (aWayLsCfg i) 34 33 2
  match s.running (s.f (aWayLsCfg i) 11 0) with
  | some u => s1.setStep { u with frozen := true }
  | none => s1

/-- Fills an entry's mismatch fields, writes the mismatch record and raises WAY_LS (R541). -/
def State.lsFill (s : State) (i stage layer lane lo hi : Nat) : State :=
  let x := s.f (aWayLsCfg i) 11 0
  let s := s.setReg (aWayLsMm i) (word (layer % 256 + stage <<< 8 + lane <<< 16))
  let s := s.setReg (aWayLsTok i) (word (lo + hi <<< 32))
  let t := s.lsStep x
  let r := s.formRecord x t (t.mismatchWords stage layer lane lo hi) (s.ctx x).chain
  (r.2.recordToFlash r.1 true).errBit aWayErr 2 cWayLs

/-- Freezes an entry that still compares, with its mismatch fields (R541, R543). -/
def State.lsFreeze (s : State) (i stage layer lane lo hi : Nat) : State :=
  if s.lsState i != 1 then s else (s.lsMark i).lsFill i stage layer lane lo hi

/-- The layer in progress of a context's running step. -/
def State.layerNow (s : State) (x : Nat) : Nat :=
  match s.running x with
  | some t => t.group.elim t.sums.layer (·.layer)
  | none => 0xFF

/-- A freeze without a digest difference behind it (R543); `tell` sends the twin a KIND 3 packet. -/
def State.lsStop (s : State) (i stage : Nat) (tell : Bool) : State :=
  if s.lsState i != 1 then s
  else
    let x := s.f (aWayLsCfg i) 11 0
    let layer := s.layerNow x
    let step := (s.lsStep x).desc.step
    let s := s.lsFreeze i stage layer 0xFF 0 0x3FFFFF
    if tell then s.lsSend x step layer 3 stage 0 0 [] else s

/-- The lock-step entry of a context, if any, freezes (R543). -/
def State.lsAbort (s : State) (x : Nat) : State :=
  match s.lsOf x with
  | some i => s.lsStop i 7 true
  | none => s

/-! ## State deltas (R568, R569) -/

/-- One edit entry: a JOIN of a sequence (R292). -/
def joinBytes (seq : Nat) (e : SeqEntry) : Bytes :=
  [1, 0] ++ natLe 2 seq ++ natLe 4 e.base ++ natLe 4 e.count ++ natLe 2 e.stream ++ natLe 2 e.gt ++ natLe 2 e.gh ++
    natLe 2 e.gw ++ List.replicate 10 0

/-- Steps of a context that are not COMPLETE (R521). -/
def State.stepsOf (s : State) (x : Nat) : Nat := (s.rgm.steps.filter (fun t => t.desc.ctx == x)).length

/-- The context's CTX entry as it reads (R521). -/
def State.ctxEntry (s : State) (x : Nat) : Bytes :=
  (List.range 8).flatMap (fun k =>
    let v := s.regN (0x040000 + 0x40 * x + 8 * k)
    natLe 8 (if k == 1 then withFld v 20 16 (s.stepsOf x) else if k == 6 then withFld v 55 32 (s.saveNeed x) else v))

/-- Active sequences of a context. -/
def State.seqsOf (s : State) (x : Nat) : List (Nat × SeqEntry) := s.rgm.seqs.filter (fun e => e.2.ctx == x)

/-- Pending joins of a context, oldest first. -/
def State.pendingOf (s : State) (x : Nat) : List Join := tabGet [] s.rgm.pending x

/-- The bytes of a delta (R569). -/
def State.deltaBytes (s : State) (x : Nat) (step : Word) (joined deferred left flags : Nat) (edits rec table : Bytes) :
    Bytes :=
  let front := natLe 4 0x54444C54 ++ natLe 2 x ++ natLe 2 (edits.length / 32) ++ natLe 8 step.toNat ++
    natLe 2 joined ++ natLe 2 deferred ++ natLe 2 left ++ natLe 1 flags ++ [0] ++ natLe 4 table.length
  let rest := (List.range 6).flatMap (fun c => natLe 4 (s.heldCtx c x)) ++ List.replicate 8 0 ++ s.ctxEntry x ++
    (if rec.isEmpty then List.replicate 128 0 else rec) ++ edits ++ table
  front ++ natLe 4 (crcN (front ++ [0, 0, 0, 0] ++ rest)) ++ rest

/-- Deltas go to a twin that is attached or attaching (R555, R568). -/
def State.mirrors (s : State) : Bool := s.attached || s.twinState == 1

/-- The delta of a step that reaches COMPLETE: the transfer's XID, and the state that has queued it. -/
def State.stepDelta (s : State) (t : Step) : Nat × State :=
  let x := t.desc.ctx
  let table := if t.newTab then (s.ctx x).placeRaw else []
  let d := s.deltaBytes x t.desc.step t.joined t.deferred t.left (bit t.newTab) t.edits t.record table
  (s.twn.xid, s.queueTransfer false x t.desc.step d [] none)

/-- The delta of a context change; nothing without a twin. -/
def State.ctxDelta (s : State) (x : Nat) : State :=
  if s.mirrors then
    s.queueTransfer false x 0 (s.deltaBytes x 0 0 0 0 (2 + 4 * bit (s.ctxState x == 0)) [] [] []) [] none
  else s

/-- A snapshot of a context (R553, R569); its JOINED and DEFERRED count the active sequences and the pending joins
(DEDUCED, log 34). -/
def State.snapshot (s : State) (x : Nat) : State :=
  let edits := (s.seqsOf x).flatMap (fun e => joinBytes e.1 e.2) ++
    (s.pendingOf x).flatMap (fun j => joinBytes j.seq j.entry)
  let table := (s.ctx x).placeRaw
  s.queueTransfer false x 0
    (s.deltaBytes x 0 (s.seqsOf x).length (s.pendingOf x).length 0 (bit (!table.isEmpty) + 2 + 4 * bit (s.ctxState x == 0) + 8) edits [] table) [] none

/-! ## Deadlines (R246) -/

/-- Ranges left when [lo, hi) is taken out. -/
def cutRanges (rs : List (Nat × Nat)) (lo hi : Nat) : List (Nat × Nat) :=
  rs.flatMap (fun r => [(r.1, min r.2 lo), (max r.1 hi, r.2)].filter (fun q => decide (q.1 < q.2)))

/-- Slices that hold a token of a range, newest entries first; an older entry counts only where no newer covers. -/
def slicesOver (stream : Nat) : List SliceEnt → List (Nat × Nat) → List Nat
  | [], _ => []
  | e :: rest, rs =>
    let hi := e.base + e.count
    if e.stream == stream && rs.any (fun r => decide (max r.1 e.base < min r.2 hi)) then
      e.slice :: slicesOver stream rest (cutRanges rs e.base hi)
    else slicesOver stream rest rs

/-- The least of two deadlines, none being later than any. -/
def minDl (a b : Option Int) : Option Int :=
  match a, b with
  | none, b => b
  | a, none => a
  | some x, some y => some (min x y)

/-- A step's deadline in ns; none where it has none (R246). -/
def State.deadline (s : State) (t : Step) : Option Int :=
  t.seqs.foldl (fun d e =>
    let own : Option Int := (tabFind t.seqDl e.1).map (fun n => (n : Int))
    let sl := if e.2.stream == 0xFFFF then [] else slicesOver e.2.stream t.ents [(e.2.base, e.2.base + e.2.count)]
    let far := s.dlm.held.foldl (fun m h =>
      if h.stream == e.2.stream && sl.contains h.slice then minDl m (some h.deadline) else m) none
    minDl d (minDl own far)) none

/-! ## Completion records (R291, R305 to R308) -/

/-- Outcome of an end code (R307, R308): a step with ENDC 0x00 is 0, or 1 when a retry touched it. -/
def outcomeOf (endc : Nat) (retry : Bool) : Nat :=
  if endc == 0 then bit retry else if 0x10 ≤ endc && endc ≤ 0x24 then 2 else 3

/-- Word 0x00 of a completion record (R306). -/
def Step.compWord (t : Step) (stat endc : Nat) : Nat :=
  t.desc.tag + stat <<< 32 + endc <<< 40 + t.level <<< 48 + (bit t.tchoice) <<< 51 + (bit t.ovf) <<< 52 + 1 <<< 63

/-- A step's completion record: v1 of 32 bytes, v2 of 64 (R291, R306). -/
def Step.compBytes (t : Step) (stat endc tEnd : Nat) : Bytes :=
  let w0 := natLe 8 (t.compWord stat endc)
  let u := t.sums
  if t.desc.v1 then
    w0 ++ natLe 4 t.desc.step.toNat ++ natLe 4 u.tokens ++ natLe 8 t.cycles ++ natLe 8 u.digest.toNat
  else
    w0 ++ natLe 8 t.desc.step.toNat ++ natLe 8 t.tStart.toNat ++ natLe 8 tEnd ++ natLe 4 u.tokens ++
      natLe 4 u.exited ++ natLe 2 t.joined ++ natLe 2 t.deferred ++ natLe 2 t.left ++ [0, 0] ++ natLe 8 t.cycles ++
      natLe 8 u.digest.toNat

/-- A completion record that is written after its step's deadline counts as a miss (R259). -/
def State.noteMiss (s : State) (t : Step) : State :=
  if (s.deadline t).any (fun d => decide (d < (s.tb : Int))) then (s.bump aDlmCntMiss).errBit aDlmErr 2 cDlmMiss else s

/-- Writes a step's completion record and its event, counts it, and takes the step off the list (R259, R305, R311,
R694). -/
def State.writeCompletion (s : State) (t : Step) (endc : Nat) : State :=
  let s := s.noteMiss t
  let x := t.desc.ctx
  let out := outcomeOf endc t.retry
  let stat := s.stat out
  let b := t.compBytes stat endc s.tb
  let s := (s.hbmWrite t.desc.compAddr b).chargeHbm x b.length
  let s := { s with rgm := { s.rgm with steps := s.rgm.steps.filter (fun u => !u.is x t.desc.step) } }
  let s := if endc ≤ 1 then (s.bump aRgmCntStep).accAdd aAccSteps (x % 4096) 1 else s
  let s := if endc ≤ 1 then s.setCtx x { s.ctx x with lastStep := some t.desc.step } else s
  s.event (eventWord 3 stat 0 endc 0 x) t.desc.step

end Sys2Proof.Machine
end

