-- ==== Sys2Proof/Machine/Steps.lean ====
section
/-! DEFINITION. Ending steps and contexts: voiding packets (R163), abandoning slots (R220), aborting a step and those
after it (R303, R304), and tearing a context down (R517, R518). -/

namespace Sys2Proof.Machine

/-! ## Packets and slots of a step -/

/-- A lane the engine holds nothing for. -/
def lane0 : Lane :=
  { placed := false, due := false, dq := [], headC := 0, lpress := false, out := [], owed := [], rqOcc := 0, rqPkts := 0
    backing := [] }

def State.lane (s : State) (n : Nat) : Lane := tabGet lane0 s.lanes n
def State.setLane (s : State) (n : Nat) (l : Lane) : State := { s with lanes := tabSet lane0 s.lanes n l }

/-- Flits of a packet from its header to its end mark. -/
def DPkt.total (p : DPkt) : Nat := 1 + p.data.length / 32

/-- Every flit of a packet has been written (R159). -/
def DPkt.whole (p : DPkt) : Bool := decide (p.total ≤ p.built)

/-- Flits of a packet that are in the queue: written and not yet taken (R147). -/
def DPkt.flits (p : DPkt) : Nat := p.built - p.taken

/-- Occupancy of a dispatch queue (R147). -/
def Lane.occ (l : Lane) : Nat := l.dq.foldl (fun n p => n + p.flits) 0

/-- Capacity of a lane's dispatch queue (R144). -/
def State.dqCap (s : State) (n : Nat) : Nat := 8192 + 4096 * s.f (aLanBack n) 6 0

/-- Capacity of a lane's return queue (R144). -/
def State.rqCap (s : State) (n : Nat) : Nat := 8192 + 4096 * s.f (aLanBack n) 14 8

/-- Writes flits of packets in building, in order, while the queue has room for them (R177). -/
def buildOn (room : Nat) : List DPkt → List DPkt
  | [] => []
  | p :: rest =>
    let k := min room (p.total - p.built)
    { p with built := p.built + k } :: buildOn (room - k) rest

/-- LPRESS follows the occupancy (R176). -/
def State.press (s : State) (n : Nat) (l : Lane) : Lane :=
  let occ := l.occ
  if s.f (aLanDqWm n) 19 0 ≤ occ then { l with lpress := true }
  else if occ ≤ s.f (aLanDqWm n) 51 32 then { l with lpress := false } else l

/-- Stores a lane: packets in building go on as far as there is room, and LPRESS is brought up to date (R176, R177). -/
def State.putLane (s : State) (n : Nat) (l : Lane) : State :=
  s.setLane n (s.press n { l with dq := buildOn (s.dqCap n - l.occ) l.dq })

/-- A token packet whose header is untaken, voided: VOID set, the payload gone (R163). -/
def DPkt.voided (p : DPkt) : DPkt := { p with hdr := voidFlit p.hdr, data := [], void := true, built := 1 }

/-- A packet that can still be voided: TOKEN, unvoided, header untaken (R163). -/
def DPkt.untaken (p : DPkt) : Bool := p.token && !p.void && p.taken == 0

/-- Voids the untaken packets of one lane that a test picks (R163); LPRESS follows the occupancy that is left
(R147, R176). -/
def State.voidOn (s : State) (n : Nat) (f : DPkt → Bool) : State :=
  let l := s.lane n
  let hit := fun (p : DPkt) => p.untaken && f p
  let k := (l.dq.filter hit).length
  if k == 0 || n ≥ 128 then s
  else (s.putLane n { l with dq := l.dq.map (fun p => if hit p then p.voided else p) }).addCtr (aLanCntVoid n) k

/-- Voids on every lane. -/
def State.voidAll (s : State) (f : DPkt → Bool) : State :=
  (s.lanes.map (·.1)).foldl (fun s n => s.voidOn n f) s

/-- Abandons the slots a test picks (R220). -/
def State.abandon (s : State) (f : Slot → Bool) : State :=
  { s with car := { s.car with slots := s.car.slots.filter (fun e => !f e.2) } }

/-! ## Collectives of a step or a context that ends (R481) -/

/-- Ends the running collectives a test picks with the cause ABORTED, and lets the queued ones end so at their
start. -/
def State.colAbort (s : State) (f : ColReq → Bool) : State :=
  { s with col := { s.col with groups := s.col.groups.map (fun (e : Nat × ColGroup) =>
      let g := e.2
      let run := g.run.map (fun r => if f r.req && r.ended.isNone then { r with ended := some (5, false) } else r)
      let fails := (g.queue.filter f).foldl (fun t q => tabPut t q.seq (5, false)) g.fails
      (e.1, { g with run := run, fails := fails })) } }

/-! ## Aborting (R303, R304) -/

/-- The layers of a step whose batches are not all closed, oldest first. -/
def Step.groups (t : Step) : List Group := t.tails ++ t.group.toList

/-- Lanes whose open batch is one of a step, and whose queue is empty: the batch written next is another one, whose C is
the one LAN_CT holds now (R161). -/
def State.headsGone (s : State) (t : Step) : State :=
  t.groups.foldl (fun s g => g.lanes.foldl (fun s r =>
    let l := s.lane r.lane
    if r.expert.isSome && l.dq.isEmpty then s.setLane r.lane { l with headC := s.f (aLanCt r.lane) 12 0 } else s) s) s

/-- Stops everything a step has in hand and leaves it draining with an end code. An open batch gets no close: the spec
names no packet that ends it, so packets of another batch may follow its voided ones at once (DESIGN CHOICE, log 85). -/
def State.stopStep (s : State) (t : Step) (endc : Nat) : State :=
  let x := t.desc.ctx
  let st := t.desc.step
  let s := s.voidAll (fun p => p.ctx == x && p.step == st)
  let s := s.headsGone t
  let s := s.abandon (fun p => p.ctx == x && p.step == st)
  let s := s.colAbort (fun q => q.ctx == x && q.step == some st)
  let s := { s with shd := { s.shd with
    formed := s.shd.formed.map (fun (e : Nat × List ShadowBatch) =>
      (e.1, e.2.filter (fun b => !(b.ctx == x && b.step == st)))) } }
  let c := s.ctx x
  let s := s.setCtx x { c with saved := c.saved.map (fun (l : List SavedSlot) => l.filter (fun p => p.slot.step != st)) }
  let s := s.modStep x st (fun u => { u with
    phase := .draining, abort := endc, group := none, tails := [], waiting := false, frozen := false })
  s.bump aRgmCntAbort

/-- Undoes the edits of an admitted step (R304): the context's sequences and pending joins as they were, the buffers
it took released, those of sequences it removed given back. -/
def State.undoStep (s : State) (t : Step) : State :=
  match t.undo with
  | none => s
  | some (seqs, joins) =>
    let x := t.desc.ctx
    let s := t.taken.foldl (fun s e =>
      let s := s.freeAll e.2
      { s with rgm := { s.rgm with
        seqBufs := tabSet [] s.rgm.seqBufs e.1 ((tabGet [] s.rgm.seqBufs e.1).filter (fun h => !e.2.contains h)) } }) s
    let others := s.rgm.seqs.filter (fun e => e.2.ctx != x)
    let mine := seqs.filter (fun e => e.2.ctx == x)
    let c := s.ctx x
    let back := c.leaving.filter (fun l => mine.any (fun e => e.1 == l.1))
    let s := s.setCtx x { c with leaving := c.leaving.filter (fun l => !mine.any (fun e => e.1 == l.1)) }
    let s := back.foldl (fun s l => { s with rgm := { s.rgm with
      seqBufs := tabSet [] s.rgm.seqBufs l.1 (l.2.2 ++ tabGet [] s.rgm.seqBufs l.1) } }) s
    { s with rgm := { s.rgm with
      seqs := mine.foldl (fun t e => tabPut t e.1 e.2) others
      pending := tabSet [] s.rgm.pending x joins } }

/-- Ends a step none of whose edits is to count, with an end code: its edits undone, and its reservation released, which
for a step that has run waits for the returns that are owed (R304). -/
def State.dropStep (s : State) (t : Step) (endc : Nat) : State :=
  let s := s.undoStep t
  let s := s.stopStep t endc
  let ran := t.phase == .running || t.phase == .draining
  s.modStep t.desc.ctx t.desc.step (fun u => { u with
    slotRes := if ran then u.slotRes else 0, undo := none, taken := [], joined := 0, deferred := 0, left := 0
    edits := [], newTab := false })

/-- Steps of a context after one of them, newest first, that are not ending already. -/
def State.laterSteps (s : State) (t : Step) : List Step :=
  let mine := s.rgm.steps.filter (fun u => u.desc.ctx == t.desc.ctx)
  ((mine.dropWhile (fun u => !u.is t.desc.ctx t.desc.step)).drop 1).reverse.filter (fun u => u.abort == 0)

/-- Aborts a running or draining step, and every later step of its context (R304). -/
def State.abortStep (s : State) (t : Step) (endc : Nat) : State :=
  if t.abort != 0 || !(t.phase == .running || t.phase == .draining) then s
  else
    let later := s.laterSteps t
    let s := later.foldl (fun s u => s.dropStep u 0x23) s
    let s := s.stopStep t endc
    s.lsAbort t.desc.ctx

/-- Aborts every running or draining step that a test picks. -/
def State.abortWhere (s : State) (f : Step → Bool) (endc : Nat) : State :=
  (s.rgm.steps.filter f).foldl (fun s t =>
    match s.stepOf t.desc.ctx t.desc.step with
    | some u => s.abortStep u endc
    | none => s) s

/-- Refuses a step at admission (R300): outcome 2 with an end code, counted. -/
def State.refuseStep (s : State) (t : Step) (endc : Nat) : State :=
  let s := s.modStep t.desc.ctx t.desc.step (fun u => { u with phase := .draining, abort := endc, slotRes := 0 })
  (s.setF (aDbStat t.part) 15 8 endc).bump aRgmCntRefuse

/-! ## Step boundaries (R761) -/

/-- Notes that a step of a partition is admitted or completes now. -/
def State.markBound (s : State) (p : Nat) : State :=
  { s with rgm := { s.rgm with bounds := tabPut s.rgm.bounds p s.tclk } }

/-- A step has been admitted: it has its lanes (R151). A step that is refused, or aborted while it waits, never was. -/
def Step.wasAdmitted (t : Step) : Bool := !t.lanes.isEmpty

/-- The partition is at a step boundary: it has no step in flight, or one was admitted or completed in this cycle. -/
def State.atBoundary (s : State) (p : Nat) : Bool :=
  !(s.rgm.steps.any (fun t => t.part == p && t.wasAdmitted)) || tabFind s.rgm.bounds p == some s.tclk

/-! ## Contexts -/

/-- Removes a context's sequences and pending joins (R499, R518). -/
def State.clearSeqs (s : State) (x : Nat) : State :=
  let gone := (s.seqsOf x).map (·.1)
  { s with rgm := { s.rgm with
    seqs := s.rgm.seqs.filter (fun e => e.2.ctx != x)
    pending := tabSet [] s.rgm.pending x []
    seqBufs := s.rgm.seqBufs.filter (fun e => !gone.contains e.1) } }

/-- FM message kinds the spec names without a number (DESIGN CHOICE, log 20). -/
def fmContextDown : Nat := 0x01
def fmTargetDead : Nat := 0x02
def fmTeardownKind : Nat := 0x03

/-- Ring traffic of a context held here is discarded with its buffers (R518). -/
def State.clearRing (s : State) (x : Nat) : State :=
  { s with ring := {
      recs := s.ring.recs.filter (fun r => r.ctx != x)
      rows := s.ring.rows.filter (fun r => r.ctx != x)
      closes := s.ring.closes.filter (fun r => r.ctx != x)
      bufs := tabErase s.ring.bufs x
      wait := s.ring.wait.filter (fun e => pCtx e.2 != x) } }

/-- A step that completes needs what its ring traffic left no longer: the records answered, the rows and the closes
(R440). A record whose return is still to come stays. -/
def State.ringForget (s : State) (x : Nat) (step : Word) : State :=
  let n := step.toNat
  { s with ring := { s.ring with
      recs := s.ring.recs.filter (fun r => !(r.ctx == x && r.step == n % 2 ^ 32 && r.state != 2))
      rows := s.ring.rows.filter (fun w => !(w.ctx == x && w.step == n % 256))
      closes := s.ring.closes.filter (fun c => !(c.ctx == x && c.step == n % 2 ^ 17)) } }

/-- Shows how the copy or copy op of a context that ended or was refused last came out. -/
def State.noteCopy (s : State) (x outcome : Nat) : State := { s with fab := { s.fab with copyEnd := (x, outcome) } }

/-- A copy ends with an outcome: its descriptor, its staging and its step's wait for it go (R339, R390, R404). -/
def State.endCopy (s : State) (cid outcome : Nat) : State :=
  match tabFind s.fab.copies cid with
  | none => s
  | some c =>
    let s := s.freeAll c.staging
    let s := { s with fab := { s.fab with copies := tabErase s.fab.copies cid } }
    let s := match c.step with
      | some st => s.modStep c.ctx st (fun t => { t with asyncs := t.asyncs.filter (· != AsyncOp.copy cid) })
      | none => s
    s.noteCopy c.ctx outcome

/-- Copies of a context end with outcome 3, and its requests that wait are dropped (R518). -/
def State.clearFab (s : State) (x : Nat) : State :=
  let mine := s.fab.copies.filter (fun e => e.2.ctx == x)
  let s := mine.foldl (fun s e => s.endCopy e.1 3) s
  { s with fab := { s.fab with held := s.fab.held.filter (fun e => !(pCtx e.2 == x && (pVc e.2 == 1 || pVc e.2 == 6))) } }

/-- A context's groups go at its teardown, those with a running collective once that has ended; what is queued never
starts, and no step waits for it (R453, R518). -/
def State.dropGroups (s : State) (x : Nat) : State :=
  let mine := s.col.groups.filter (fun e => e.2.ctx == x)
  let s := mine.foldl (fun s e => e.2.queue.foldl (fun s q =>
    q.step.elim s (fun st => s.modStep x st (fun t => { t with
      asyncs := t.asyncs.filter (· != AsyncOp.coll e.1 q.seq) }))) s) s
  let s := (mine.filter (fun e => e.2.run.isNone)).foldl (fun s e => s.freeAll e.2.bufs) s
  { s with col := { s.col with
    groups := (s.col.groups.filter (fun e => !(e.2.ctx == x && e.2.run.isNone))).map (fun (e : Nat × ColGroup) =>
      (e.1, if e.2.ctx == x then { e.2 with queue := [] } else e.2)) } }

/-- Tears a context down with a cause (R517, R518). A FREE or FAULTED context stays as it is. -/
def State.faultCtx (s : State) (x cause : Nat) : State :=
  if s.ctxState x == 0 || s.ctxState x == 7 then s
  else
    let s := (s.setF (aCtxCmd x) 2 0 7).setF (aCtxCmd x) 15 8 cause
    let s := s.raise cCtxFault
    let run := s.rgm.steps.filter (fun t => t.desc.ctx == x && t.abort == 0)
    let s := run.reverse.foldl (fun s t =>
      if t.phase == .running || t.phase == .draining then s.stopStep t 0x34 else s.dropStep t 0x23) s
    let s := if run.isEmpty then s else s.lsAbort x
    let s := s.abandon (fun p => p.ctx == x)
    let s := s.voidAll (fun p => p.ctx == x && !p.remote)
    let s := (s.colAbort (fun q => q.ctx == x)).dropGroups x
    let s := ((s.clearSeqs x).clearRing x).clearFab x
    let c := s.ctx x
    let s := s.setCtx x { c with
      place := none, placeBufs := [], placeRaw := [], weightBufs := [], shadows := [], routers := [], parkAt := none, parkCut := false,
      saved := none, leaving := [] }
    let s := s.releaseCtx x
    s.fmSend fmContextDown s.chip 0 x []

/-- Every context that is not FREE. -/
def State.loadedCtxs (s : State) : List Nat := (List.range 4096).filter (fun x => s.ctxState x != 0)

/-! ## Replies and gating -/

/-- A doorbell, copy, collective, group, context command or checkpoint is refused outright: before READY, in a halt,
or while the debug lock is open (R635, R606, R677). -/
def State.tenantShut (s : State) : Bool := s.unitShut || !s.flag aSecStat 2

end Sys2Proof.Machine
end

