-- ==== Sys2Proof/Machine/Mapping.lean ====
section
/-! DEFINITION. Where a layer's choices go: modes and owners of a placement table (R414, R416, R423), lane lists and the
lanes they fold onto (R148, R151), and what a lane has still to do with a step (R171, R180, R181). -/

namespace Sys2Proof.Machine

/-! ## Placement (R414, R416, R423) -/

/-- Mode of a layer: 0 resident, 1 ring, 2 borrowed (R414, R416). -/
def modeOf (p : Option Placement) (layer : Nat) : Nat :=
  match p with
  | some t => (t.layers[layer]?).elim 0 (·.mode)
  | none => 0

/-- The entry of an expert of a layer: OWNER, FETCHING, CAP. -/
def expertOf (p : Option Placement) (layer e : Nat) : Option (Nat × Bool × Nat) :=
  match p with
  | some t => (t.layers[layer]?).bind (fun l => l.experts[e]?)
  | none => none

/-- This chip's member index in a placement table. -/
def State.memberOf (s : State) (x : Nat) (p : Placement) : Nat := p.members.idxOf (s.srcOf x)

/-- A routed expert's choices leave for another chip (R423). -/
def State.isRemote (s : State) (t : Step) (layer e : Nat) : Bool :=
  decide (e < 1024) && modeOf t.place layer == 1 &&
    (match t.place, expertOf t.place layer e with
      | some p, some o => o.1 != s.memberOf t.desc.ctx p
      | _, _ => false)

/-- Expert ID of entry i of a DISPATCH block of E routed experts (R106). -/
def expertId (e i : Nat) : Nat := if i < e then i else 1024 + (i - e)

/-- Expert IDs of a layer, ascending. -/
def Step.experts (t : Step) (g : Group) : List Nat :=
  let e := t.prog.kE g.pSelect
  (List.range (e + t.prog.kShared g.pSelect)).map (expertId e)

/-- Logical lane list of an expert (R148, R277). -/
def Step.laneList (t : Step) (g : Group) (e : Nat) : List Nat :=
  t.prog.dLanes g.pDispatch (if e < 1024 then e else t.prog.kE g.pSelect + (e - 1024))

/-- Physical lane of a logical lane (R151). -/
def Step.phys (t : Step) (l : Nat) : Nat := t.lanes.getD (l % t.lanes.length) 0

/-- Physical lanes an expert's list reaches, ascending. -/
def Step.physOf (t : Step) (g : Group) (e : Nat) : List Nat :=
  (t.laneList g e).foldl (fun m l => setInsert m (t.phys l)) []

/-- Experts of the layer whose batches this chip's lanes carry, ascending (R423). -/
def State.localExperts (s : State) (t : Step) (g : Group) : List Nat :=
  (t.experts g).filter (fun e => !s.isRemote t g.layer e)

/-! ## The layers a step stands in -/

/-- The group of a step for a layer: the current one, or one whose batches are not all closed. -/
def Step.groupAt (t : Step) (layer : Nat) : Option Group := t.groups.find? (fun g => g.layer == layer)

/-- Changes the group of a step for a layer. -/
def Step.modLayer (t : Step) (layer : Nat) (f : Group → Group) : Step :=
  let k := fun (g : Group) => if g.layer == layer then f g else g
  { t with group := t.group.map k, tails := t.tails.map k }

/-- Changes the group of a step for a layer, where the step stands in it. -/
def State.modGroup (s : State) (x : Nat) (step : Word) (layer : Nat) (f : Group → Group) : State :=
  s.modStep x step (fun t => t.modLayer layer f)

/-- Puts a changed group in its place. -/
def State.putGroup (s : State) (x : Nat) (step : Word) (g : Group) : State := s.modGroup x step g.layer (fun _ => g)

/-! ## A lane and the steps in flight (R171, R180, R181) -/

/-- The layers of a step that no layer group has opened yet: each as far as its lane lists need it. -/
def Step.layersAhead (t : Step) : List Group :=
  let ops := t.prog.ops
  let from_ := match t.group with
    | some g => nextOp ops t.iters ((groupScore ops g.first).getD g.first + 4)
    | none => (t.op, t.iters)
  (runsOf t.prog 65537 from_.1 from_.2).filterMap (fun r =>
    if isForward ops r.1 then
      some { (default : Group) with
        layer := effLayer ops r.2 r.1, pSelect := effParam ops r.2 (r.1 + 1), pDispatch := effParam ops r.2 (r.1 + 3) }
    else none)

/-- Batches of a layer that a lane has still to carry to their close. -/
def State.batchesDue (s : State) (t : Step) (g : Group) (n : Nat) (closed : List Nat) : Bool :=
  (s.localExperts t g).any (fun e => (t.physOf g e).contains n && !closed.contains e)

/-- An admitted step still has a batch to write to a lane (R180). -/
def State.laneOwes (s : State) (n : Nat) : Bool :=
  s.rgm.steps.any (fun t => t.wasAdmitted && t.abort == 0 && t.lanes.contains n &&
    (t.groups.any (fun g => g.lanes.any (fun r => r.lane == n && s.batchesDue t g n r.closed)) ||
      t.layersAhead.any (fun g => s.batchesDue t g n [])))

/-- A bound slot waits for a lane: a choice of this chip's lanes whose packet's header has not been taken goes there. -/
def State.slotWaits (s : State) (n : Nat) (p : Slot) : Bool :=
  (s.stepOf p.ctx p.step).any (fun t => p.choices.any (fun c =>
    !c.withdrawn && c.takenAt.isNone && !s.isRemote t p.layer c.expert && t.phys c.lane == n))

/-- The steps that have packets or slots on a lane: packets queued, returns owed, slots that wait for it (R171, R181). -/
def State.laneUsers (s : State) (n : Nat) : List (Nat × Word) :=
  let l := s.lane n
  (l.dq.map (fun p => (p.ctx, p.step)) ++ l.owed.map (fun o => (o.ctx, o.step)) ++
    (s.car.slots.filter (fun e => s.slotWaits n e.2)).map (fun e => (e.2.ctx, e.2.step))).eraseDups

end Sys2Proof.Machine
end

