-- ==== Sys2Proof/Machine/Islands.lean ====
section
/-! DEFINITION. Islands (R599 to R603, R614): their states, departures, retirement and error counts, what is lost with
each, and the engine halt (R605). -/

namespace Sys2Proof.Machine

/-! ## Numbers and states (R614, R608) -/

def islLane (i : Nat) : Bool := i < 128
def islGroup (i : Nat) : Bool := 128 ≤ i && i < 160
def islPort (i : Nat) : Bool := 160 ≤ i && i < 176
def islAdder (i : Nat) : Bool := 240 ≤ i && i < 248
def islSlice (i : Nat) : Bool := 248 ≤ i && i < 256
/-- Bank groups and stack interface: tested in place (R729). -/
def islStack (i : Nat) : Bool := (176 ≤ i && i < 240) || (256 ≤ i && i < 260)
/-- An island whose loss halts the engine (R603, R607). -/
def islFatal (i : Nat) : Bool := islStack i || (260 ≤ i && i < 264)

/-- State of an island: 0 in service, 1 out of service, 2 retired, 3 under test (R102). -/
def State.islState (s : State) (i : Nat) : Nat :=
  if islLane i then s.f (aLanCtrl i) 1 0
  else if islGroup i then s.f aScaGroupState (2 * (i - 128) + 1) (2 * (i - 128))
  else if islAdder i then s.f aColIslState (2 * (i - 240) + 1) (2 * (i - 240))
  else if islSlice i then s.f aCarSliceState (2 * (i - 248) + 1) (2 * (i - 248))
  else tabGet 0 s.mgt.isl i

/-- Sets an island's state where its register or the management island holds it. -/
def State.setIsl (s : State) (i v : Nat) : State :=
  if islLane i then s.setF (aLanCtrl i) 1 0 v
  else if islGroup i then s.setF aScaGroupState (2 * (i - 128) + 1) (2 * (i - 128)) v
  else if islAdder i then s.setF aColIslState (2 * (i - 240) + 1) (2 * (i - 240)) v
  else if islSlice i then s.setF aCarSliceState (2 * (i - 248) + 1) (2 * (i - 248)) v
  else { s with mgt := { s.mgt with isl := tabSet 0 s.mgt.isl i v } }

/-! ## Lanes, groups and slots (R76, R151, R193) -/

/-- Lanes a partition owns. -/
def State.ownedLanes (s : State) (p : Nat) : List Nat :=
  (List.range 128).filter (fun n => s.flag (if n < 64 then aParLaneLo p else aParLaneHi p) (n % 64))

/-- Lanes in service for the mapping of R151; one asked to leave no longer counts (R180). -/
def State.lanesIn (s : State) (p : Nat) : List Nat :=
  (s.ownedLanes p).filter (fun n => s.islState n == 0 && !s.flag (aLanCtrl n) 8)

/-- Cube groups of a partition in service (R76). -/
def State.groupsIn (s : State) (p : Nat) : List Nat :=
  (List.range 32).filter (fun g => s.flag (aParGroup p) g && s.islState (128 + g) == 0)

/-- Carousel slices in service (R200). -/
def State.slicesIn (s : State) : List Nat := (List.range 8).filter (fun i => s.islState (248 + i) == 0)

/-- A slot is in service for a partition: in its range, not retired, its frame within the extent (R193, R315). -/
def State.slotIn (s : State) (p n : Nat) : Bool :=
  decide (s.f (aParSlot p) 14 0 ≤ n) && decide (n < s.f (aParSlot p) 14 0 + s.f (aParSlot p) 31 16) &&
    !s.car.bad.contains n && decide ((n + 1) * s.stack.frame ≤ s.stack.carousel.2)

/-- Slots of a partition in service. -/
def State.slotCount (s : State) (p : Nat) : Nat :=
  ((List.range (s.f (aParSlot p) 31 16)).filter (fun i => s.slotIn p (s.f (aParSlot p) 14 0 + i))).length

/-- Slots that the partition's admitted, unfinished steps reserve (R194). -/
def State.slotsReserved (s : State) (p : Nat) : Nat :=
  (s.rgm.steps.filter (fun t => t.part == p && t.phase != .queued)).foldl (fun n t => n + t.slotRes) 0

/-! ## Counts in a window (R601, R602, R608) -/

def hourNs : Nat := 3600000000000

/-- Times of a list that lie within the last `span` ns. -/
def State.recent (s : State) (l : List Nat) (span : Nat) : List Nat := l.filter (fun t => decide (s.tb < t + span))

/-- Departures in the last WIN hours. -/
def State.departCount (s : State) (i : Nat) : Nat :=
  (s.recent (tabGet [] s.mgt.departs i) (s.f aMgtRetire 31 24 * hourNs)).length

/-- The field of a spare map that serves a cube group's quarter (R103). -/
def quarterByte (map g : Nat) : Nat := fld map (8 * (g / 8) + 7) (8 * (g / 8))

/-- Retires an island: its state and, where R601 asks for it, ISL_RETIRE. Its fault entry is written either way
(R670). -/
def State.retire (s : State) (i : Nat) (attention : Bool) : State :=
  let s := s.setIsl i 2
  let s := { s with mgt := { s.mgt with
    worn := setInsert s.mgt.worn i
    wornMap := if islGroup i then tabPut s.mgt.wornMap i (quarterByte s.mgt.repairMap (i - 128)) else s.mgt.wornMap } }
  if attention then s.raiseAt cIslRetire i else s.noteFault cIslRetire 2 i

/-- Counts a departure and retires the island when the limit is reached (R601). -/
def State.countDeparture (s : State) (i : Nat) : State :=
  let l := s.tb :: s.recent (tabGet [] s.mgt.departs i) (s.f aMgtRetire 31 24 * hourNs)
  let s := { s with mgt := { s.mgt with departs := tabSet [] s.mgt.departs i l } }
  if decide (s.f aMgtRetire 19 16 ≤ l.length) && s.islState i != 2 then s.retire i true else s

/-- An island leaves service (R599): state 1; a departure that software did not ask for is counted. A test of it that
runs or waits counts as failed (R604, R728). -/
def State.depart (s : State) (i : Nat) (software : Bool) : State :=
  let tested := s.mgt.tests.contains i
  let s := { s with mgt := { s.mgt with
    tests := s.mgt.tests.filter (· != i), testQ := s.mgt.testQ.filter (· != i)
    repairing := s.mgt.repairing.filter (128 + · != i) } }
  let s := if s.islState i == 2 then s else s.setIsl i 1
  if software && !tested then s else s.countDeparture i

/-- Counts a correctable error of an island, with ISL_CE at most once an hour (R602). -/
def State.noteCe (s : State) (i : Nat) : State :=
  let l := s.tb :: s.recent (tabGet [] s.mgt.ces i) hourNs
  let s := { s with mgt := { s.mgt with ces := tabSet [] s.mgt.ces i l } }
  let quiet := match tabFind s.mgt.ceNote i with
    | some t => decide (s.tb < t + hourNs)
    | none => false
  if decide (s.f aMgtRetire 15 0 < l.length) && !quiet then
    ({ s with mgt := { s.mgt with ceNote := tabPut s.mgt.ceNote i s.tb } }).raiseAt cIslCe i
  else s

/-- Residue retries of an island: each counts as a correctable error of it (R602, R604). -/
def State.noteCes (s : State) (i n : Nat) : State := (List.range n).foldl (fun s _ => s.noteCe i) s

/-- A stack granule newly found uncorrectable: counted, with STK_UE for the first since STK_ERR.UE was clear (R326). -/
def State.noteStackUe (s : State) : State :=
  let s := s.bump aStkCntUe
  if s.flag aStkErr 0 then s else s.errBit aStkErr 0 cStkUe

/-! ## The engine halt (R605) -/

/-- The engine halts (R605): a completion record for every running step, no READY, urgent attention. -/
def State.halt (s : State) : State :=
  if s.pwr.halted then s
  else
    let run := s.rgm.steps.filter (fun t => t.phase == .running)
    let s := { s with pwr := { s.pwr with halted := true } }
    let s := run.foldl (fun s t => s.writeCompletion t 0x34) s
    let s := s.setF aPwrBoot 4 4 0
    s.raise cEngHalt

/-! ## Groups that leave at a tile boundary (R77) -/

/-- A tile in progress uses a cube group: a step's, or one of a shadow batch, which runs on its partition's groups. -/
def State.tileUses (s : State) (g : Nat) : Bool :=
  s.rgm.steps.any (fun t => t.group.any (fun gr => gr.tile.any (fun tl => tl.groups.contains g))) ||
    s.shd.running.any (fun e => s.flag (aParGroup e.1) g)

/-- A tile is in progress on a partition's cube groups. -/
def State.tileRuns (s : State) (p : Nat) : Bool :=
  s.rgm.steps.any (fun t => t.part == p && t.group.any (fun gr => gr.tile.isSome)) || (tabFind s.shd.running p).isSome

/-- The groups that software takes out leave service where no tile uses them any longer. -/
def State.groupsLeave (s : State) : State :=
  let now := s.mgt.leaving.filter (fun g => !s.tileUses g)
  let s := { s with mgt := { s.mgt with leaving := s.mgt.leaving.filter (fun g => !now.contains g) } }
  now.foldl (fun s g => if s.islState (128 + g) == 0 then s.depart (128 + g) true else s) s

/-! ## What is lost with an island -/

/-- A lane leaves service at once (R181): the steps with packets or slots on it aborted, its queues discarded,
RTN_XOFF at 1, LANE_DOWN raised. -/
def State.laneOut (s : State) (n : Nat) : State :=
  let users := s.laneUsers n
  let s := s.abortWhere (fun t => users.contains (t.desc.ctx, t.desc.step)) 0x31
  let l := s.lane n
  let s := s.freeAll l.backing
  let s := s.setLane n { lane0 with placed := l.placed }
  let s := s.setF (aLanRqStat n) 63 63 1
  let s := s.setF (aLanCtrl n) 8 8 0
  s.raiseAt cLaneDown n

/-- Steps of the partitions a test picks that have a slot bound are aborted (R216). -/
def State.abortBound (s : State) (f : Slot → Bool) (endc : Nat) : State :=
  let parts := ((s.car.slots.filter (fun e => f e.2)).map (fun e => (e.2.ctx, e.2.step))).eraseDups
  s.abortWhere (fun t => parts.contains (t.desc.ctx, t.desc.step)) endc

/-- Chunks of a collective (R462). -/
def chunkCount (g : ColGroup) (q : ColReq) : Nat :=
  let b := if q.type == 0 || q.type == 3 then 4 else 2
  let per := 2 ^ g.lchunk / b
  (q.nelem + per - 1) / per

/-- An adder island's loss ends every collective with a chunk on it (R475, R476). -/
def State.adderOut (s : State) (a : Nat) : State :=
  let hit := fun (e : Nat × ColGroup) (r : ColRun) =>
    (List.range (min (chunkCount e.2 r.req) r.islands.length)).any (fun c =>
      r.islands[(e.1 + c) % r.islands.length]? == some a)
  let groups := s.col.groups.map (fun (e : Nat × ColGroup) => (e.1, { e.2 with
    run := e.2.run.map (fun r => if r.ended.isNone && hit e r then { r with ended := some (7, false) } else r) }))
  let s := { s with col := { s.col with groups := groups } }
  s.setBit aColErr 3

/-- The unit an island carries loses what was in it (R181, R216, R476), when it leaves service. -/
def State.islandLoss (s : State) (i : Nat) : State :=
  if islLane i then s.laneOut i
  else if islSlice i then s.abortBound (fun _ => true) 0x32
  else if islAdder i then s.adderOut (i - 240)
  else s

/-- A fault takes an island out of service; one whose loss is fatal halts the engine (R599, R603). -/
def State.islandFault (s : State) (i : Nat) : State :=
  if islFatal i then s.halt else (s.islandLoss i).depart i false

/-! ## Lanes at a step boundary (R145, R179, R180, R761) -/

/-- The partition that owns a lane. -/
def State.laneOwner (s : State) (n : Nat) : Option Nat :=
  (List.range 64).find? (fun p => (s.ownedLanes p).contains n)

/-- A lane that was asked to leave leaves, with both queues empty and no batch to come (R180); a lane that is not in
service has left (DESIGN CHOICE, log 86). -/
def State.leaveLane (s : State) (n : Nat) : State :=
  let l := s.lane n
  if !s.flag (aLanCtrl n) 8 then s
  else if s.islState n != 0 then s.setF (aLanCtrl n) 8 8 0
  else if !l.dq.isEmpty || l.rqOcc != 0 || s.laneOwes n then s
  else
    let s := s.freeAll l.backing
    let s := s.setLane n { lane0 with placed := l.placed }
    let s := s.setF (aLanRqStat n) 63 63 1
    let s := s.setF (aLanCtrl n) 8 8 0
    s.depart n true

/-- A lane that the image places in service, or that was asked to return, takes its backing and enters (R145, R179); a
lane in service has entered (DESIGN CHOICE, log 86). -/
def State.enterLane (s : State) (p n : Nat) : State :=
  let l := s.lane n
  if s.unitShut || !(l.due || s.flag (aLanCtrl n) 9) then s
  else if s.islState n == 0 then s.setF (aLanCtrl n) 9 9 0
  else if s.islState n != 1 then s
  else
    match s.allocN 3 (s.f (aLanBack n) 6 0 + s.f (aLanBack n) 14 8) { ctx := 0, part := p, partOnly := true } 1 with
    | (none, _) => s
    | (some hs, s) =>
      let s := s.setLane n { lane0 with placed := l.placed, backing := hs, headC := s.f (aLanCt n) 12 0 }
      let s := s.setF (aLanRqStat n) 63 63 0
      let s := s.setF (aLanCtrl n) 9 9 0
      s.setIsl n 0

/-- The changes of a partition's lanes that wait for a step boundary take effect: lanes leave, then lanes enter. -/
def State.lanesAtBoundary (s : State) (p : Nat) : State :=
  let ls := s.ownedLanes p
  ls.foldl (fun s n => s.enterLane p n) (ls.foldl (fun s n => s.leaveLane n) s)

/-- An uncorrectable SRAM error of an island: the second within an hour takes it out (R599). -/
def State.noteUe (s : State) (i : Nat) : State :=
  let l := s.tb :: s.recent (tabGet [] s.mgt.ues i) hourNs
  let s := { s with mgt := { s.mgt with ues := tabSet [] s.mgt.ues i l } }
  if decide (2 ≤ l.length) && s.islState i == 0 then s.islandFault i else s

end Sys2Proof.Machine
end

