-- ==== Sys2Proof/Machine/Fabric.lean ====
section
/-! DEFINITION. The Nalmal fabric (R361 to R413): link states and the port mapping, memory-semantic requests at both
ends, replies, time limits, async copies, ownership changes and the teardown policy. -/

namespace Sys2Proof.Machine

/-! ## Receipt (R370) -/

/-- Requests: the packets that ask for a reply. -/
def opIsRequest (op : Nat) : Bool := (0x01 ≤ op && op ≤ 0x19) || op == 0x3E

/-- Line address of a request: the line it names, for CPY the line at its destination chip (R375, R388). -/
def lineAddr (p : Packet) : Nat :=
  if pOp p == 0x18 then (pDst p % 128) <<< 39 + (fld (pAddr p) 38 7) <<< 7 else (fld (pAddr p) 47 7) <<< 7

/-- Reserved bits and fields of a packet that must be 0, and alignment by its operation (R367, R379, R380, R388). -/
def addrOk (p : Packet) : Bool :=
  let op := pOp p
  let a := pAddr p
  if op ≤ 0x03 then a % 128 == 0
  else if op == 0x08 || op == 0x0A || op == 0x0C then a % 4 == 0
  else if op == 0x0F || op == 0x10 then a % 16 == 0
  else if 0x08 ≤ op && op ≤ 0x0E then a % 8 == 0
  else if op == 0x19 then fld a 6 2 == 0 else true

/-- Fields that a Trapeze packet's kind fixes: LEN, and what is 0 in ADDR and TAG (R544, R565, R566). -/
def trapezeOk (p : Packet) : Bool :=
  let op := pOp p
  let kind := pAddr p % 16
  if op == 0x38 then pAddr p % 128 == 0
  else if op == 0x39 then
    fld (pAddr p) 47 4 == 0 && (decide (4 ≤ kind ∧ kind ≤ 7) || pTag p == 0) &&
      (decide (8 < kind ∨ kind = 0) || pLen p == bit ([1, 2, 4, 7, 8].contains kind))
  else if op == 0x3A then fld (pTag p) 16 3 == 0
  else if op == 0x3B then pLen p == if [1, 2].contains (fieldAt p.data 0 1) then 4 else 1
  else true

/-- A packet meets R370 on a port of a generation. -/
def packetOk (gen : Nat) (p : Packet) : Bool :=
  match opShape (pOp p) with
  | none => false
  | some (vc, lo, hi) =>
    pGen p == gen && pVc p == vc && decide (lo ≤ pLen p) && decide (pLen p ≤ hi) && p.data.length == 128 * pLen p &&
      !bitAt p.hdr.toNat 127 && (pOp p == 0x18 || !pRi p) && addrOk p && trapezeOk p

/-- A reply to a request (R369): on the port the request came by, or, where that cannot carry it, on the lowest in service
that can (R365). -/
def State.reply_ (s : State) (n : Nat) (p : Packet) (op outcome : Nat) (poison : Bool) (addr : Nat) (data : Bytes) :
    State :=
  s.sendVia (n :: s.portsIn) ⟨nalHdr 2 op (pDst p) (pSrc p) (pCtx p) (data.length / 128) (bit poison) 0 addr (pTag p)
    (s.stat outcome), data⟩

/-- An ACK with an outcome. -/
def State.ackTo_ (s : State) (n : Nat) (p : Packet) (outcome : Nat) : State := s.reply_ n p 0x21 outcome false 0 []

/-- Counts a received packet, and charges it to the local context it names unless it is another chip's request to this
chip's memory (R410, R507, R508). -/
def State.countRx (s : State) (n : Nat) (p : Packet) : State :=
  let s := s.bump (aFabCntRxpkt n)
  if opIsRequest (pOp p) && pOp p != 0x3E then s else s.accAdd aAccFabRx (pCtx p) (pBytes p)

/-- A malformed packet (R370). A request whose SRC no port in service can carry gets no reply. -/
def State.malformed (s : State) (n : Nat) (p : Packet) : State :=
  let s := s.errBit (aFabErr n) 2 cFabMalf
  if opIsRequest (pOp p) then s.ackTo_ n p 2 else s

/-- A packet is some row's: TSYNC and NEG packets, FM, TCTL and LSCMP packets of other kinds and reserved opcodes are no row's,
and any row that receives one handles it. -/
def packetRow (p : Packet) : Bool :=
  let op := pOp p
  if op == 0x3D || op == 0x3F then false
  else if op == 0x3C then [fmTeardownKind, 0x12, 0x13, 0x14, 0x15, 0x16].contains (pAddr p % 256)
  else if op == 0x39 then decide (1 ≤ pAddr p % 16) && decide (pAddr p % 16 ≤ 8)
  else if op == 0x3B then decide (fieldAt p.data 0 1 ≤ 3)
  else (opShape op).isSome

/-- Receipt of a packet by the row it is for, if it is `mine`: nothing on a link that is not up; a packet of another row
is left to it. Every other packet is counted (R410); a malformed one is discarded, one for another chip has no effect, and
otherwise `k` runs, but not in a halted engine (R605). -/
def State.receiveIf (s : State) (n : Nat) (p : Packet) (mine : Bool) (k : State → State) : Out :=
  if n ≥ 16 || s.link n != 2 || (!mine && packetRow p) then .next s
  else
    let s := s.countRx n p
    if s.halted then .next s
    else if !packetOk (s.gen n) p then .next (s.malformed n p)
    else if mine && s.isMine (pDst p) then .next (k s) else .next s

/-- Receipt of a packet by the row of an operation. -/
def State.receive (s : State) (n : Nat) (p : Packet) (mine : Nat → Bool) (k : State → State) : Out :=
  s.receiveIf n p (mine (pOp p)) k

/-! ## The target's side (R379 to R384, R388, R400, R578) -/

/-- A request to the identity this engine has assumed (R578). -/
def State.toAssumed (s : State) (p : Packet) : Bool := pDst p != s.chip

/-- n bytes of the fill pattern (R403). -/
def State.fillBytes (s : State) (n : Nat) : Bytes :=
  (List.range (n / 2)).flatMap (fun _ => natLe 2 (s.f aMsfCtrl 31 16))

/-- A request passes the receiver's checks of R400. -/
def State.slotOk (s : State) (p : Packet) : Bool := fld (pAddr p) 47 39 == s.chip % 128

/-- A target's handling of a memory-semantic request: refused where it names another slot, failed where it names the
assumed chip (a read answered with FILL), performed otherwise. -/
def State.serve (s : State) (n : Nat) (p : Packet) (isRead : Bool) (k : State → Nat → State) : State :=
  if s.toAssumed p then
    (if isRead then s.reply_ n p 0x20 3 false (pAddr p) (s.fillBytes 128) else s.ackTo_ n p 3)
  else if !s.slotOk p then s.ackTo_ n p 2
  else k s (pAddr p % 2 ^ 39)

/-- Writes bytes of a line under the poison rule for partial writes (R717). -/
def State.hbmPatch (s : State) (a : Nat) (bs : Bytes) (poison : Bool) : State :=
  if bs.length == 128 && a % 128 == 0 then s.hbmWriteP a bs poison
  else
    let keep := s.hbmPoison
    let s := s.hbmWriteP a bs poison
    if poison then s else { s with hbmPoison := keep }

/-- Bytes of a line where the mask's bit is set come from `new`, the others from `old` (R379). -/
def maskBytes (mask : Nat) (old new : Bytes) : Bytes :=
  (List.range 128).map (fun i => if bitAt mask i then new.getD i 0 else old.getD i 0)

/-- RD (R379, R384). -/
def execRd (port : Nat) (pkt : Packet) (s : State) : Out :=
  s.receive port pkt (· == 0x01) (fun s => s.serve port pkt true (fun s a =>
    let bad := s.hbmPoisoned a 128
    s.reply_ port pkt 0x20 (if bad then 3 else 0) bad (pAddr pkt) (s.hbmRead a 128)))

/-- WR (R383, R384). -/
def execWr (port : Nat) (pkt : Packet) (s : State) : Out :=
  s.receive port pkt (· == 0x02) (fun s => s.serve port pkt false (fun s a =>
    (s.hbmWriteP a pkt.data (pPoison pkt)).ackTo_ port pkt (if pPoison pkt then 3 else 0)))

/-- WRM (R379): a full mask writes the whole line; any other is a byte-masked write. -/
def execWrm (port : Nat) (pkt : Packet) (s : State) : Out :=
  s.receive port pkt (· == 0x03) (fun s => s.serve port pkt false (fun s a =>
    let mask := leNat ((pkt.data.drop 128).take 16)
    let new := maskBytes mask (s.hbmRead a 128) (pkt.data.take 128)
    let keep := s.hbmPoison
    let s := s.hbmWriteP a new (pPoison pkt)
    let s := if pPoison pkt || mask == 2 ^ 128 - 1 then s else { s with hbmPoison := keep }
    s.ackTo_ port pkt (if pPoison pkt then 3 else 0)))

/-- An atomic on a cell of n bytes (R380, R382): `f` gives the new cell from the old one and the payload. The reply
carries the old cell for a fetching operation. -/
def State.atomic (s : State) (port : Nat) (p : Packet) (n : Nat) (fetch : Bool) (f : Nat → Bytes → Nat) : State :=
  s.serve port p fetch (fun s a =>
    let bad := s.hbmPoisoned a n || pPoison p
    let old := s.hbmNat a n
    let s := s.hbmPatch a (natLe n (f old p.data)) (pPoison p)
    if fetch then s.reply_ port p 0x20 (if bad then 3 else 0) bad (pAddr p) (natLe n old ++ List.replicate (128 - n) 0)
    else s.ackTo_ port p (if bad then 3 else 0))

/-- Operand of n bytes of an atomic's payload (R380). -/
def operand (d : Bytes) (n : Nat) : Nat := fieldAt d 0 n

def execAdd32 (port : Nat) (pkt : Packet) (s : State) : Out :=
  s.receive port pkt (· == 0x08) (fun s => s.atomic port pkt 4 false (fun c d => (c + operand d 4) % 2 ^ 32))

def execAdd64 (port : Nat) (pkt : Packet) (s : State) : Out :=
  s.receive port pkt (· == 0x09) (fun s => s.atomic port pkt 8 false (fun c d => (c + operand d 8) % 2 ^ 64))

def execFadd32 (port : Nat) (pkt : Packet) (s : State) : Out :=
  s.receive port pkt (· == 0x0A) (fun s => s.atomic port pkt 4 true (fun c d => (c + operand d 4) % 2 ^ 32))

def execFadd64 (port : Nat) (pkt : Packet) (s : State) : Out :=
  s.receive port pkt (· == 0x0B) (fun s => s.atomic port pkt 8 true (fun c d => (c + operand d 8) % 2 ^ 64))

def execSwap32 (port : Nat) (pkt : Packet) (s : State) : Out :=
  s.receive port pkt (· == 0x0C) (fun s => s.atomic port pkt 4 true (fun _ d => operand d 4))

def execSwap64 (port : Nat) (pkt : Packet) (s : State) : Out :=
  s.receive port pkt (· == 0x0D) (fun s => s.atomic port pkt 8 true (fun _ d => operand d 8))

def execCas64 (port : Nat) (pkt : Packet) (s : State) : Out :=
  s.receive port pkt (· == 0x0E) (fun s => s.atomic port pkt 8 true (fun c d =>
    if c == fieldAt d 0 8 then fieldAt d 8 8 else c))

/-- Two's complement value of the low n bits. -/
def signedN (n v : Nat) : Int :=
  let w := v % 2 ^ n
  if w ≥ 2 ^ (n - 1) then (w : Int) - 2 ^ n else w

/-- A number as n bits of two's complement. -/
def wrapN (n : Nat) (i : Int) : Nat := (i % (2 ^ n : Int)).toNat

/-- An exact add into a cell of 16 bytes whose integer has n bits (R381): the cell is left alone, and outcome 2
answered, when the sum lies outside the range. -/
def State.exactAdd (s : State) (port : Nat) (p : Packet) (n : Nat) : State :=
  s.serve port p false (fun s a =>
    let bad := s.hbmPoisoned a 16 || pPoison p
    let sum := signedN n (s.hbmNat a 16) + signedN n (operand p.data 16)
    if decide (-(2 ^ (n - 1) : Int) ≤ sum) && decide (sum < 2 ^ (n - 1)) then
      (s.hbmPatch a (natLe 16 (wrapN 128 sum)) (pPoison p)).ackTo_ port p (if bad then 3 else 0)
    else s.ackTo_ port p 2)

def execXadd80 (port : Nat) (pkt : Packet) (s : State) : Out :=
  s.receive port pkt (· == 0x0F) (fun s => s.exactAdd port pkt 80)

def execXadd128 (port : Nat) (pkt : Packet) (s : State) : Out :=
  s.receive port pkt (· == 0x10) (fun s => s.exactAdd port pkt 128)

/-- CPY: the receiver writes the lines, counts them, and acknowledges (R388, R389, R597). -/
def execCpy (port : Nat) (pkt : Packet) (s : State) : Out :=
  s.receive port pkt (· == 0x18) (fun s =>
    if s.toAssumed pkt then s.ackTo_ port pkt 3
    else
      let a := pAddr pkt
      let off := (fld a 38 7) <<< 7
      let ctr := (fld a 47 39) <<< 7 + fld a 6 0
      let s := s.hbmWriteP off pkt.data (pPoison pkt)
      let s := if pRi pkt then s.countUp ctr (pLen pkt) else s
      s.ackTo_ port pkt (if pPoison pkt then 3 else 0))

/-- CPYRD: the source answers with its lines, in one reply where none is poisoned and otherwise in one for each line
(R369, R388, R384). -/
def execCpyrd (port : Nat) (pkt : Packet) (s : State) : Out :=
  s.receive port pkt (· == 0x19) (fun s =>
    let k := fld (pAddr pkt) 1 0 + 1
    let low := fld (pAddr pkt) 6 0
    let line := fld (pAddr pkt) 47 7
    if s.toAssumed pkt then s.reply_ port pkt 0x20 3 false (pAddr pkt) (s.fillBytes (128 * k))
    else if !s.slotOk pkt then s.ackTo_ port pkt 2
    else
      let off := (line <<< 7) % 2 ^ 39
      if s.hbmPoisoned off (128 * k) then
        (List.range k).foldl (fun s i =>
          let bad := s.hbmPoisoned (off + 128 * i) 128
          s.reply_ port pkt 0x20 (if bad then 3 else 0) bad ((line + i) <<< 7 + low) (s.hbmRead (off + 128 * i) 128)) s
      else s.reply_ port pkt 0x20 0 false (pAddr pkt) (s.hbmRead off (128 * k)))

/-! ## Requests in flight (R385) -/

/-- Lines in flight (R385). -/
def State.linesInFlight (s : State) : Nat := s.fab.reqs.foldl (fun n e => n + e.2.lines) 0

/-- The lowest tag not in use, counting from `i` over tags in rising order. -/
def freeTag : Nat → List (Nat × Req) → Nat
  | i, [] => i
  | i, (j, _) :: rest => if i == j then freeTag (i + 1) rest else i

/-- A request of so many lines may issue now: no mapping change under way, a tag and the lines free (R378, R385). -/
def State.canIssue (s : State) (lines : Nat) : Bool :=
  !s.fab.remap && decide (freeTag 0 s.fab.reqs ≤ 131071) && decide (s.linesInFlight + lines ≤ 131072)

/-- Sends a request under a tag on the port R375 gives, with its entry in the table. Where no port can carry it, the
state is unchanged and the answer is false (R365). -/
def State.issue (s : State) (p : Packet) (lines : Nat) (copy : Option (Nat × Nat)) : Bool × State :=
  let tag := freeTag 0 s.fab.reqs
  let p := { p with hdr := BitVec.ofNat 128 (withFld p.hdr.toNat 122 106 tag) }
  match s.pickPort ((pDst p) <<< 41 ||| (lineAddr p >>> 7)) (pSrc p) (pDst p) (pVc p) with
  | none => (false, s)
  | some n =>
    let r : Req := {
      ctx := pCtx p, port := n, pkt := p, lines := lines, issued := s.tclk, timedOut := false, retried := false,
      copy := copy, got := [], serial := (s.fab.reqs.foldl (fun n e => max n e.2.serial) 0) + 1 }
    let s := s.sendOn n p
    (true, { s with fab := { s.fab with reqs := tabPut s.fab.reqs tag r } })

/-- Shows the answer to a host requester. -/
def State.answerHost (s : State) (data : Bytes) (outcome : Nat) (poison : Bool) : State :=
  { s with fab := { s.fab with answer := (data, outcome, poison) } }

/-! ## Copies (R387 to R391) -/

/-- The packet of a copy's next lines: a push of up to 4 lines, or a pull request (R388). A poisoned line is pushed
alone with POISON set. -/
def State.copyPacket (s : State) (c : Copy) : Nat × Packet :=
  let left := c.len / 128 - c.next
  let src := c.src + 128 * c.next
  let dst := c.dst + 128 * c.next
  if c.pull then
    let k := min 4 left
    (k, ⟨nalHdr 6 0x19 (s.srcOf c.ctx) ((s.chip / 128) <<< 7 + fld c.src 45 39) c.ctx 0 0 0 ((src >>> 7) <<< 7 + (k - 1))
      0 0, []⟩)
  else
    let k := min 4 left
    let k := if s.hbmPoisoned src (128 * k) then 1 else k
    let addr := (fld dst 38 7) <<< 7 + (fld c.rctr 15 7) <<< 39 + fld c.rctr 6 0
    (k, ⟨nalHdr 6 0x18 (s.srcOf c.ctx) c.peer c.ctx k (bit (s.hbmPoisoned src (128 * k))) (bit c.rinc) addr 0 0,
      s.hbmRead src (128 * k)⟩)

/-- Issues the packets of a copy while R385 and the mapping allow; fuel is its lines. -/
def pumpCopy : Nat → Nat → State → State
  | 0, _, s => s
  | k + 1, cid, s =>
    match tabFind s.fab.copies cid with
    | none => s
    | some c =>
      if decide (c.len / 128 ≤ c.next) then s
      else
        let r := s.copyPacket c
        if !s.canIssue r.1 then s
        else
          match s.issue r.2 r.1 (some (cid, c.next)) with
          | (false, s) => s
          | (true, s) =>
            let s := s.chargeHbm c.ctx (if c.pull then 0 else 128 * r.1)
            pumpCopy k cid { s with fab := { s.fab with
              copies := tabPut s.fab.copies cid { c with next := c.next + r.1 } } }

/-- Issues what every copy can. -/
def State.pumpCopies (s : State) : State :=
  (s.fab.copies.map (fun e => (e.1, e.2.len / 128))).foldl (fun s e => pumpCopy e.2 e.1 s) s

/-- Sends one of the packets that wait: a host request (1), a request to reissue (2) or a kept packet (0). What cannot go
waits on, behind what already does. -/
def State.sendHeld (s : State) (e : Nat × Packet) : State :=
  let p := e.2
  let wait := { s with fab := { s.fab with held := s.fab.held ++ [e] } }
  if e.1 == 1 then
    if s.canIssue 1 then
      match s.issue p 1 none with
      | (true, t) => t
      | (false, t) => t.answerHost [] 2 false
    else wait
  else if e.1 == 2 then
    match s.pickPort ((pDst p) <<< 41 ||| (lineAddr p >>> 7)) (pSrc p) (pDst p) (pVc p) with
    | none => wait
    | some n =>
      let s := s.sendOn n p
      match tabFind s.fab.reqs (pTag p) with
      | some r => { s with fab := { s.fab with reqs := tabPut s.fab.reqs (pTag p) { r with port := n } } }
      | none => s
  else s.sendKept p

/-- Everything that waits goes on as far as it can, oldest first, and then what copies can issue (R378). -/
def State.pump (s : State) : State :=
  if s.fab.remap then s
  else (s.fab.held.foldl State.sendHeld { s with fab := { s.fab with held := [] } }).pumpCopies

/-- The lowest copy number that neither a copy nor a request still in flight bears. -/
def State.freeCopy (s : State) : Nat :=
  let taken := fun i => s.fab.copies.any (fun e => e.1 == i) || s.fab.reqs.any (fun e => e.2.copy.any (fun c => c.1 == i))
  ((List.range (s.fab.copies.length + s.fab.reqs.length + 1)).find? (fun i => !taken i)).getD 0

/-- Why a copy descriptor is not accepted. -/
inductive CopyFail where
  | malformed | check (c : CheckFail) | full
  deriving DecidableEq, Repr, Inhabited

/-- The copy a 64-byte descriptor describes (R387, R443); `bases` and `ofs` resolve a route program's fields. -/
def copyOf (d : Bytes) (x : Nat) (step : Option Word) (bases : List Nat) (ofs : Nat) (fetch : Bool) : Copy :=
  let w := fieldAt d 0 8
  let rel := fun c => if step.isSome then (c + ofs) % 65536 else c
  let adr := fun o => if step.isSome then resolve bases (fieldAt d o 8) else fieldAt d o 8
  let v := fieldAt d 0x28 8
  let pull := fld w 1 0 == 1
  let rc := fieldAt d 0x20 8
  { ctx := x, step := step, pull := pull, sinc := bitAt w 8, sctr := rel (fld w 31 16), peer := fld w 45 32,
    src := adr 0x08, dst := adr 0x10, len := fieldAt d 0x18 8,
    rctr := if pull then rel (fld rc 15 0) else fld rc 15 0, rinc := bitAt rc 16,
    wcrc := if fetch && bitAt v 32 then some (BitVec.ofNat 32 (fld v 31 0)) else none,
    next := 0, done := 0, outcome := 0, poisoned := false, staging := [] }

/-- A chip ID names a slot of the own rack with no chip in it (R363; what the slots hold comes with START_UP, log 102). -/
def State.noChip (s : State) (c : Nat) : Bool := c / 128 == s.chip / 128 && s.fab.vacant.contains (c % 128)

/-- The sender's checks of a copy (R363, R388, R394, R395): both ranges as a whole. -/
def State.copyCheck (s : State) (c : Copy) : Option CopyFail :=
  if c.src % 128 != 0 || c.dst % 128 != 0 then some .malformed
  else if c.pull then
    if fld c.src 47 46 != 0 || fld c.src 45 39 != fld (c.src + c.len - 1) 45 39 ||
        c.peer != (s.chip / 128) <<< 7 + fld c.src 45 39 || s.noChip c.peer then some .malformed
    else
      match s.checkAccess c.ctx c.src c.len permRd false with
      | some e => some (.check e)
      | none => (s.checkLocal c.ctx c.dst c.len permCdst true).map .check
  else if 2 ^ 39 < c.dst % 2 ^ 39 + c.len || s.noChip c.peer then some .malformed
  else
    let far := (c.peer % 128) <<< 39 + c.dst % 2 ^ 39
    match s.checkLocal c.ctx c.src c.len permCsrc false with
    | some e => some (.check e)
    | none =>
      if !s.windowOk c.ctx (c.peer / 128) far c.len permCdst then some (.check .window)
      else if c.peer / 128 == s.chip / 128 && !s.ownOk c.ctx far c.len then some (.check .owner) else none

/-- The part of a copy's destination that R395 checks against the ownership table: its rack address and its length. -/
def State.copyOwned (s : State) (c : Copy) : Nat × Nat :=
  if c.pull then (s.rackAddr c.dst, c.len)
  else ((c.peer % 128) <<< 39 + c.dst % 2 ^ 39, if c.peer / 128 == s.chip / 128 then c.len else 0)

/-- The cache after the checks of a copy (R396). -/
def State.copyNote (s : State) (c : Copy) : State :=
  let w := s.copyOwned c
  if w.2 == 0 then s else s.ownNote w.1 w.2

/-- A copy that a window or ownership check refuses (R399). -/
def State.copyRefused (s : State) (c : Copy) (e : CheckFail) : State :=
  ((if e = .owner then s.copyNote c else s).checkRefused e)

/-- Submits a copy that the checks passed: its number, and the state in which its packets go out. -/
def State.submitCopy (s : State) (c : Copy) : Nat × State :=
  let cid := s.freeCopy
  (cid, ({ s with fab := { s.fab with copies := tabPut s.fab.copies cid c } }).pump)

/-- Room for one more copy (R391). -/
def State.copyRoom (s : State) : Bool := s.fab.copies.length < 16384

/-- A write of MSF_CPY (R387, R391, R399, R762). -/
def execMsfCpy (v : Word) (s : State) : Out :=
  let a := fld v.toNat 47 0
  let x := fld v.toNat 59 48
  if s.tenantShut || a % 64 != 0 || s.hbmPoisoned a 64 || !copyDescOk (s.hbmRead a 64) false || !s.copyRoom then
    .next s.refuse
  else
    let c := copyOf (s.hbmRead a 64) x none [] 0 false
    match s.copyCheck c with
    | some (.check e) => .next (s.copyRefused c e).refuse
    | some _ => .next s.refuse
    | none =>
      let t := s.copyNote c
      if (t.pickPort 0 (t.srcOf x) c.peer 6).isNone then .next t.refuse else .next (t.submitCopy c).2.done

/-- COPY_END: a copy whose every line is acknowledged or written ends (R390, R443, R444, R597). -/
def execCopyEnd (cid : Nat) (s : State) : Out :=
  match tabFind s.fab.copies cid with
  | none => .next s
  | some c =>
    if decide (c.done < c.len / 128) then .next s
    else
      let s := s.endCopy cid c.outcome
      let bad := match c.wcrc with
        | some w => c.poisoned || decide (2 ≤ c.outcome) || crc32c (s.hbmRead c.dst c.len) != w
        | none => false
      if bad then .next ((s.raise cFetchCrc).faultCtx c.ctx 4).pump
      else
        let s := if c.sinc then s.countUp c.sctr 1 else s
        .next ((if c.outcome < 2 then s.bump aMsfCntCpy else s).pump)

/-! ## Replies (R369, R384, R405) -/

/-- A late or unmatched reply is discarded; the tag of a timed-out request is freed (R405). -/
def State.lateReply (s : State) (tag : Nat) : State :=
  let s := (s.bump aMsfCntLate).setBit aMsfErr 3
  match tabFind s.fab.reqs tag with
  | some r => if r.timedOut then ({ s with fab := { s.fab with reqs := tabErase s.fab.reqs tag } }).pump else s
  | none => s

/-- Outcome the requester sees: the reply's, or 1 when the requester's own link retried a packet (R385). -/
def reqOutcome (r : Req) (p : Packet) : Nat :=
  let o := pStat p % 4
  if o == 0 && r.retried then 1 else o

/-- A copy takes note of so many lines settled with an outcome. -/
def Copy.settle (c : Copy) (lines outcome : Nat) (poison : Bool) : Copy :=
  { c with done := c.done + lines, outcome := max c.outcome outcome, poisoned := c.poisoned || poison }

/-- Lines a DATA reply brings to a pull: written locally, counted (R388, R389). -/
def State.pullLines (s : State) (c : Copy) (r : Req) (p : Packet) (first : Nat) : State :=
  let i := fld (pAddr p) 47 7 - fld (pAddr r.pkt) 47 7
  let s := (s.hbmWriteP (c.dst + 128 * (first + i)) p.data (pPoison p)).chargeHbm c.ctx p.data.length
  if c.rinc then s.countUp c.rctr (pLen p) else s

/-- DATA_REPLY (R369, R384, R388, R405). -/
def execDataReply (port : Nat) (pkt : Packet) (s : State) : Out :=
  s.receive port pkt (· == 0x20) (fun s =>
    let s := if pStat pkt / 4 == 0 then s else s.bump (aFabCntRatn port)
    let tag := pTag pkt
    match tabFind s.fab.reqs tag with
    | none => s.lateReply tag
    | some r =>
      if r.timedOut || pDst r.pkt != pSrc pkt then s.lateReply tag
      else
        let o := reqOutcome r pkt
        let drop := { s with fab := { s.fab with reqs := tabErase s.fab.reqs tag } }
        match r.copy with
        | none => (drop.answerHost pkt.data o (pPoison pkt)).pump
        | some (cid, first) =>
          match tabFind s.fab.copies cid with
          | none => drop.pump
          | some c =>
            if pStat pkt % 4 == 2 then
              ({ drop with fab := { drop.fab with
                copies := tabPut drop.fab.copies cid (c.settle r.lines 2 false) } }).pump
            else
              let i := fld (pAddr pkt) 47 7 - fld (pAddr r.pkt) 47 7
              let got := (List.range (pLen pkt)).foldl (fun g k => setInsert g (i + k)) r.got
              let whole := decide (r.lines ≤ got.length)
              let s := s.pullLines c r pkt first
              let s := if r.retried then c.step.elim s (fun st => s.noteRetry c.ctx st 1) else s
              let reqs := if whole then tabErase s.fab.reqs tag
                else tabPut s.fab.reqs tag { r with got := got }
              ({ s with fab := { s.fab with
                reqs := reqs
                copies := tabPut s.fab.copies cid (c.settle (got.length - r.got.length) o (pPoison pkt)) } }).pump)

/-- ACK_REPLY (R369, R381, R383). -/
def execAckReply (port : Nat) (pkt : Packet) (s : State) : Out :=
  s.receive port pkt (· == 0x21) (fun s =>
    let s := if pStat pkt / 4 == 0 then s else s.bump (aFabCntRatn port)
    let tag := pTag pkt
    match tabFind s.fab.reqs tag with
    | none => s.lateReply tag
    | some r =>
      if r.timedOut || pDst r.pkt != pSrc pkt then s.lateReply tag
      else
        let o := reqOutcome r pkt
        let s := { s with fab := { s.fab with reqs := tabErase s.fab.reqs tag } }
        let op := pOp r.pkt
        let s := if (op == 0x0F || op == 0x10) && o == 2 then s.setBit aMsfErr 4 else s
        match r.copy with
        | none => (s.answerHost [] o false).pump
        | some (cid, _) =>
          match tabFind s.fab.copies cid with
          | none => s.pump
          | some c =>
            let s := if r.retried then c.step.elim s (fun st => s.noteRetry c.ctx st 1) else s
            ({ s with fab := { s.fab with
              copies := tabPut s.fab.copies cid (c.settle r.lines o (pPoison r.pkt && o == 3)) } }).pump)

/-! ## Time limits (R403 to R405) -/

/-- T_dead in TCLK cycles. -/
def State.tdead (s : State) : Nat := s.f aMsfCtrl 6 0 * 100

/-- REQUEST_TIMEOUT (R403, R404, R406). -/
def execRequestTimeout (tag : Nat) (s : State) : Out :=
  match tabFind s.fab.reqs tag with
  | none => .next s
  | some r =>
    if r.timedOut || decide (s.tclk < r.issued + s.tdead) then .next s
    else
      let op := pOp r.pkt
      let data := if op == 0x01 then s.fillBytes 128
        else if op == 0x0A || op == 0x0C then s.fillBytes 4
        else if op == 0x0B || op == 0x0D || op == 0x0E then s.fillBytes 8 else []
      let s := match r.copy with
        | none => s.answerHost data 3 false
        | some (cid, _) => s.endCopy cid 3
      let s := { s with fab := { s.fab with reqs := tabPut s.fab.reqs tag { r with timedOut := true } } }
      let s := ((s.bump aMsfCntDead).setBit aMsfErr 2).raise cMsfDead
      let s := if s.flag aMsfCtrl 7 then s.fmSend fmTargetDead (pDst r.pkt) 0 r.ctx [] else s
      .next (s.faultCtx r.ctx 2)

/-- TAG_FREE_EXPIRE (R405). -/
def execTagFreeExpire (tag : Nat) (s : State) : Out :=
  match tabFind s.fab.reqs tag with
  | none => .next s
  | some r =>
    if r.timedOut && decide (r.issued + 4 * s.tdead ≤ s.tclk) then
      .next ({ s with fab := { s.fab with reqs := tabErase s.fab.reqs tag } }).pump
    else .next s

/-! ## The host's memory-semantic accesses (R363, R379, R380, R393, R399) -/

/-- Bytes a memory-semantic operation touches, its window permission, and whether ownership is checked. -/
def accessOf (op : Nat) : Nat × Nat × Bool :=
  if op == 0x01 then (128, permRd, false)
  else if op == 0x02 || op == 0x03 then (128, permWr, true)
  else if op == 0x08 || op == 0x0A || op == 0x0C then (4, permAt, true)
  else if op == 0x0F || op == 0x10 then (16, permAt, true) else (8, permAt, true)

/-- MS_REQUEST: a host access to a rack address; of the packet, OPCODE, ADDR, POISON and the payload are the host's.
-/
def execMsRequest (x : Nat) (pkt : Packet) (s : State) : Out :=
  let op := pOp pkt
  let a := pAddr pkt
  let data := if op == 0x03 then pkt.data.take 144 ++ List.replicate 112 0 else pkt.data
  let p : Packet := ⟨nalHdr 1 op (s.srcOf x) ((s.chip / 128) <<< 7 + fld a 45 39) x (data.length / 128)
    (bit (pPoison pkt)) 0 a 0 0, data⟩
  let shape := match opShape op with
    | some (1, lo, _) => decide (pkt.data.length == 128 * lo)
    | _ => false
  if s.tenantShut || !shape || !addrOk p || fld a 47 46 != 0 || s.noChip (pDst p) then .next (s.answerHost [] 2 false)
  else
    let w := accessOf op
    let check := s.checkAccess x a w.1 w.2.1 w.2.2
    let s := if w.2.2 && check != some .window then s.ownNote a w.1 else s
    match check with
    | some e => .next ((s.checkRefused e).answerHost [] 2 false)
    | none =>
      if s.canIssue 1 then
        match s.issue p 1 none with
        | (true, t) => .next t
        | (false, t) => .next (t.answerHost [] 2 false)
      else .next { s with fab := { s.fab with held := s.fab.held ++ [(1, p)] } }

/-! ## Links and the port mapping (R364, R376, R378, R402, R407) -/

/-- Requests of the old mapping that still wait for an answer: those on a port in service, not timed out, not held for
reissue. -/
def State.oldRequests (s : State) : Bool :=
  s.fab.reqs.any (fun e => !e.2.timedOut && s.link e.2.port == 2 &&
    !s.fab.held.any (fun h => h.1 == 2 && pTag h.2 == e.1))

/-- PKEYZ follows the ports in service (R376). -/
def State.keyFollows (s : State) : State := s.setF aMsfCtrl 8 8 (bit (s.portsIn.any (fun n => s.gen n != 3)))

/-- The requests of a port that nothing more holds up: one that is to leave has left, and one that is to train does, or is
in service (R378, R407). A link in training keeps both until it is up. -/
def State.settlePort (s : State) (n : Nat) : State :=
  let up := s.link n == 2
  let s := if s.flag (aFabState n) 8 && s.link n != 1 then
      let s := (s.setF (aFabState n) 8 8 0).setF (aFabState n) 1 0 3
      if up then s.depart (160 + n) true else s
    else s
  if !s.flag (aFabState n) 9 || s.link n == 1 then s
  else if s.link n == 2 then s.setF (aFabState n) 9 9 0 else s.setF (aFabState n) 1 0 1

/-- The new mapping takes force once no request of the old one is outstanding (R378). -/
def State.remapNow (s : State) : State :=
  if s.fab.remap && s.oldRequests then s
  else
    let s := if s.fab.remap then { s with fab := { s.fab with map := s.portsIn, remap := false } } else s
    ((List.range 16).foldl State.settlePort s).keyFollows.pump

/-- A port in service can carry VC5 packets (R365). -/
def State.colPorts (s : State) : Bool := s.portsIn.any (fun n => s.gen n != 1)

/-- Every running collective is lost where no port in service can carry its packets (R481). -/
def State.colPortless (s : State) : State :=
  if s.colPorts then s
  else { s with col := { s.col with groups := s.col.groups.map (fun (e : Nat × ColGroup) =>
    (e.1, { e.2 with run := e.2.run.map (fun r => if r.ended.isNone then { r with ended := some (2, false) } else r) })) } }

/-- The set of in-service ports may have changed: no request issues until the new mapping is in force (R378). -/
def State.portsMark (s : State) : State :=
  let s := s.keyFollows.colPortless
  if s.fab.map == s.portsIn then s else { s with fab := { s.fab with remap := true } }

/-- The new mapping follows at once where nothing holds it up. -/
def State.portsChanged (s : State) : State := s.portsMark.remapNow

/-- PORT_REMAP (R378). -/
def execPortRemap (s : State) : Out := .next s.remapNow

/-- The ATTEST payload (R673). -/
def State.attestBytes (s : State) : Bytes :=
  let b := (natLe 48 s.cfg.sha).reverse ++ natLe 1 (s.f aSecStat 14 8) ++ natLe 1 (s.f aSecStat 1 1) ++
    natLe 1 (bit (s.flag aSecStat 2) + 2 * bit s.ready) ++ [0] ++ natLe 4 (s.f aCfgStat 63 32)
  b ++ List.replicate (128 - b.length) 0

/-- Sends ATTEST on the first of some ports that can carry it (R365, R673). -/
def State.attestOn (s : State) (ports : List Nat) : State :=
  s.sendVia ports ⟨nalHdr 0 0x3C s.chip 0 0 1 0 0 0x20 0 0, s.attestBytes⟩

/-- Sends ATTEST when READY or the debug lock changes (R673). -/
def State.attest (s : State) : State := s.attestOn s.portsIn

/-- A link that comes up: the packets in which both ends offer their generation, the lower of the two, CMB, ATTEST, and the
new mapping (R364, R386, R673; one NEG packet each way is DEDUCED, log 103). A request to leave that was posted while it
trained stands (R378, R407). -/
def State.linkUpOp (s : State) (n peer : Nat) : State :=
  let g := min 3 peer
  let oos := s.f (aFabState n) 8 8
  let s := s.setReg (aFabState n) (word (2 + g <<< 2 + g <<< 4 + (bit (g == 1)) <<< 6 + oos <<< 8))
  let s := s.setIsl (160 + n) 0
  let s := (s.sendOn n ⟨nalHdr 0 0x3F s.chip 0 0 0 0 0 3 0 0, []⟩).bump (aFabCntRxpkt n)
  (s.attestOn [n]).portsChanged

/-- LINK_UP: a link that is down or in training comes up with the generation its peer offers. -/
def execLinkUp (port gen : Nat) (s : State) : Out :=
  if port ≥ 16 || gen == 0 || gen > 3 || 2 ≤ s.link port || s.pwr.inReset || s.islState (160 + port) == 2 ||
      decide (s.f aPwrBoot 3 0 < 7) then .next s
  else .next (s.linkUpOp port gen)

/-- An atomic lost with its link completes with outcome 3 (R402). -/
def State.loseAtomics (s : State) (n : Nat) : State :=
  let lost := s.fab.reqs.filter (fun e => e.2.port == n && !e.2.timedOut && 0x08 ≤ pOp e.2.pkt && pOp e.2.pkt ≤ 0x10)
  lost.foldl (fun s e =>
    let s := { s with fab := { s.fab with reqs := tabErase s.fab.reqs e.1 } }
    (s.answerHost [] 3 false).setBit (aFabErr n) 3) s

/-- Puts a request where its place in the order of issue is (R377). -/
def bySerial (r : Req) : List Req → List Req
  | [] => [r]
  | q :: rest => if r.serial ≤ q.serial then r :: q :: rest else q :: bySerial r rest

/-- A port leaves service: its other requests, in the order of their issue, and its undelivered kept packets wait for
reissue (R377, R378, R402, R431). -/
def State.portLost (s : State) (n : Nat) : State :=
  let s := s.loseAtomics n
  let mine := (s.fab.reqs.filter (fun e => e.2.port == n && !e.2.timedOut)).map (·.2)
  let again := (mine.foldl (fun l r => bySerial r l) []).map (fun r => (2, r.pkt))
  let kept := (s.fab.kept.filter (fun e => e.1 == n)).map (fun e => (0, e.2))
  { s with fab := { s.fab with held := again ++ kept ++ s.fab.held, kept := s.fab.kept.filter (fun e => e.1 != n) } }

/-- LINK_DOWN (R402). -/
def execLinkDown (port : Nat) (s : State) : Out :=
  if port ≥ 16 || s.link port == 0 then .next s
  else
    let up := s.link port == 2
    let s := s.setF (aFabState port) 6 0 0
    let s := s.setF (aFabState port) 9 8 0
    let s := s.portLost port
    let s := (s.setBit (aFabErr port) 1).raiseAt cFabLinkDown (160 + port)
    let s := if up then s.depart (160 + port) false else s
    .next s.portsChanged

/-- LINK_RETRY: the link layer reports a retried packet (R401). -/
def execLinkRetry (port : Nat) (pkt : Packet) (s : State) : Out :=
  if port ≥ 16 then .next s
  else
    let s := (s.bump (aFabCntRetry port)).setBit (aFabErr port) 0
    let s := if opIsRequest (pOp pkt) then
        match tabFind s.fab.reqs (pTag pkt) with
        | some r => { s with fab := { s.fab with reqs := tabPut s.fab.reqs (pTag pkt) { r with retried := true } } }
        | none => s
      else s
    let s := if pVc pkt == 3 || pVc pkt == 4 then
        match s.running (pCtx pkt) with
        | some t => s.noteRetry t.desc.ctx t.desc.step 1
        | none => s
      else s
    if pVc pkt == 5 then
      let g := fld (pAddr pkt) 11 0
      match tabFind s.col.groups g with
      | some gr => .next { s with col := { s.col with
          groups := tabPut s.col.groups g { gr with
            run := gr.run.map (fun (r : ColRun) => { r with retried := true }) } } }
      | none => .next s
    else .next s

/-- OOS_REQ: the bit is set, the port takes no new request, and PORT_REMAP takes it out of service when its outstanding
ones are answered (R12, R16, R378, R407). -/
def State.portOut (s : State) (n : Nat) : State := (s.setF (aFabState n) 8 8 1).portsMark

/-- PORT_OOS_REQ (R407). -/
def execPortOosReq (port : Nat) (s : State) : Out :=
  if s.portShut || port ≥ 16 then .next s.refuse else .next (s.portOut port).done

/-- RTS_REQ: the bit is set, and a link that is down or out of service trains; where a request to leave stands, PORT_REMAP
completes that first (R12, R16, R378, R407). LINK_UP, or PORT_REMAP where the link is up already, clears the bit. -/
def State.portBack (s : State) (n : Nat) : State :=
  let s := s.setF (aFabState n) 9 9 1
  if s.flag (aFabState n) 8 || s.link n == 1 || s.link n == 2 then s else s.setF (aFabState n) 1 0 1

/-- PORT_RTS_REQ; a retired port is refused (R601). -/
def execPortRtsReq (port : Nat) (s : State) : Out :=
  if s.portShut || port ≥ 16 || s.islState (160 + port) == 2 then .next s.refuse else .next (s.portBack port).done

/-- LINK_DELIVERY_REPORT: a kept packet has been delivered, and its copy is dropped (R431, R473). -/
def execLinkDeliveryReport (port : Nat) (pkt : Packet) (s : State) : Out :=
  .next { s with fab := { s.fab with kept := s.fab.kept.erase (port, pkt) } }

/-! ## Ownership (R397, R398) -/

/-- OWN from the fabric manager waits until it can apply. -/
def execOwn (port : Nat) (pkt : Packet) (s : State) : Out :=
  s.receive port pkt (· == 0x3E) (fun s => { s with fab := { s.fab with owns := s.fab.owns ++ [(port, pkt)] } })

/-- This engine's writes to a region that are outstanding or held (R397). -/
def State.writesTo (s : State) (region : Nat) : Bool :=
  let touches := fun (p : Packet) =>
    ((pVc p == 1 && pOp p != 0x01) || pOp p == 0x18) && (lineAddr p) >>> 21 == region
  s.fab.reqs.any (fun e => !e.2.timedOut && touches e.2.pkt) || s.fab.held.any (fun e => touches e.2) ||
    s.fab.copies.any (fun e =>
      let a := if e.2.pull then s.rackAddr e.2.dst else (e.2.peer % 128) <<< 39 + e.2.dst % 2 ^ 39
      decide (a >>> 21 ≤ region) && decide (region ≤ (a + e.2.len - 1) >>> 21))

/-- The first index whose entry is not below a region. -/
def State.ownIndex (s : State) (region : Nat) : Nat → Nat → Nat → Nat
  | 0, lo, _ => lo
  | k + 1, lo, hi =>
    if hi ≤ lo then lo
    else
      let m := (lo + hi) / 2
      if fld (s.hbmNat (s.f aMsfOwnBase 47 0 + 8 * m) 8) 24 0 < region then s.ownIndex region k (m + 1) hi
      else s.ownIndex region k lo m

/-- Applies an entry to the table and the cache (R397, R398): its outcome and the state after it. -/
def State.ownChange (s : State) (entry : Nat) : Nat × State :=
  let base := s.f aMsfOwnBase 47 0
  let n := s.f aMsfOwnCount 20 0
  let region := fld entry 24 0
  let i := s.ownIndex region 22 0 n
  let found := decide (i < n) && fld (s.hbmNat (base + 8 * i) 8) 24 0 == region
  let mode := fld entry 45 44
  if mode == 3 || fld entry 63 46 != 0 then (2, s)
  else if mode == 0 then
    let s := { s with fab := { s.fab with ownCache := s.fab.ownCache.filter (fun e => e.1 != region) } }
    if found then
      let rest := s.hbmRead (base + 8 * (i + 1)) (8 * (n - i - 1))
      (0, (s.hbmWrite (base + 8 * i) rest).setF aMsfOwnCount 20 0 (n - 1))
    else (0, s)
  else if found then (0, (s.hbmWrite (base + 8 * i) (natLe 8 entry)).ownFill region entry)
  else if n ≥ 1048576 then (2, s)
  else
    let rest := s.hbmRead (base + 8 * i) (8 * (n - i))
    (0, ((s.hbmWrite (base + 8 * i) (natLe 8 entry ++ rest)).setF aMsfOwnCount 20 0 (n + 1)).ownFill region entry)

/-- OWN_APPLY: the oldest OWN whose region has no write outstanding is applied and acknowledged (R397, R398). -/
def execOwnApply (s : State) : Out :=
  match s.fab.owns.find? (fun e => !s.writesTo (fieldAt e.2.data 0 4 % 2 ^ 25)) with
  | none => .next s
  | some (n, p) =>
    let s := { s with fab := { s.fab with owns := s.fab.owns.erase (n, p) } }
    let r := if (p.data.drop 8).all (· == 0) then s.ownChange (fieldAt p.data 0 8) else (2, s)
    .next (r.2.ackTo_ n p r.1)

/-! ## Fabric-manager messages (R368, R406) -/

/-- Receipt of an FM message of one kind. -/
def State.receiveFm (s : State) (n : Nat) (p : Packet) (kind : Nat) (k : State → State) : Out :=
  s.receiveIf n p (pOp p == 0x3C && pAddr p % 256 == kind) k

/-- FM_TEARDOWN: under the teardown policy, the context the message names is aborted as if it had faulted (R406). -/
def execFmTeardown (port : Nat) (pkt : Packet) (s : State) : Out :=
  s.receiveFm port pkt fmTeardownKind (fun s => if s.flag aMsfCtrl 7 then s.faultCtx (pCtx pkt) 2 else s)

end Sys2Proof.Machine
end

