-- ==== Sys2Proof/Machine/Collectives.lean ====
section
/-! DEFINITION. Collectives (R447 to R489): groups, submission, the trigger chains of the three algorithms, receipt of
pieces, and failure. -/

namespace Sys2Proof.Machine

/-! ## Groups: shape and digest (R447, R451) -/

/-- Racks of a group in list order, when it runs rack by rack. -/
def racksOf (ms : List Nat) : List Nat := (ms.map (· / 128)).eraseDups

/-- Members in each rack of an acceptable list. -/
def perRack (ms : List Nat) : Nat := ms.length / (racksOf ms).length

/-- The list runs rack by rack in ascending rack number, with equal numbers and at most 128 a rack (R449). -/
def racksOk (ms : List Nat) : Bool :=
  let rs := racksOf ms
  let n := perRack ms
  n * rs.length == ms.length && decide (n ≤ 128) &&
    ms.map (· / 128) == rs.flatMap (fun r => List.replicate n r) &&
    (rs.zip (rs.drop 1)).all (fun p => decide (p.1 < p.2))

/-- GDIG (R451). -/
def groupDigest (g ctx : Nat) (ms : List Nat) (lchunk lsmall inbuf : Nat) : Nat :=
  let h := mix (0x43475250#64 ^^^ word g ^^^ word (ctx <<< 12) ^^^ word (ms.length <<< 24) ^^^ word (lchunk <<< 40) ^^^
    word (lsmall <<< 46) ^^^ word (inbuf <<< 52))
  (ms.foldl (fun h m => mix (h ^^^ word m)) h).toNat >>> 32

def State.group (s : State) (g : Nat) : Option ColGroup := tabFind s.col.groups g
def State.setGroup (s : State) (g : Nat) (v : ColGroup) : State :=
  { s with col := { s.col with groups := tabPut s.col.groups g v } }
def State.dropGroup (s : State) (g : Nat) : State :=
  match s.group g with
  | none => s
  | some v => ({ s with col := { s.col with groups := tabErase s.col.groups g } }).freeAll v.bufs

/-- This member's rank (R447, R578). -/
def State.rankIn (s : State) (v : ColGroup) : Nat := v.members.idxOf (s.srcOf v.ctx)

/-- A group in one rack. -/
def oneRack (v : ColGroup) : Bool := (racksOf v.members).length == 1

/-- SMALL in bytes; 0 for no recursive doubling. -/
def smallOf (v : ColGroup) : Nat := if v.lsmall == 0 then 0 else 2 ^ v.lsmall

/-- A context that is loaded: not FREE, UNLOADING or FAULTED (R289). -/
def State.ctxLoaded (s : State) (x : Nat) : Bool := [1, 2, 3, 4, 5].contains (s.ctxState x)

/-! ## Creating, joining, deleting (R448 to R453) -/

/-- Writes STATE of a group descriptor. -/
def State.groupState (s : State) (addr v : Nat) : State := s.hbmWrite (addr + 0x20) [BitVec.ofNat 8 v]

/-- Partners that may send to this member, with their roles: ring predecessors and doubling partners (R452). -/
def sendersOf (v : ColGroup) (r : Nat) : List (Nat × Nat) :=
  let p := v.members.length
  let n := perRack v.members
  let rack := r / n
  let ring := if n ≥ 2 then [(rack * n + (r % n + n - 1) % n, 0)] else []
  let across := if oneRack v then [] else [((r + p - n) % p, 1)]
  let dbl := if v.lsmall == 0 || !oneRack v then []
    else
      let q := 2 ^ Nat.log2 p
      let rounds := (List.range (Nat.log2 p)).map (fun i => r ^^^ (2 ^ i))
      let fold := if r < q && r + q < p then [r + q] else if r ≥ q then [r - q] else []
      ((if r < q then rounds else []) ++ fold).map (fun k => (k, 2))
  ring ++ across ++ dbl

/-- Sends a VC5 packet to a member. -/
def State.colSend (s : State) (v : ColGroup) (op rank len addr tag : Nat) (poison : Bool) (data : Bytes) : State :=
  s.sendKept ⟨nalHdr 5 op (s.srcOf v.ctx) (v.members.getD rank 0) v.ctx len (bit poison) 0 addr tag 0, data⟩

/-- A group becomes ready: STATE 1 and the initial credits (R451, R452). -/
def State.groupReady (s : State) (g : Nat) (v : ColGroup) : State :=
  let s := (s.setGroup g { v with ready := true }).groupState v.addr 1
  (sendersOf v (s.rankIn v)).foldl (fun s e =>
    let lines := if e.2 == 2 then 0 else v.inbuf * 16384
    s.colSend v 0x34 e.1 0 (g + e.2 <<< 12 + lines <<< 24) 0 false []) s

/-- Steps whose collectives are queued in a group that is deleted abort, as those of one that fails do (R460; DESIGN CHOICE,
log 106). -/
def State.orphanSteps (s : State) (g : Nat) (v : ColGroup) : State :=
  v.queue.foldl (fun s q =>
    match q.step.bind (s.stepOf q.ctx) with
    | none => s
    | some t =>
      let t := { t with asyncs := t.asyncs.filter (· != AsyncOp.coll g q.seq) }
      (s.setStep t).abortStep t 0x33) s

/-- A CJOIN from the predecessor is compared with the group (R451). -/
def State.joinOp (s : State) (g : Nat) (v : ColGroup) (p : Packet) : State :=
  let pred := (s.rankIn v + v.members.length - 1) % v.members.length
  if pSrc p != v.members.getD pred 0 || v.ready then s
  else if fld (pAddr p) 43 12 == v.gdig then s.groupReady g v
  else (((s.groupState v.addr 3).errBit aColErr 5 cColGroup).dropGroup g).orphanSteps g v

/-- Buffers of a group's reservation, as (class, count) (R450). -/
def groupBuffers (ms : List Nat) (lsmall inbuf : Nat) : List (Nat × Nat) :=
  let roles := if (racksOf ms).length == 1 then 1 else 2
  let dbl := if lsmall == 0 then []
    else
      match classFor (8 * 2 ^ lsmall) with
      | some c => [(c, 3)]
      | none => [(5, 3 * (8 * 2 ^ lsmall / 2097152))]
  (5, 2 * inbuf * roles) :: dbl

/-- Allocates several classes, all or none. -/
def State.allocSet (s : State) (x : Nat) (need : List (Nat × Nat)) : Option (List Nat) × State :=
  need.foldl (fun acc e =>
    match acc.1 with
    | none => acc
    | some hs =>
      match acc.2.allocN e.1 e.2 (chargeOf x (acc.2.ctxPart x)) 1 with
      | (some got, s') => (some (hs ++ got), s')
      | (none, s') => (none, hs.foldl State.giveBack s')) (some [], s)

/-- The checks of R449 that the descriptor alone decides: (group, context, members, lchunk, lsmall, inbuf). -/
def State.groupDesc (s : State) (a : Nat) : Option (Nat × Nat × List Nat × Nat × Nat × Nat) :=
  let w0 := s.hbmNat a 8
  let n := s.hbmNat (a + 8) 8
  let ma := s.hbmNat (a + 0x10) 8
  let w3 := s.hbmNat (a + 0x18) 8
  let lchunk := fld w3 4 0
  let lsmall := fld w3 12 8
  let inbuf := fld w3 21 16
  if s.hbmPoisoned a 64 || fld w0 15 12 != 0 || fld w0 63 28 != 0 || n < 2 || n > 16384 || ma % 64 != 0 || ma ≥ 2 ^ 48 ||
      fld w3 7 5 != 0 || fld w3 15 13 != 0 || fld w3 63 22 != 0 || lchunk < 14 || lchunk > 20 ||
      !(lsmall == 0 || (decide (10 ≤ lsmall) && decide (lsmall ≤ lchunk))) || inbuf == 0 || inbuf > 32 ||
      s.hbmNat (a + 0x20) 8 >>> 8 != 0 || s.hbmNat (a + 0x28) 24 != 0 || s.hbmPoisoned ma (2 * n) then none
  else
    let ms := (List.range n).map (fun i => s.hbmNat (ma + 2 * i) 2)
    some (fld w0 11 0, fld w0 27 16, ms, lchunk, lsmall, inbuf)

/-- A write of COL_GRP with OP 1 (R448 to R451). -/
def execColGrpCreate (v : Word) (s : State) : Out :=
  let a := fld v.toNat 47 0
  if s.tenantShut || s.hbmPoisoned a 64 then .next s.refuse
  else
    let no := (s.groupState a 2).refuse
    match s.groupDesc a with
    | none => .next no
    | some (g, x, ms, lchunk, lsmall, inbuf) =>
      if (s.group g).isSome || s.col.groups.length ≥ 256 || !s.ctxLoaded x || !ms.contains (s.srcOf x) ||
          ms.eraseDups.length != ms.length || ms.any (· ≥ 16384) || !racksOk ms ||
          !s.portsIn.any (fun n => s.gen n ≥ 2) then .next no
      else
        match s.allocSet x (groupBuffers ms lsmall inbuf) with
        | (none, s') => .next (s'.groupState a 2).refuse
        | (some bufs, s') =>
          let gr : ColGroup := {
            ctx := x, addr := a, members := ms, lchunk := lchunk, lsmall := lsmall, inbuf := inbuf,
            gdig := groupDigest g x ms lchunk lsmall inbuf, ready := false, broken := false, seq := 0, queue := [],
            run := none, credit := [], granted := [], freed := [], early := [], fails := [], bufs := bufs }
          let s := s'.setGroup g gr
          let s := s.colSend gr 0x32 ((s.rankIn gr + 1) % ms.length) 0 (g + gr.gdig <<< 12) 0 false []
          let s := match tabFind s.col.joins g with
            | some p => ({ s with col := { s.col with joins := tabErase s.col.joins g } }).joinOp g gr p
            | none => s
          .next s.done

/-- A write of COL_GRP with OP 2 (R453). -/
def execColGrpDelete (v : Word) (s : State) : Out :=
  let g := fld v.toNat 59 48
  if s.tenantShut then .next s.refuse
  else
    match s.group g with
    | none => .next s.refuse
    | some gr => if gr.run.isSome || !gr.queue.isEmpty then .next s.refuse else .next (s.dropGroup g).done

/-- CJOIN (R451). -/
def execCjoin (port : Nat) (pkt : Packet) (s : State) : Out :=
  s.receive port pkt (· == 0x32) (fun s =>
    let g := fld (pAddr pkt) 11 0
    match s.group g with
    | none => { s with col := { s.col with joins := tabPut s.col.joins g pkt } }
    | some gr => s.joinOp g gr pkt)

/-- CCRED (R452, R472). -/
def execCcred (port : Nat) (pkt : Packet) (s : State) : Out :=
  s.receive port pkt (· == 0x34) (fun s =>
    let g := fld (pAddr pkt) 11 0
    match s.group g with
    | none => s
    | some gr =>
      let key := gr.members.idxOf (pSrc pkt) * 4 + fld (pAddr pkt) 13 12
      s.setGroup g { gr with
        granted := setInsert gr.granted key
        credit := tabSet 0 gr.credit key (tabGet 0 gr.credit key + fld (pAddr pkt) 47 24) })

/-! ## Submission (R454 to R457) -/

/-- Bytes of an element of a TYPE. -/
def colBytes (type : Nat) : Nat := if type == 0 || type == 3 then 4 else 2

/-- First unit of each segment, and one past the last element of the vector (R455). -/
def segStarts : Nat → List ColSeg → List (Nat × ColSeg)
  | _, [] => []
  | u, g :: rest => (u, g) :: segStarts (u + (g.n + 31) / 32) rest

/-- Elements of a vector, padding included (R455). -/
def vectorElems (segs : List ColSeg) : Nat :=
  match (segStarts 0 segs).getLast? with
  | some (u, g) => 32 * u + g.n
  | none => 0

/-- The segments of a descriptor, addresses resolved; none where its table is refused (R454, R455, R762). -/
def State.colSegs (s : State) (d : Bytes) (adr : Nat → Nat) : Option (List ColSeg) :=
  let n := fieldAt d 0x18 8
  if !bitAt (fieldAt d 0 8) 17 then some [⟨adr (fieldAt d 8 8), adr (fieldAt d 0x10 8), n⟩]
  else if n > 256 || s.hbmPoisoned (adr (fieldAt d 8 8)) (32 * n) then none
  else
    let t := adr (fieldAt d 8 8)
    let es := (List.range n).map (fun i => s.hbmRead (t + 32 * i) 32)
    if es.all (fun e => fieldAt e 0x10 4 < 2 ^ 27 && fieldAt e 0x10 4 != 0 && (e.drop 20).all (· == 0)) then
      some (es.map (fun e => ⟨fieldAt e 0 8, fieldAt e 8 8, fieldAt e 0x10 4⟩))
    else none

/-- Byte ranges of n bytes at a and of m at b overlap without being equal (R456). -/
def badOverlap (a b n m : Nat) : Bool := !(a == b && n == m) && decide (a < b + m) && decide (b < a + n)

/-- The request a descriptor describes, when R456 accepts it; a refusal may name a failed window check. -/
def State.colRequest (s : State) (d : Bytes) (x : Nat) (step : Option Word) (bases : List Nat) (ofs : Nat) :
    ColReq ⊕ Option CheckFail :=
  let w := fieldAt d 0 8
  let adr := fun v => if step.isSome then resolve bases v else v
  let rel := fun c => if step.isSome then (c + ofs) % 65536 else c
  let type := fld w 15 12
  let b := colBytes type
  match s.colSegs d adr with
  | none => .inr none
  | some segs =>
    match s.group (fld w 11 0) with
    | none => .inr none
    | some g =>
      let c := fieldAt d 0x20 8
      if !collDescOk d || adr (fieldAt d 0x30 8) % 16 != 0 || g.ctx != x || g.queue.length ≥ 64 || vectorElems segs > 2 ^ 26 ||
          segs.any (fun a => a.src + a.n * b > 2 ^ 48 || a.dst + a.n * b > 2 ^ 48) ||
          segs.any (fun a => segs.any (fun e => badOverlap a.dst e.src (a.n * b) (e.n * b))) then .inr none
      else
        match segs.findSome? (fun a =>
          match s.checkLocal x a.src (a.n * b) permRd false with
          | some e => some e
          | none => s.checkLocal x a.dst (a.n * b) permCdst false) with
        | some e => .inr (some e)
        | none => .inl {
            seq := g.seq, ctx := x, step := step, type := type, ordered := bitAt w 16, pack := bitAt w 17,
            w := signed8 (fld w 31 24), segs := segs, nelem := vectorElems segs,
            cinc := if bitAt w 19 then some (rel (fld c 15 0)) else none,
            trig := if bitAt w 18 then some (rel (fld c 31 16), fieldAt d 0x28 8) else none,
            status := adr (fieldAt d 0x30 8) }

/-- Queues an accepted request under the group's next SEQ (R457). -/
def State.queueCol (s : State) (g : Nat) (q : ColReq) : State :=
  match s.group g with
  | none => s
  | some v => s.setGroup g { v with queue := v.queue ++ [q], seq := (v.seq + 1) % 2 ^ 32 }

/-- A write of COL_SUBMIT (R454, R456, R762). -/
def execColSubmit (v : Word) (s : State) : Out :=
  let a := fld v.toNat 47 0
  if s.tenantShut || a % 64 != 0 || s.hbmPoisoned a 64 then .next s.refuse
  else
    let d := s.hbmRead a 64
    match s.colRequest d (fld v.toNat 59 48) none [] 0 with
    | .inr (some e) => .next (s.checkRefused e).refuse
    | .inr none => .next s.refuse
    | .inl q => .next (s.queueCol (fld (fieldAt d 0 8) 11 0) q).done

/-! ## Values (R461 to R464) -/

/-- Units of a vector. -/
def unitsOf (q : ColReq) : Nat := (q.nelem + 31) / 32

/-- Window of a collective: INT32 uses 15 (R62). -/
def colW (q : ColReq) : Int := if q.type == 3 then 15 else q.w

/-- The float format of a TYPE. -/
def colFmt (type : Nat) : FloatFmt := if type == 1 then .bf16 else if type == 2 then .fp16 else .fp32

/-- Value of an element's bits. -/
def colValue (type bits : Nat) : Num := if type == 3 then numOfInt (signedN 32 bits) else floatDecode (colFmt type) bits

/-- Where element k of unit u lies: the address in SRC and in DST, none for padding (R455). -/
def elemAt (q : ColReq) (u k : Nat) : Option (Nat × Nat) :=
  (segStarts 0 q.segs).findSome? (fun e =>
    let i := 32 * u + k - 32 * e.1
    if decide (e.1 ≤ u) && decide (i < e.2.n) && decide (u < e.1 + (e.2.n + 31) / 32) then
      some (e.2.src + i * colBytes q.type, e.2.dst + i * colBytes q.type) else none)

/-- This member's contribution to unit u (R463, R464): none where its input reads poisoned. -/
def State.ownUnit (s : State) (q : ColReq) (u : Nat) : Option ColUnit :=
  let cells := (List.range 32).map (fun k => (elemAt q u k).map (·.1))
  if cells.any (fun c => c.elim false (fun a => s.hbmPoisoned a (colBytes q.type))) then none
  else
    let vals := cells.map (fun c => c.elim numZero (fun a => colValue q.type (s.hbmNat a (colBytes q.type))))
    if q.ordered then
      some { vals := vals.map (fun v => ((floatNarrow false .fp32 v).1 : Int)), nanf := false, ovf := false }
    else
      let ts := vals.map (c128Term (colW q))
      some { vals := ts.map (·.1), nanf := ts.any (·.2.2), ovf := ts.any (·.2.1) }

/-- A finite binary32 pattern. -/
def finite32 (b : Int) : Bool := fld b.toNat 30 23 != 255

/-- The sum of two partials (R59, R464). -/
def combine (ordered : Bool) (a b : ColUnit) : ColUnit :=
  if ordered then
    let vs := (a.vals.zip b.vals).map (fun p =>
      ((floatNarrow false .fp32 (numAdd (floatDecode .fp32 p.1.toNat) (floatDecode .fp32 p.2.toNat))).1 : Int))
    let ovf := ((a.vals.zip b.vals).zip vs).any (fun p =>
      finite32 p.1.1 && finite32 p.1.2 && fld p.2.toNat 30 0 == 0x7F800000)
    { vals := vs, nanf := a.nanf || b.nanf, ovf := a.ovf || b.ovf || ovf }
  else
    { vals := (a.vals.zip b.vals).map (fun p => p.1 + p.2), nanf := a.nanf || b.nanf, ovf := a.ovf || b.ovf }

/-- The rounded result of a unit (R61, R62, R464). -/
def roundUnit (q : ColReq) (a : ColUnit) : ColUnit :=
  let f := colFmt q.type
  if q.ordered then
    let rs := a.vals.map (fun v => floatNarrow true f (floatDecode .fp32 v.toNat))
    { vals := rs.map (fun r => (r.1 : Int)), nanf := a.nanf, ovf := a.ovf || (q.type != 0 && rs.any (·.2)) }
  else if q.type == 3 then
    let vs := a.vals.map (fun v => v / 2 ^ 81)
    let sat := vs.map satInt32
    { vals := sat.map (fun v => (wrapN 32 v : Int)), nanf := a.nanf, ovf := a.ovf || vs != sat }
  else if a.nanf then { vals := a.vals.map (fun _ => (floatNaNBits f : Int)), nanf := true, ovf := a.ovf }
  else
    let rs := a.vals.map (windowRelease f (colW q - 96))
    { vals := rs.map (fun r => (r.1 : Int)), nanf := false, ovf := a.ovf || rs.any (·.2) }

/-! ## Chains (R465 to R468, R474) -/

/-- One triggered operation of a chain. -/
structure ColOp where
  /-- PHASE and ROUND of the CDATA lines it waits for -/
  lines : Option (Nat × Nat)
  /-- it waits for the rounded results, or for the held partials, of its units -/
  needRes : Bool
  useHold : Bool
  /-- it waits for the operation before it -/
  inOrder : Bool
  /-- 0 send the partial, 1 hold it, 2 round and write it, 3 send the rounded result, 4 only wait -/
  act : Nat
  dst : Nat
  phase : Nat
  round : Nat
  u0 : Nat
  u1 : Nat
  deriving DecidableEq, Repr, Inhabited

/-- Bounds of block j of `parts` over units a to b (R462). -/
def blockOf (a b parts j : Nat) : Nat × Nat := (a + (b - a) * j / parts, a + (b - a) * (j + 1) / parts)

/-- The reduce-scatter of a ring (R467): place i of p, over units a to b, partials from the input or held ones. -/
def scatterOps (ph i p succ a b : Nat) (hold : Bool) : List ColOp :=
  (List.range (p - 1)).map (fun k =>
    let bl := blockOf a b p ((i + 2 * p - 1 - k) % p)
    { lines := if k == 0 then none else some (ph, k - 1), needRes := false, useHold := hold, inOrder := false,
      act := 0, dst := succ, phase := ph, round := k, u0 := bl.1, u1 := bl.2 })

/-- The all-gather of a ring (R467): place i of p over units a to b. -/
def gatherOps (ph i p succ a b : Nat) : List ColOp :=
  (List.range p).map (fun k =>
    let bl := blockOf a b p ((i + p - k) % p)
    { lines := none, needRes := true, useHold := false, inOrder := false, act := if k == p - 1 then 4 else 3,
      dst := succ, phase := ph, round := k, u0 := bl.1, u1 := bl.2 })

/-- The operation that finishes this participant's block (R467): it adds its own contribution to what round p − 2
brought. -/
def finishOp (ph i p a b act : Nat) (hold : Bool) : ColOp :=
  let bl := blockOf a b p i
  { lines := if p ≥ 2 then some (ph, p - 2) else none, needRes := false, useHold := hold, inOrder := false, act := act,
    dst := 0, phase := ph, round := 0, u0 := bl.1, u1 := bl.2 }

/-- Recursive doubling at rank r of p over u units (R466). A fold travels as round 0 and is kept as round 127. -/
def doublingOps (r p u : Nat) : List ColOp :=
  let k := Nat.log2 p
  let q := 2 ^ k
  let op := fun (lines : Option (Nat × Nat)) (hold : Bool) (act dst round : Nat) => ({
    lines := lines, needRes := false, useHold := hold, inOrder := true, act := act, dst := dst, phase := 0,
    round := round, u0 := 0, u1 := u } : ColOp)
  if r ≥ q then
    [op none false 0 (r - q) 0, { op none false 4 0 0 with needRes := true }]
  else
    let start := op (if r + q < p then some (0, 127) else none) false 1 0 0
    let rounds := (List.range k).flatMap (fun i =>
      [op none true 0 (r ^^^ (2 ^ i)) i, op (some (0, i)) true 1 0 i])
    let fin := op none true 2 0 0
    let unfold := if r + q < p then [{ op none false 3 (r + q) 0 with needRes := true }] else []
    [start] ++ rounds ++ [fin] ++ unfold

/-- Units of chunk c of a vector (R462). -/
def chunkUnits (v : ColGroup) (q : ColReq) (c : Nat) : Nat × Nat :=
  let per := 2 ^ v.lchunk / colBytes q.type / 32
  (c * per, min ((c + 1) * per) (unitsOf q))

/-- The whole chain of a collective at rank r, chunk by chunk (R465 to R468, R474). -/
def chainOps (v : ColGroup) (q : ColReq) (r : Nat) : List ColOp :=
  let p := v.members.length
  if oneRack v && decide (q.nelem * colBytes q.type ≤ smallOf v) then doublingOps r p (unitsOf q)
  else
    (List.range (chunkCount v q)).flatMap (fun c =>
      let cu := chunkUnits v q c
      if oneRack v then
        scatterOps 1 r p ((r + 1) % p) cu.1 cu.2 false ++ [finishOp 1 r p cu.1 cu.2 2 false] ++
          gatherOps 1 r p ((r + 1) % p) cu.1 cu.2
      else
        let n := perRack v.members
        let racks := p / n
        let i := r % n
        let k := r / n
        let next := k * n + (i + 1) % n
        let tooFar := (r + n) % p
        let bl := blockOf cu.1 cu.2 n i
        scatterOps 1 i n next cu.1 cu.2 false ++ [finishOp 1 i n cu.1 cu.2 1 false] ++
          scatterOps 2 k racks tooFar bl.1 bl.2 true ++ [finishOp 2 k racks bl.1 bl.2 2 true] ++
          gatherOps 2 k racks tooFar bl.1 bl.2 ++ gatherOps 3 i n next cu.1 cu.2)

/-! ## Lines and packets (R469, R470) -/

/-- Lines of CDATA per unit: 4 of 8 C128 elements, or 1 of 32 FP32 elements. -/
def linesPerUnit (q : ColReq) : Nat := if q.ordered then 1 else 4

/-- Key of a received CDATA line. -/
def lineKey (ph round line : Nat) : Nat := (ph * 128 + round) * 2 ^ 24 + line

/-- Line l of a unit's partial. -/
def partialLine (q : ColReq) (a : ColUnit) (l : Nat) : Bytes :=
  if q.ordered then a.vals.flatMap (fun v => natLe 4 v.toNat)
  else ((a.vals.drop (8 * l)).take 8).flatMap (fun v => natLe 16 (wrapN 128 v))

/-- The unit that received lines make, once all are there. -/
def stagedUnit (q : ColReq) (r : ColRun) (ph round u : Nat) : Option ColUnit :=
  let n := linesPerUnit q
  let ls := (List.range n).map (fun l => tabFind r.lines (lineKey ph round (n * u + l)))
  if ls.any (·.isNone) then none
  else
    let bs := ls.flatMap (fun o => o.elim [] (·.1))
    let vals := if q.ordered then (List.range 32).map (fun k => (fieldAt bs (4 * k) 4 : Int))
      else (List.range 32).map (fun k => signedN 128 (fieldAt bs (16 * k) 16))
    some { vals := vals, nanf := ls.any (fun o => o.elim false (·.2.1)), ovf := ls.any (fun o => o.elim false (·.2.2)) }

/-- The contribution digest (R477). -/
def colDigest (q : ColReq) : Nat :=
  let nseg := if q.pack then q.segs.length else 0
  let h := mix (0x434F4C33#64 ^^^ word (q.type ^^^ ((bit q.ordered) <<< 4) ^^^ ((q.w % 256).toNat <<< 8) ^^^ (1 <<< 16) ^^^
    (nseg <<< 24) ^^^ (q.nelem <<< 36)))
  ((q.segs.take nseg).foldl (fun h g => mix (h ^^^ word g.n)) h).toNat >>> 32

/-- Residues modulo 127 of the 4-byte words of the data lines. -/
def residues (data : Bytes) : Bytes := (List.range (data.length / 4)).map (fun i => BitVec.ofNat 8 (fieldAt data (4 * i) 4 % 127))

/-- A trailer line. -/
def trailer (digest flags : Nat) (data : Bytes) : Bytes :=
  let b := natLe 4 digest ++ natLe 1 flags ++ [0, 0, 0] ++ residues data
  b ++ List.replicate (128 - b.length) 0

/-- First line, one past the last, of units u0 to u1 in CRES lines of TYPE. -/
def resLines (q : ColReq) (u0 u1 : Nat) : Nat × Nat :=
  if colBytes q.type == 4 then (u0, u1) else (u0 / 2, if u0 == u1 then u0 / 2 else (u1 + 1) / 2)

/-- Bytes of a CRES line: the results of its units that lie from u0 to u1, zeros for the rest. -/
def resLine (q : ColReq) (r : ColRun) (u0 u1 l : Nat) : Bytes :=
  let per := if colBytes q.type == 4 then 1 else 2
  (List.range per).flatMap (fun i =>
    let u := per * l + i
    let a := if decide (u0 ≤ u) && decide (u < u1) then tabFind r.res u else none
    (List.range 32).flatMap (fun k => natLe (colBytes q.type) (a.elim 0 (fun a => (a.vals.getD k 0).toNat))))

/-- The role whose credit a PHASE uses: none for doubling (R472). -/
def roleOf (ph : Nat) : Nat := if ph == 0 then 2 else if ph == 2 then 1 else 0

/-- Data and flags of packet i of an operation that sends: at most three data lines from its first (R470). -/
def opPacket (q : ColReq) (r : ColRun) (o : ColOp) (val : Nat → ColUnit) (i : Nat) : Nat × Nat × Bytes :=
  if o.act == 3 then
    let ls := resLines q o.u0 o.u1
    let first := ls.1 + 3 * i
    let n := min 3 (ls.2 - first)
    let data := (List.range n).flatMap (fun k => resLine q r o.u0 o.u1 (first + k))
    let per := if colBytes q.type == 4 then 1 else 2
    let us := ((List.range (n * per)).map (· + per * first)).filter (fun u => decide (o.u0 ≤ u) && decide (u < o.u1))
    let f := fun (g : ColUnit → Bool) => bit (us.any (fun u => (tabFind r.res u).elim false g))
    (first, n, data ++ trailer (colDigest q) (f (·.ovf) + 2 * f (·.nanf)) data)
  else
    let lpu := linesPerUnit q
    let first := lpu * o.u0 + 3 * i
    let n := min 3 (lpu * o.u1 - first)
    let ls := (List.range n).map (· + first)
    let data := ls.flatMap (fun l => partialLine q (val (l / lpu)) (l % lpu))
    let flags := (List.range n).foldl (fun f k =>
      let a := val ((first + k) / lpu)
      f + (bit a.nanf) <<< k + (bit a.ovf) <<< (4 + k)) 0
    (first, n, data ++ trailer (colDigest q) flags data)

/-- Data lines an operation sends. -/
def opLines (q : ColReq) (o : ColOp) : Nat :=
  if o.act == 3 then (resLines q o.u0 o.u1).2 - (resLines q o.u0 o.u1).1 else linesPerUnit q * (o.u1 - o.u0)

/-- Packets an operation sends. -/
def opPackets (q : ColReq) (o : ColOp) : Nat := (opLines q o + 2) / 3

/-! ## Ending (R459, R480 to R483) -/

/-- Marks the running collective of a group as ended with a cause; `told` when a CFAIL said so. -/
def State.colFail (s : State) (g cause : Nat) (told : Bool) : State :=
  match s.group g with
  | none => s
  | some v => s.setGroup g { v with
      run := v.run.map (fun r => if r.ended.isNone then { r with ended := some (cause, told) } else r) }

/-- Writes result elements of a unit to the output (R479). -/
def State.writeUnit (s : State) (q : ColReq) (u : Nat) (a : ColUnit) : State :=
  let b := colBytes q.type
  let cells := (List.range 32).filterMap (fun k => (elemAt q u k).map (fun c => (c.2, natLe b (a.vals.getD k 0).toNat)))
  match cells with
  | [] => s
  | (d, _) :: _ =>
    let bs := cells.flatMap (·.2)
    (s.hbmPatch d bs false).chargeHbm q.ctx bs.length

/-- COL_ERR bit and attention of a cause that has them (R459, R488). -/
def State.colAttention (s : State) (cause : Nat) : State :=
  if cause == 1 then s.errBit aColErr 0 cColMismatch
  else if cause == 2 then s.errBit aColErr 1 cColLost
  else if cause == 3 then s.errBit aColErr 2 cColPayload
  else if cause == 4 then s.errBit aColErr 4 cColProto
  else if cause == 6 then s.errBit aColErr 5 cColGroup
  else if cause == 7 then s.errBit aColErr 3 cColAdder else s

/-- Sends CFAIL with a cause to every other member (R480, R482). -/
def State.sendFails (s : State) (g : Nat) (v : ColGroup) (seq cause : Nat) : State :=
  (List.range v.members.length).foldl (fun s r =>
    if v.members.getD r 0 == s.srcOf v.ctx then s else s.colSend v 0x33 r 0 (g + seq <<< 12) cause false []) s

/-- The value an undefined output byte takes: free (R483, log 3). -/
def freeBytes (from_ n : Nat) : Bytes := (List.range n).map (fun i => (Config.freeByte (from_ + i)))

/-- The output of a failed collective is undefined (R483): its bytes take free values. -/
def State.spoilOutput (s : State) (q : ColReq) : State :=
  q.segs.foldl (fun s g =>
    let n := g.n * colBytes q.type
    { s.hbmPatch g.dst (freeBytes s.freeCtr n) false with freeCtr := s.freeCtr + n }) s

/-- Writes the status record (R459). -/
def State.colStatus (s : State) (r : ColRun) (outcome cause : Nat) : State :=
  if r.req.status == 0 then s
  else
    let w := s.stat outcome + cause <<< 8 + (bit r.ovf) <<< 12 + (bit r.nanf) <<< 13 + (r.req.seq % 2 ^ 32) <<< 16 + 1 <<< 63
    let s := s.hbmPatch (r.req.status + 8) (natLe 8 (colDigest r.req)) false
    (s.hbmPatch r.req.status (natLe 8 w) false).chargeHbm r.req.ctx 16

/-- Every operation of the chain has fired. -/
def chainDone (v : ColGroup) (r : ColRun) (rank : Nat) : Bool :=
  (List.range (chainOps v r.req rank).length).all (fun i => r.fired.contains i)

/-- Counts lines of staging as freed, and returns credit at 256 (R472). -/
def State.freeLines (s : State) (g : Nat) (rank role n : Nat) : State :=
  match s.group g with
  | none => s
  | some v =>
    if role == 2 then s
    else
      let key := rank * 4 + role
      let k := tabGet 0 v.freed key + n
      if k < 256 then s.setGroup g { v with freed := tabSet 0 v.freed key k }
      else (s.setGroup g { v with freed := tabSet 0 v.freed key 0 }).colSend v 0x34 rank 0
        (g + role <<< 12 + k <<< 24) 0 false []

/-- What a collective's pieces still take of the staging is freed when it ends, and its credit returned (R472). -/
def State.freeStaged (s : State) (g : Nat) (r : ColRun) : State :=
  r.staged.foldl (fun s e => s.freeLines g (e.1 / 4) (e.1 % 4) e.2) s

/-- A collective ends: done, or failed with a cause that a CFAIL may have told (R459, R460, R480 to R483, R489). -/
def State.endCol (s : State) (g : Nat) (r : ColRun) (failed : Bool) (cause : Nat) (told : Bool) : State :=
  let outcome := if !failed then bit r.retried else if cause == 1 then 2 else 3
  let s := if outcome == 3 then s.spoilOutput r.req else s
  let s := match s.group g with
    | some v => s.setGroup g { v with run := none, broken := v.broken || outcome == 3 }
    | none => s
  let s := s.freeStaged g r
  let s := if failed then s.colAttention cause else s
  let s := if r.ovf then s.raise cColOvf else s
  let s := if r.ovf && r.req.status != 0 then s.bump aColCntOvf else s
  let s := s.colStatus r outcome cause
  let s := s.bump (if outcome ≤ 1 then aColCntDone else aColCntFail)
  let s := if !failed || told then s
    else match s.group g with
      | some v => s.sendFails g v r.req.seq cause
      | none => s
  let s := match r.req.cinc with
    | some c => { s with col := { s.col with counts := s.col.counts ++ [(g, c)] } }
    | none => s
  match r.req.step with
  | some st =>
    let s := s.modStep r.req.ctx st (fun t => { t with asyncs := t.asyncs.filter (· != AsyncOp.coll g r.req.seq) })
    let s := if r.retried then s.noteRetry r.req.ctx st 1 else s
    if outcome ≥ 2 then
      match s.stepOf r.req.ctx st with
      | some t => s.abortStep t 0x33
      | none => s
    else s
  | none => s

/-- COLLECTIVE_END. A group whose context has been torn down goes with its last collective (R453). -/
def execCollectiveEnd (g : Nat) (s : State) : Out :=
  match s.group g with
  | none => .next s
  | some v =>
    match v.run with
    | none => .next s
    | some r =>
      let finish := fun (s : State) =>
        if s.ctxState v.ctx == 7 && v.queue.isEmpty then s.dropGroup g else s
      match r.ended with
      | some (cause, told) => .next (finish (s.endCol g r true cause told))
      | none => if chainDone v r (s.rankIn v) then .next (finish (s.endCol g r false 0 false)) else .next s

/-- COLLECTIVE_COUNT: the oldest due increment of the group's ended collectives (R459). -/
def execCollectiveCount (g : Nat) (s : State) : Out :=
  match s.col.counts.find? (fun e => e.1 == g) with
  | none => .next s
  | some e => .next ({ s with col := { s.col with counts := s.col.counts.erase e } }.countUp e.2 1)

/-! ## Receipt of pieces (R471, R472, R478) -/

/-- The block a CRES of a phase and round carries to a member of rank r, within the chunk that holds a unit
(R466 to R468). -/
def resBlock (v : ColGroup) (q : ColReq) (r ph round u : Nat) : Nat × Nat :=
  let p := v.members.length
  let per := 2 ^ v.lchunk / colBytes q.type / 32
  let cu := chunkUnits v q (u / per)
  if ph == 0 then (0, unitsOf q)
  else if ph == 1 then blockOf cu.1 cu.2 p ((r + 2 * p - 1 - round) % p)
  else
    let n := perRack v.members
    let bl := blockOf cu.1 cu.2 n (r % n)
    if ph == 2 then blockOf bl.1 bl.2 (p / n) ((r / n + 2 * (p / n) - 1 - round) % (p / n))
    else blockOf cu.1 cu.2 n ((r % n + 2 * n - 1 - round) % n)

/-- A packet's trailer agrees with its data lines (R470). -/
def residueOk (d : Bytes) : Bool :=
  let data := d.take (d.length - 128)
  let t := d.drop (d.length - 128)
  ((t.drop 8).take (data.length / 4)) == residues data

/-- The rounded result of unit u in a CRES line. -/
def lineUnit (q : ColReq) (line : Bytes) (i : Nat) (ovf nanf : Bool) : ColUnit :=
  let b := colBytes q.type
  { vals := (List.range 32).map (fun k => (fieldAt line (32 * b * i + b * k) b : Int)), ovf := ovf, nanf := nanf }

/-- A checked piece of the running collective: CDATA lines are staged, CRES elements written (R478, R479). -/
def State.acceptPiece (s : State) (g : Nat) (v : ColGroup) (r : ColRun) (p : Packet) (rank : Nat) : State :=
  let q := r.req
  let ph := fld (pTag p) 8 7
  let round := fld (pTag p) 6 0
  let first := fld (pAddr p) 47 24
  let n := pLen p - 1
  let flags := fieldAt p.data (128 * n + 4) 1
  let r := { r with lastPiece := some s.tclk }
  if pOp p == 0x30 then
    let kept := if ph == 0 && rank ≥ 2 ^ Nat.log2 v.members.length then 127 else round
    let lines := (List.range n).foldl (fun t i =>
      tabPut t (lineKey ph kept (first + i)) (sliceBytes p.data (128 * i) 128, bitAt flags i, bitAt flags (4 + i))) r.lines
    let key := rank * 4 + roleOf ph
    s.setGroup g { v with run := some { r with
      lines := lines, staged := tabSet 0 r.staged key (tabGet 0 r.staged key + pLen p) } }
  else
    let per := if colBytes q.type == 4 then 1 else 2
    let us := ((List.range (n * per)).map (· + per * first)).filter (fun u =>
      let b := resBlock v q (s.rankIn v) ph round u
      decide (b.1 ≤ u) && decide (u < b.2))
    let val := fun u => lineUnit q (sliceBytes p.data (128 * (u / per - first)) 128) (u % per) (bitAt flags 0) (bitAt flags 1)
    let s := us.foldl (fun s u => s.writeUnit q u (val u)) s
    let r := { r with
      res := us.foldl (fun t u => tabPut t u (val u)) r.res
      ovf := r.ovf || bitAt flags 0, nanf := r.nanf || bitAt flags 1 }
    (s.setGroup g { v with run := some r }).freeLines g rank (roleOf ph) (pLen p)

/-- A piece is one that this member's chain takes from that member in its phase and round (R466 to R470): CDATA lines that
an operation waits for, or CRES lines of a block. -/
def State.pieceFits (s : State) (v : ColGroup) (q : ColReq) (p : Packet) : Bool :=
  let rank := v.members.idxOf (pSrc p)
  let r := s.rankIn v
  let ph := fld (pTag p) 8 7
  let round := fld (pTag p) 6 0
  let first := fld (pAddr p) 47 24
  let last := first + pLen p - 1
  let top := 2 ^ Nat.log2 v.members.length
  let ops := chainOps v q r
  if fld (pTag p) 16 9 != 0 || rank ≥ v.members.length ||
      !(sendersOf v r).any (fun e => e.1 == rank && e.2 == roleOf ph) then false
  else if pOp p == 0x30 then
    let kept := if ph == 0 && rank ≥ top then 127 else round
    let lpu := linesPerUnit q
    (ph != 0 || (if rank ≥ top then round == 0 else rank == r ^^^ 2 ^ round)) &&
      ops.any (fun o => o.lines == some (ph, kept) && decide (lpu * o.u0 ≤ first) && decide (last ≤ lpu * o.u1))
  else if ph == 0 then
    ops.any (fun o => o.phase == 0) && rank + top == r && round == 0 && decide (last ≤ (resLines q 0 (unitsOf q)).2)
  else
    ops.any (fun o => o.phase == ph && o.act == 3 && o.round == round) &&
      (List.range (chunkCount v q)).any (fun c =>
        let b := resBlock v q r ph round (chunkUnits v q c).1
        decide ((resLines q b.1 b.2).1 ≤ first) && decide (last ≤ (resLines q b.1 b.2).2))

/-- Gives back at once the staging of a piece that is discarded (R472). -/
def State.dropPiece (s : State) (g : Nat) (v : ColGroup) (p : Packet) : State :=
  let rank := v.members.idxOf (pSrc p)
  if rank < v.members.length then s.freeLines g rank (roleOf (fld (pTag p) 8 7)) (pLen p) else s

/-- The checks of a piece of the running collective (R478, R598), then its acceptance. -/
def State.checkPiece (s : State) (g : Nat) (v : ColGroup) (r : ColRun) (p : Packet) : State :=
  if r.ended.isSome then s.dropPiece g v p
  else if pPoison p || !residueOk p.data then (s.dropPiece g v p).colFail g 3 false
  else if fieldAt p.data (128 * (pLen p - 1)) 4 != colDigest r.req then (s.dropPiece g v p).colFail g 1 false
  else if !s.pieceFits v r.req p then (s.dropPiece g v p).colFail g 4 false
  else s.acceptPiece g v r p (v.members.idxOf (pSrc p))

/-- A CDATA or CRES packet (R478); out of sequence with no collective running, it only sets COL_ERR.PROTO (R488). -/
def State.piece (s : State) (p : Packet) : State :=
  let g := fld (pAddr p) 11 0
  let seq := fld (pAddr p) 23 12
  match s.group g with
  | none =>
    (s.setBit aColErr 5).sendKept ⟨nalHdr 5 0x33 s.chip (pSrc p) (pCtx p) 0 0 0 (g + seq <<< 12) 6 0, []⟩
  | some v =>
    match v.run with
    | some r =>
      if r.req.seq % 4096 == seq then s.checkPiece g v r p
      else if (r.req.seq + 1) % 4096 == seq then s.setGroup g { v with early := v.early ++ [p] }
      else (s.dropPiece g v p).colFail g 4 false
    | none =>
      let next := match v.queue with
        | q :: _ => q.seq
        | [] => v.seq
      if next % 4096 == seq then s.setGroup g { v with early := v.early ++ [p] } else (s.dropPiece g v p).setBit aColErr 4

/-- CDATA (R478). -/
def execCdata (port : Nat) (pkt : Packet) (s : State) : Out := s.receive port pkt (· == 0x30) (fun s => s.piece pkt)

/-- CRES (R478). -/
def execCres (port : Nat) (pkt : Packet) (s : State) : Out := s.receive port pkt (· == 0x31) (fun s => s.piece pkt)

/-- CFAIL (R480, R481). -/
def execCfail (port : Nat) (pkt : Packet) (s : State) : Out :=
  s.receive port pkt (· == 0x33) (fun s =>
    let g := fld (pAddr pkt) 11 0
    let seq := fld (pAddr pkt) 43 12
    let cause := fld (pTag pkt) 3 0
    match s.group g with
    | none => s
    | some v =>
      match v.run with
      | some r =>
        if r.req.seq == seq then s.colFail g cause true
        else if serialAfter 32 seq r.req.seq then s.setGroup g { v with fails := tabPut v.fails seq (cause, true) } else s
      | none =>
        let next := match v.queue with
          | q :: _ => q.seq
          | [] => v.seq
        if seq == next || serialAfter 32 seq next then s.setGroup g { v with fails := tabPut v.fails seq (cause, true) } else s)

/-! ## Start, triggers, time limit (R458, R474 to R476, R481) -/

/-- Adder islands in service, ascending. -/
def State.addersIn (s : State) : List Nat := (List.range 8).filter (fun a => s.islState (240 + a) == 0)

/-- COLLECTIVE_START (R458, R475, R480, R482). -/
def execCollectiveStart (g : Nat) (s : State) : Out :=
  match s.group g with
  | none => .next s
  | some v =>
    match v.queue with
    | [] => .next s
    | q :: rest =>
      let due := match q.trig with
        | some (c, val) => decide (val ≤ s.regN (aCtr c))
        | none => true
      let noted := tabFind v.fails q.seq
      if v.run.isSome || s.halted || !v.ready || !due then .next s
      else
        let ended := if v.broken then some (2, true)
          else if noted.isSome then noted
          else if s.addersIn.isEmpty then some (7, false) else if s.colPorts then none else some (2, false)
        let r : ColRun := {
          req := q, islands := s.addersIn, fired := [], lines := [], staged := [], prog := [], hold := [], res := [], ovf := false,
          nanf := false, retried := false, lastPiece := none, ended := ended }
        let mine := v.early.filter (fun p => fld (pAddr p) 23 12 == q.seq % 4096)
        let s := s.setGroup g { v with queue := rest, run := some r, early := [], fails := tabErase v.fails q.seq }
        let late := v.early.filter (fun p => fld (pAddr p) 23 12 != q.seq % 4096)
        .next (mine.foldl (fun s p => s.piece p) (late.foldl (fun s p => s.dropPiece g v p) s))

/-- An operation can fire: what it waits for is there. -/
def opReady (r : ColRun) (i : Nat) (o : ColOp) : Bool :=
  let us := (List.range (o.u1 - o.u0)).map (· + o.u0)
  !r.fired.contains i && (!o.inOrder || i == 0 || r.fired.contains (i - 1)) &&
    (match o.lines with
      | some (ph, k) => us.all (fun u => (stagedUnit r.req r ph k u).isSome)
      | none => true) &&
    (!o.needRes || us.all (fun u => (tabFind r.res u).isSome)) &&
    (!o.useHold || us.all (fun u => (tabFind r.hold u).isSome))

/-- Lines a partner may still be sent in a phase; doubling has no limit but waits for the initial grant (R452, R472). -/
def creditFor (v : ColGroup) (dst ph : Nat) : Option Nat :=
  let key := dst * 4 + roleOf ph
  if !v.granted.contains key then some 0 else if ph == 0 then none else some (tabGet 0 v.credit key)

/-- The next packet of an operation that sends may go (R472): one that credit has stopped holds up no other (R474). -/
def opCredit (v : ColGroup) (r : ColRun) (i : Nat) (o : ColOp) : Bool :=
  let k := tabGet 0 r.prog i
  !(o.act == 0 || o.act == 3) || decide (opPackets r.req o ≤ k) ||
    (creditFor v o.dst o.phase).all (fun c => decide (min 3 (opLines r.req o - 3 * k) < c))

/-- Sends the packets of an operation from packet i on while credit lasts: how many have gone, and the state. -/
def sendLoop (g : Nat) (o : ColOp) (q : ColReq) (val : Nat → ColUnit) : Nat → Nat → State → Nat × State
  | 0, i, s => (i, s)
  | k + 1, i, s =>
    match s.group g with
    | none => (i, s)
    | some v =>
      match v.run with
      | none => (i, s)
      | some r =>
        let pk := opPacket q r o val i
        let len := pk.2.1 + 1
        if (match creditFor v o.dst o.phase with
            | some c => decide (c < len)
            | none => false) then (i, s)
        else
          let key := o.dst * 4 + roleOf o.phase
          let s := if o.phase == 0 then s
            else s.setGroup g { v with credit := tabSet 0 v.credit key (tabGet 0 v.credit key - len) }
          let addr := g + (q.seq % 4096) <<< 12 + pk.1 <<< 24
          let s := s.colSend v (if o.act == 3 then 0x31 else 0x30) o.dst len addr (o.round + o.phase <<< 7) false pk.2.2
          sendLoop g o q val k (i + 1) s

/-- The partials an operation works on: the input or the held partial, with what has arrived; none where the input
reads poisoned. -/
def State.opValues (s : State) (r : ColRun) (o : ColOp) : Option (Tab ColUnit) :=
  ((List.range (o.u1 - o.u0)).map (· + o.u0)).foldl (fun acc u =>
    match acc with
    | none => none
    | some t =>
      match (if o.useHold then tabFind r.hold u else s.ownUnit r.req u) with
      | none => none
      | some a =>
        let got := o.lines.bind (fun l => stagedUnit r.req r l.1 l.2 u)
        some (tabPut t u (got.elim a (fun b => combine r.req.ordered b a)))) (some [])

/-- Marks an operation as fired, and frees the staging of the lines it used (R472). -/
def State.opFired (s : State) (g i : Nat) (o : ColOp) : State :=
  match s.group g with
  | none => s
  | some v =>
    match v.run with
    | none => s
    | some r =>
      let n := linesPerUnit r.req * (o.u1 - o.u0)
      let s := s.setGroup g { v with run := some { r with fired := setInsert r.fired i, prog := tabErase r.prog i } }
      match o.lines with
      | some (ph, _) =>
        match (sendersOf v (s.rankIn v)).find? (fun e => e.2 == roleOf ph) with
        | some e =>
          let key := e.1 * 4 + e.2
          let left := tabGet 0 r.staged key
          let k := min left (n + (n + 2) / 3)
          let run : ColRun := { r with
            fired := setInsert r.fired i, prog := tabErase r.prog i, staged := tabSet 0 r.staged key (left - k) }
          (s.setGroup g { v with run := some run }).freeLines g e.1 e.2 k
        | none => s
      | none => s

/-- Carries an operation out (R474, R479). -/
def State.fireOp (s : State) (g : Nat) (v : ColGroup) (r : ColRun) (i : Nat) (o : ColOp) : State :=
  let us := (List.range (o.u1 - o.u0)).map (· + o.u0)
  let empty : ColUnit := { vals := [], nanf := false, ovf := false }
  let send := fun (val : Nat → ColUnit) (s : State) =>
    if (s.pickPort 0 (s.srcOf v.ctx) (v.members.getD o.dst 0) 5).isNone then s.colFail g 2 false
    else
      let from_ := tabGet 0 r.prog i
      let out := sendLoop g o r.req val (opPackets r.req o - from_) from_ s
      if out.1 == opPackets r.req o then out.2.opFired g i o
      else
        match out.2.group g with
        | some v' => out.2.setGroup g { v' with
            run := v'.run.map (fun r => { r with prog := tabPut r.prog i out.1 }) }
        | none => out.2
  if o.act == 4 then s.opFired g i o
  else if o.act == 3 then send (fun _ => empty) s
  else
    match s.opValues r o with
    | none => s.colFail g 3 false
    | some t =>
      let s := if o.useHold then s else s.chargeHbm v.ctx (us.length * 32 * colBytes r.req.type)
      if o.act == 0 then send (fun u => tabGet empty t u) s
      else if o.act == 1 then
        let hold := t.foldl (fun h e => tabPut h e.1 e.2) r.hold
        (s.setGroup g { v with run := some { r with hold := hold } }).opFired g i o
      else
        let res := t.map (fun e => (e.1, roundUnit r.req e.2))
        let s := res.foldl (fun s e => s.writeUnit r.req e.1 e.2) s
        let r := { r with
          res := res.foldl (fun h e => tabPut h e.1 e.2) r.res
          ovf := r.ovf || res.any (fun e => e.2.ovf), nanf := r.nanf || res.any (fun e => e.2.nanf) }
        (s.setGroup g { v with run := some r }).opFired g i o

/-- Chunk an operation belongs to: the one its first unit lies in. -/
def opChunk (v : ColGroup) (q : ColReq) (o : ColOp) : Nat := o.u0 / (2 ^ v.lchunk / colBytes q.type / 32)

/-- The first operation of a chain that can fire. -/
def nextColOp (v : ColGroup) (r : ColRun) (ops : List ColOp) : Option (Nat × ColOp) :=
  ((List.range ops.length).zip ops).find? (fun e => opReady r e.1 e.2 && opCredit v r e.1 e.2)

/-- Repetitions of additions that fail so many times in a row, and whether one fails the third time (R476). -/
def adderRetries : List Nat → Nat × Bool
  | [] => (0, false)
  | n :: rest => if n ≥ 3 then (2, true) else (n + (adderRetries rest).1, (adderRetries rest).2)

/-- COLLECTIVE_TRIGGER: the first operation of the chain that can fire does (R474). `faults` names, for each of its
additions whose residue check fails, how many times in a row; a third failure takes the chunk's adder island out (R476). -/
def execCollectiveTrigger (g : Nat) (faults : List Nat) (s : State) : Out :=
  match s.group g with
  | none => .next s
  | some v =>
    match v.run with
    | none => .next s
    | some r =>
      match nextColOp v r (chainOps v r.req (s.rankIn v)) with
      | none => .next s
      | some (i, o) =>
        let bad := adderRetries (if o.lines.isSome then faults else [])
        if r.ended.isSome || s.halted then .next s
        else if bad.1 == 0 then .next (s.fireOp g v r i o)
        else
          let r := { r with retried := true }
          let isl := 240 + r.islands.getD ((g + opChunk v r.req o) % r.islands.length) 0
          let s := ((s.addCtr aColCntRetry bad.1).noteCes isl bad.1).setGroup g { v with run := some r }
          if bad.2 then
            .next (s.islandFault isl)
          else .next (s.fireOp g { v with run := some r } r i o)

/-- COLLECTIVE_TIMEOUT (R481). -/
def execCollectiveTimeout (g : Nat) (s : State) : Out :=
  match s.group g with
  | none => .next s
  | some v =>
    match v.run.bind (·.lastPiece) with
    | some t =>
      let tmo := s.f aColCtrl 15 0
      if tmo != 0 && decide (t + tmo * 100000 ≤ s.tclk) then .next (s.colFail g 2 false) else .next s
    | none => .next s

/-- LOST: every group that holds the lost chip (R481, R574). -/
def execLost (port : Nat) (pkt : Packet) (s : State) : Out :=
  s.receiveFm port pkt 0x15 (fun s =>
    let c := fld (pAddr pkt) 21 8
    let hit := (s.col.groups.filter (fun e => e.2.members.contains c)).map (·.1)
    hit.foldl (fun s g =>
      let s := s.colFail g 2 false
      match s.group g with
      | some v => s.setGroup g { v with broken := true }
      | none => s) s)

end Sys2Proof.Machine
end

