-- ==== Sys2Proof/Machine/Crypto.lean ====
section
/-! DEFINITION. SHA-384 and ECDSA P-384, which R646, R649, R655 and R667 name by their standards (PRESUMED, log 25:
FIPS 180-4 and FIPS 186-5). -/

namespace Sys2Proof.Machine

/-! ## SHA-384 -/

/-- Adds to r, from bit k - 1 down, every bit that keeps its e-th power at or below n. -/
def rootBits (e n : Nat) : Nat → Nat → Nat
  | 0, r => r
  | k + 1, r => rootBits e n k (if (r + 2 ^ k) ^ e ≤ n then r + 2 ^ k else r)

/-- The first 64 bits of the fraction of the e-th root of a number below 512. -/
def rootFraction (e n : Nat) : Word := word (rootBits e (n <<< (64 * e)) 70 0)

/-- The first 80 primes: all below 410. -/
def shaPrimes : List Nat :=
  (List.range 410).filter (fun n => decide (2 ≤ n) && [2, 3, 5, 7, 11, 13, 17, 19].all (fun q => n == q || n % q != 0))

/-- Round constants: fractions of the cube roots of the first 80 primes. -/
def shaK : List Word := shaPrimes.map (rootFraction 3)

/-- Initial state of SHA-384: fractions of the square roots of the ninth to the sixteenth prime. -/
def shaInit : List Word := ((shaPrimes.drop 8).take 8).map (rootFraction 2)

/-- Big-endian bytes as a number. -/
def beNat (bs : Bytes) : Nat := bs.foldl (fun n b => 256 * n + b.toNat) 0

/-- A number as n big-endian bytes. -/
def natBe (n v : Nat) : Bytes := (natLe n v).reverse

def rotr (x : Word) (n : Nat) : Word := x.rotateRight n

/-- The message schedule, newest word first, extended by k words. -/
def shaExpand : Nat → List Word → List Word
  | 0, w => w
  | k + 1, w =>
    let a := w.getD 1 0
    let b := w.getD 14 0
    let s1 := rotr a 19 ^^^ rotr a 61 ^^^ (a >>> 6)
    let s0 := rotr b 1 ^^^ rotr b 8 ^^^ (b >>> 7)
    shaExpand k ((s1 + w.getD 6 0 + s0 + w.getD 15 0) :: w)

/-- One round over the eight working words. -/
def shaRound (v : List Word) (kw : Word × Word) : List Word :=
  match v with
  | [a, b, c, d, e, f, g, h] =>
    let t1 := h + (rotr e 14 ^^^ rotr e 18 ^^^ rotr e 41) + ((e &&& f) ^^^ (~~~e &&& g)) + kw.1 + kw.2
    let t2 := (rotr a 28 ^^^ rotr a 34 ^^^ rotr a 39) + ((a &&& b) ^^^ (a &&& c) ^^^ (b &&& c))
    [t1 + t2, a, b, c, d + t1, e, f, g]
  | v => v

/-- One block of 128 bytes. -/
def shaBlock (h : List Word) (block : Bytes) : List Word :=
  let w := (List.range 16).map (fun i => word (beNat (sliceBytes block (8 * i) 8)))
  let sched := (shaExpand 64 w.reverse).reverse
  List.zipWith (· + ·) h ((List.zip shaK sched).foldl shaRound h)

/-- SHA-384 of a byte string, as a big-endian number. -/
def sha384 (m : Bytes) : Nat :=
  let pad := (239 - m.length % 128) % 128
  let m' := m ++ [0x80] ++ List.replicate pad 0 ++ natBe 16 (8 * m.length)
  let h := (chunksOf 128 (m'.length / 128 + 1) m').foldl shaBlock shaInit
  (h.take 6).foldl (fun n x => 2 ^ 64 * n + x.toNat) 0

/-! ## P-384 -/

def p384p : Nat := 2 ^ 384 - 2 ^ 128 - 2 ^ 96 + 2 ^ 32 - 1
def p384b : Nat := 0xb3312fa7e23ee7e4988e056be3f82d19181d9c6efe8141120314088f5013875ac656398d8a2ed19d2a85c8edd3ec2aef
def p384n : Nat := 0xffffffffffffffffffffffffffffffffffffffffffffffffc7634d81f4372ddf581a0db248b0a77aecec196accc52973
def p384Gx : Nat := 0xaa87ca22be8b05378eb1c71ef320ad746e1d3b628ba79b9859f741e082542a385502f25dbf55296c3a545e3872760ab7
def p384Gy : Nat := 0x3617de4a96262c6f5d9e98bf9292dc29f8f41dbd289a147ce9da3113b5f0b8c00a60b1ce1d7e819d7a431d7c90ea0e5f

/-- b to the e-th power modulo m, on fuel for the bits of e. -/
def powMod (m : Nat) : Nat → Nat → Nat → Nat → Nat
  | 0, _, _, acc => acc
  | k + 1, b, e, acc => powMod m k (b * b % m) (e / 2) (if e % 2 == 1 then acc * b % m else acc)

/-- The inverse modulo a prime. -/
def invMod (m a : Nat) : Nat := powMod m 384 (a % m) (m - 2) 1

/-- A point of the curve in Jacobian coordinates: (X / Z², Y / Z³), the point at infinity with Z = 0. -/
structure EcPoint where
  x : Nat
  y : Nat
  z : Nat
  deriving DecidableEq, Repr, Inhabited

/-- Difference modulo p of two residues. -/
def subP (a b : Nat) : Nat := (a + p384p - b) % p384p

/-- A point and itself. -/
def ecDouble (q : EcPoint) : EcPoint :=
  let p := p384p
  let d := q.z * q.z % p
  let g := q.y * q.y % p
  let b := q.x * g % p
  let a := 3 * (subP q.x d * (q.x + d)) % p
  let x := subP (a * a % p) (8 * b % p)
  { x := x, y := subP (a * subP (4 * b % p) x % p) (8 * (g * g) % p), z := 2 * (q.y * q.z) % p }

/-- Sum of two points. -/
def ecAdd (a b : EcPoint) : EcPoint :=
  let p := p384p
  if a.z == 0 then b
  else if b.z == 0 then a
  else
    let za := a.z * a.z % p
    let zb := b.z * b.z % p
    let u := a.x * zb % p
    let s := a.y * (b.z * zb % p) % p
    let h := subP (b.x * za % p) u
    let r := subP (b.y * (a.z * za % p) % p) s
    if h == 0 then (if r == 0 then ecDouble a else { x := 1, y := 1, z := 0 })
    else
      let hh := h * h % p
      let k := h * hh % p
      let v := u * hh % p
      let x := subP (subP (r * r % p) k) (2 * v % p)
      { x := x, y := subP (r * subP v x % p) (s * k % p), z := h * (a.z * b.z % p) % p }

/-- k times a point added to `acc`, on fuel for the bits of k. -/
def ecMul : Nat → Nat → EcPoint → EcPoint → EcPoint
  | 0, _, _, acc => acc
  | f + 1, k, q, acc => ecMul f (k / 2) (ecDouble q) (if k % 2 == 1 then ecAdd acc q else acc)

/-- A public key of R646: 0x04 and a point of the curve. -/
def ecKey (key : Bytes) : Option EcPoint :=
  let x := beNat (sliceBytes key 1 48)
  let y := beNat (sliceBytes key 49 48)
  if fieldAt key 0 1 == 4 && x < p384p && y < p384p && y * y % p384p == (x * x * x + (p384p - 3) * x + p384b) % p384p then
    some { x := x, y := y, z := 1 } else none

/-- A signature r then s over a SHA-384 verifies under a key (R649, R656). -/
def ecdsaOk (key sig : Bytes) (digest : Nat) : Bool :=
  let r := beNat (sliceBytes sig 0 48)
  let t := beNat (sliceBytes sig 48 48)
  match ecKey key with
  | none => false
  | some q =>
    if r == 0 || t == 0 || r ≥ p384n || t ≥ p384n then false
    else
      let w := invMod p384n t
      let g : EcPoint := { x := p384Gx, y := p384Gy, z := 1 }
      let m := ecMul 384 (r * w % p384n) q (ecMul 384 (digest * w % p384n) g { x := 1, y := 1, z := 0 })
      m.z != 0 && m.x * invMod p384p (m.z * m.z) % p384p % p384n == r

/-! ## Key slots (R653, R656) -/

def Fuses.hash (f : Fuses) (k : Nat) : Nat := if k == 0 then f.hash0 else f.hash1
def Fuses.prog (f : Fuses) (k : Nat) : Bool := if k == 0 then f.prog0 else f.prog1
def Fuses.revoked (f : Fuses) (k : Nat) : Bool := if k == 0 then f.revoked0 else f.revoked1

/-- State of a slot: 0 empty, 1 programmed, 2 revoked, 3 damaged (R653). -/
def Fuses.slot (f : Fuses) (k : Nat) : Nat :=
  if f.revoked k then 2 else if f.prog k then 1 else if f.hash k == 0 then 0 else 3

/-- A key belongs to a slot: its SHA-384 is the slot's hash. -/
def Fuses.owns (f : Fuses) (k : Nat) (key : Bytes) : Bool := sha384 key == f.hash k

end Sys2Proof.Machine
end

