-- ==== Sys2Proof/Machine/Panels.lean ====
section
/-! DEFINITION. Rows and panel matrices (R30, R85 to R88, R153, R763), the weights a context holds in the stack
(R230 to R232, R496), and the save requirement of a program (R513). -/

namespace Sys2Proof.Machine

/-! ## Rows (R30, R153, R758, R763) -/

/-- Element format of a row format below 5. -/
def rowFmt (fmt : Nat) : FloatFmt :=
  if fmt == 0 then .bf16 else if fmt == 1 then .fp16 else if fmt == 2 then .fp32 else if fmt == 3 || fmt == 5 then .e4m3
  else .e5m2

/-- n values of a float format from bytes on. -/
def floatsAt (f : FloatFmt) (bs : Bytes) (n : Nat) : List Num :=
  let w := floatBytes f
  (List.range n).map (fun i => floatDecode f (fieldAt bs (w * i) w))

/-- The values of a row of width d in a format of R153. -/
def rowValues (fmt d : Nat) (bs : Bytes) : List Num :=
  if fmt < 5 then floatsAt (rowFmt fmt) bs d
  else (List.range d).map (fun i => mxValue (rowFmt fmt) (fieldAt bs (d + i / 32) 1) (fieldAt bs i 1))

/-- A row written in a format of R153: R31 for each element, R758 and R30 for MXFP8. -/
def rowEncode (fmt : Nat) (xs : List Num) : Bytes :=
  let f := rowFmt fmt
  if fmt < 5 then xs.flatMap (fun x => natLe (floatBytes f) (floatEncode f x))
  else
    let blocks := (chunksOf 32 (xs.length / 32 + 1) xs).map (mxBlock f)
    let b := blocks.flatMap (fun k => k.1.flatMap (natLe 1)) ++ blocks.flatMap (fun k => natLe 1 k.2)
    b ++ List.replicate (rowBytes fmt xs.length - b.length) 0

/-- A row moved from one format to another; a row whose format stays is copied (DEDUCED, log 27). -/
def rowConvert (src dst d : Nat) (bs : Bytes) : Bytes :=
  if src == dst then bs else rowEncode dst (rowValues src d bs)

/-- The input row's values as the array takes them: FP32 and FP16 become BF16 (R33). -/
def arrayRow (fmt d : Nat) (bs : Bytes) : List Num :=
  let xs := rowValues fmt d bs
  if fmt == 1 || fmt == 2 then xs.map (satRound .bf16) else xs

/-! ## Panel matrices (R85 to R87) -/

/-- Bytes of an element of a router format (R277): BF16 is 0. -/
def panelElem (rfmt : Nat) : Nat := if rfmt == 0 then 2 else 1

/-- Element format of a router format. -/
def panelFmt (rfmt : Nat) : FloatFmt := if rfmt == 0 then .bf16 else if rfmt == 1 || rfmt == 3 then .e4m3 else .e5m2

/-- Panels across a matrix of c columns. -/
def panelsWide (c : Nat) : Nat := (c + 7) / 8

/-- Byte offset of element (i, j) of a panel matrix of c columns (R85). -/
def panelOfs (rfmt c i j : Nat) : Nat :=
  ((i / 8) * panelsWide c + j / 8) * (64 * panelElem rfmt) + ((i % 8) * 8 + j % 8) * panelElem rfmt

/-- Bytes of the panels of an r by c matrix. -/
def panelArea (rfmt r c : Nat) : Nat := (r + 7) / 8 * panelsWide c * (64 * panelElem rfmt)

/-- Bytes of an r by c panel matrix, its scales included (R87). -/
def panelBytes (rfmt r c : Nat) : Nat := panelArea rfmt r c + (if rfmt ≥ 3 then r / 32 * c else 0)

/-- Element (i, j) of a panel matrix held as bytes from `rd`: a read of n bytes at an offset. -/
def panelAt (rfmt r c : Nat) (rd : Nat → Nat → Bytes) (i j : Nat) : Num :=
  let e := leNat (rd (panelOfs rfmt c i j) (panelElem rfmt))
  if rfmt ≥ 3 then mxValue (panelFmt rfmt) (leNat (rd (panelArea rfmt r c + i / 32 * c + j) 1)) e
  else floatDecode (panelFmt rfmt) e

/-! ## Weights in the stack (R231, R496) -/

def classFive : Nat := 5
def bufBytes : Nat := 2097152

/-- Stack address of a byte of the packed stream of a context's weight buffers (R231). -/
def State.weightAddr (s : State) (x pos : Nat) : Nat :=
  s.bufAddr classFive (handleIndex ((s.ctx x).weightBufs.getD (pos / bufBytes) 0)) + pos % bufBytes

/-- Bytes of weights: of the packed stream, or of HBM. -/
def State.weightRead (s : State) (x : Nat) (inStk : Bool) (pos n : Nat) : Bytes :=
  if inStk then (List.range n).map (fun i => cellGet 0 s.stk (s.weightAddr x (pos + i))) else s.hbmRead pos n

/-- Whether a range of weights reads poisoned (R593). -/
def State.weightPoisoned (s : State) (x : Nat) (inStk : Bool) (pos n : Nat) : Bool :=
  if inStk then (List.range ((n + 31) / 32)).any (fun i => s.stkPoisoned (s.weightAddr x (pos + 32 * i)) 32)
  else s.hbmPoisoned pos n

/-- A stack granule holds bytes of a range of weights. -/
def State.weightGranule (s : State) (x : Nat) (inStk : Bool) (pos n granule : Nat) : Bool :=
  inStk && (List.range ((n + 31) / 32)).any (fun i => s.weightAddr x (pos + 32 * i) / 32 == granule)

/-- Layers with a SHADOW op: effective layer, table field, E; ascending by layer. -/
def Program.shadowLayers (p : Program) : Tab (Nat × Nat) :=
  p.runs.foldl (fun t r =>
    match p.ops[r.1]? with
    | some o =>
      if o.opcode == opShadow then
        tabPut t (effLayer p.ops r.2 r.1)
          (p.at (effParam p.ops r.2 r.1) 0 8, p.sE (effParam p.ops r.2 (r.1 + 1))) else t
    | none => t) []

/-- The shadows of a table in HBM for one layer, with the address of each one's weights. -/
def State.tableShadows (s : State) (layer table e : Nat) : List (ShadowPos × Nat) :=
  (List.range e).filterMap (fun k =>
    let r := s.shadowEntry table k
    if r.1 == 0 then none
    else some ({ layer := layer, expert := k, rank := r.1, wfmt := r.2.1, at_ := r.2.2.1, inStk := false }, r.2.2.1))

/-- A table of a layer is readable and every entry acceptable (R229). -/
def State.tableOk (s : State) (table e : Nat) : Bool :=
  !s.hbmPoisoned table (16 * e) && (List.range e).all (fun k => (s.shadowEntry table k).2.2.2)

/-- Router matrices that SCORE ops of MODE 0 and 1 name with BSEL 0: address and bytes (R496). -/
def Program.routers (p : Program) : Tab Nat :=
  p.runs.foldl (fun t r =>
    match p.ops[r.1]? with
    | some o =>
      let b := effParam p.ops r.2 r.1
      let v := p.at b 8 8
      if o.opcode == opScore && opMode o ≤ 1 && fld v 50 48 == 0 then
        let taps := if opMode o == 0 && opF o 2 2 == 1 then convTaps (p.sConvp b) else 1
        tabPut t (fld v 47 0) (panelBytes (p.sRfmt b) (taps * p.d) (e8Of (p.sE b)))
      else t
    | none => t) []

/-- What a load copies: the shadows at their places, the routers at theirs, and each block's source and size in the
order of the packed stream. -/
structure WeightPlan where
  shadows : List ShadowPos
  routers : List (Nat × Nat)
  blocks : List (Nat × Nat)
  total : Nat
  deriving DecidableEq, Repr, Inhabited

/-- The plan for a program (R231, R496); none where a shadow table cannot be taken. `host` for a host-scored
partition, which reads every table entry as RANK 0 (R730). -/
def State.weightPlan (s : State) (p : Program) (rstk host : Bool) : Option WeightPlan :=
  let layers := if host then [] else p.shadowLayers.filter (fun l => fld l.2.1 50 48 == 0)
  if layers.any (fun l => !s.tableOk (fld l.2.1 47 0) l.2.2) then none
  else
    let w : WeightPlan := { shadows := [], routers := [], blocks := [], total := 0 }
    let w := (layers.flatMap (fun l => s.tableShadows l.1 (fld l.2.1 47 0) l.2.2)).foldl (fun (w : WeightPlan) e =>
      let n := 3 * e.1.rank * p.d
      { w with
        shadows := w.shadows ++ [{ e.1 with at_ := w.total, inStk := true }], blocks := w.blocks ++ [(e.2, n)]
        total := w.total + n }) w
    some ((if rstk then p.routers else []).foldl (fun (w : WeightPlan) (e : Nat × Nat) =>
      { w with
        routers := w.routers ++ [(e.1, w.total)], blocks := w.blocks ++ [e], total := w.total + e.2 }) w)

/-- Buffers of 2 MiB a number of bytes takes. -/
def buffersFor (n : Nat) : Nat := (n + bufBytes - 1) / bufBytes

/-- Copies one block into the packed stream: clean bytes, and a mark on each granule of a poisoned line. -/
def State.copyBlock (s : State) (x pos addr n : Nat) : State :=
  let s := (List.range ((n + 31) / 32)).foldl (fun s i =>
    let k := min 32 (n - 32 * i)
    let a := s.weightAddr x (pos + 32 * i)
    let s1 := s.stkWrite a (s.hbmRead (addr + 32 * i) k)
    if s.hbmPoisoned (addr + 32 * i) k then s1.poisonGranule (a / 32) else s1) s
  (s.chargeHbm x n).chargeStk x n

/-- Copies the blocks of a plan in order, into buffers the context holds already. -/
def State.copyWeights (s : State) (x : Nat) (w : WeightPlan) : State :=
  (w.blocks.foldl (fun (a : State × Nat) b => (a.1.copyBlock x a.2 b.1 b.2, a.2 + b.2)) (s, 0)).1

/-- Takes buffers for a plan and copies the weights into them; none where the buffers cannot be taken (R232, R514). The
buffers held before are given back first. -/
def State.takeWeights (s : State) (x : Nat) (p : Program) (w : WeightPlan) : Option State :=
  let s := s.freeAll (s.ctx x).weightBufs
  let s := s.setCtx x { s.ctx x with weightBufs := [], shadows := [], routers := [] }
  match s.allocN classFive (buffersFor w.total) (chargeOf x (s.ctxPart x)) 1 with
  | (some hs, s) =>
    let s := s.setCtx x { s.ctx x with
      weightBufs := hs, shadows := w.shadows, routers := w.routers, weightsOf := some p.ver }
    some (s.copyWeights x w)
  | (none, _) => none

/-- A partition is host-scored (R520). -/
def State.hostScored (s : State) (p : Nat) : Bool := s.flag (aParShare p) 20

end Sys2Proof.Machine
end

