-- ==== Sys2Proof/Machine/Turnstile.lean ====
section
/-! DEFINITION. Doorbells (R287 to R291, R303, R736), program loads (R270, R271, R667), placement tables (R414 to R421)
and Turnstile admission (R292 to R301). -/

namespace Sys2Proof.Machine

/-! ## Descriptors (R288, R290) -/

/-- The descriptor 128 bytes hold, and whether its reserved fields are 0 and its own alignments kept (R289). -/
def descV2 (a : Nat) (b : Bytes) : Desc × Bool :=
  let w0 := fieldAt b 0 8
  let w3 := fieldAt b 0x18 8
  let w8 := fieldAt b 0x40 8
  ({ v1 := false, ctx := fld w0 27 16, prog := fld w0 39 32, pass := fld w0 55 40, step := word (fieldAt b 8 8),
     seed := word (fieldAt b 0x10 8), tag := fld w3 31 0, ctrOfs := fld w3 47 32, readyCtr := fld w3 63 48,
     readyBase := word (fieldAt b 0x20 8), dlBase := fieldAt b 0x28 8, compAddr := fieldAt b 0x30 8,
     editBase := fieldAt b 0x38 8, nedit := fld w8 12 0,
     bases := (List.range 7).map (fun i => fieldAt b (0x48 + 8 * i) 8) },
   fld w0 7 0 == 2 && fld w0 15 8 == 0 && fld w0 31 28 == 0 && fld w0 63 56 == 0 && fld w8 63 13 == 0 && a % 128 == 0 &&
     fieldAt b 0x30 8 % 64 == 0 && fieldAt b 0x28 8 % 8 == 0 && fld w8 12 0 ≤ 4096 &&
     (fld w8 12 0 == 0 || fieldAt b 0x38 8 % 32 == 0))

/-- The v2 descriptor that the 64 bytes of a v1 descriptor become (R290). -/
def descV1 (a : Nat) (b : Bytes) : Desc × Bool :=
  let w0 := fieldAt b 0 8
  let w1 := fieldAt b 8 8
  let w2 := fieldAt b 0x10 8
  ({ v1 := true, ctx := fld w0 19 8, prog := fld w0 27 20, pass := 0, step := word (fld w0 63 32),
     seed := word (fld w1 31 0), tag := fld w1 63 32, ctrOfs := fld w2 31 16, readyCtr := fld w2 15 0,
     readyBase := word (fld w2 63 32), dlBase := 0, compAddr := fieldAt b 0x18 8, editBase := 0, nedit := 0,
     bases := (List.range 3).map (fun i => fieldAt b (0x20 + 8 * i) 8) ++ [0, 0, 0, 0] },
   fld w0 7 0 == 1 && fld w0 31 28 == 0 && a % 64 == 0 && fieldAt b 0x18 8 % 32 == 0 && fieldAt b 0x38 8 == 0)

/-- Address fields of an op's block: offset, alignment, and whether 0 means none (R104, R192, R387, R454, R759). -/
def addrFields (o : RouteOp) (pack : Bool) : List (Nat × Nat × Bool) :=
  if o.opcode == opScore then
    [(0x08, 1, false), (0x10, 1, false), (0x18, 1, false), (0x20, 1, false), (0x48, 1, false), (0x50, 1, false),
     (0x60, if opMode o == 0 then 128 else 1, false)]
  else if o.opcode == opSelect then [(0x20, 1, true), (0x28, 1, true)]
  else if o.opcode == opCombine then [(0x08, 128, false), (0x18, 1, true), (0x20, 1, true), (0x28, 1, true)]
  else if o.opcode == opExit || o.opcode == opShadow then [(0, 1, false)]
  else if o.opcode == opReduce then
    if pack then [(0x08, 1, false), (0x30, 16, false)] else [(0x08, 1, false), (0x10, 1, false), (0x30, 16, false)]
  else if o.opcode == opFetch || o.opcode == opCopy then [(0x08, 128, false), (0x10, 128, false)]
  else []

/-- Every address field the program's ops reach keeps its alignment and lies below 2^48 once resolved (R759). -/
def Program.addrsOk (p : Program) (bases : List Nat) : Bool :=
  p.runs.all (fun r =>
    match p.ops[r.1]? with
    | some o =>
      let b := effParam p.ops r.2 r.1
      (addrFields o (bitAt (p.at b 0 8) 17)).all (fun e =>
        let v := p.at b e.1 8
        (e.2.2 && v == 0) || (decide (resolve bases v < 2 ^ 48) && resolve bases v % e.2.1 == 0))
    | none => true)

/-- PROFILES of a program allows a profile (R268). -/
def Program.allows (p : Program) (profile : Nat) : Bool := bitAt p.profiles profile

/-! ## Doorbells (R287, R289, R736) -/

/-- No counts yet. -/
def sums0 : StepSums :=
  { tokens := 0, exited := 0, choices := 0, shadowed := 0, dropped := 0, moved := 0, digest := 0, layer := 0xFF }

/-- A queued step. -/
def newStep (p : Nat) (d : Desc) (q : Program) : Step :=
  { desc := d, part := p, ents := [], thr := 0, seqDl := [], phase := .queued, prog := q, op := 0, iters := [],
    waiting := false, backRows := 0, lanes := [], slices := [], seqs := [], boundedLayers := [], place := none, exited := [],
    group := none, tails := [], slotRes := 0, level := 0, slack := none, tchoice := false, retry := false, poison := false,
    ovf := false, abort := 0, asyncs := [], sums := { sums0 with digest := mix (0x5741594D ^^^ d.step) }, joined := 0, deferred := 0, left := 0,
    tStart := 0, cycles := 0, layerTime := 0, layersDone := 0, lastProgress := 0, retries := 0, stretches := 0,
    undo := none, taken := [], frozen := false, record := [], edits := [], newTab := false, frames := [], xid := none }

/-- A doorbell refused: DB_STAT.REFUSE, the count, outcome 2 (R289, R308, R311). -/
def State.refuseDb (s : State) (p code : Nat) : State := ((s.setF (aDbStat p) 15 8 code).bump aRgmCntRefuse).refuse

/-- Checks a descriptor in the order of R308's codes and queues the step (R289). -/
def State.ring_ (s : State) (p : Nat) (d : Desc) (ok : Bool) (n : Nat) : State :=
  let q := s.newest d.prog
  let st := s.ctxState d.ctx
  if decide (16 ≤ (s.rgm.steps.filter (fun t => t.part == p)).length) then s.refuseDb p 0x10
  else if !ok || !(q.elim true (fun q => q.addrsOk d.bases)) then s.refuseDb p 0x11
  else if s.ctxPart d.ctx != p || [0, 6, 7].contains st then s.refuseDb p 0x12
  else
    match q with
    | none => s.refuseDb p 0x13
    | some q =>
      if !q.allows (s.profile d.ctx) || d.prog != s.f (aCtxCfg d.ctx) 15 8 then s.refuseDb p 0x13
      else if (s.stepOf d.ctx d.step).isSome then s.refuseDb p 0x14
      else (({ s with rgm := { s.rgm with steps := s.rgm.steps ++ [newStep p d q] } }).chargeHbm d.ctx n).done

/-- A write of DB_RING of a partition (R287). -/
def State.ringV2 (s : State) (p a : Nat) : State :=
  let r := descV2 a (s.hbmRead a 128)
  s.ring_ p r.1 (r.2 && !s.hbmPoisoned a 128) 128

/-- A write of DB1_RING of a partition (R290). -/
def State.ringV1 (s : State) (p a : Nat) : State :=
  let r := descV1 a (s.hbmRead a 64)
  s.ring_ p r.1 (r.2 && !s.hbmPoisoned a 64) 64

/-- A write at a shared address: VER decides (R736). -/
def State.ringShared (s : State) (k a : Nat) : State :=
  let ver := s.hbmNat a 1
  if s.hbmPoisoned a 1 then s.refuseDb (32 + k) 0x11
  else if ver == 2 then s.ringV2 (32 + k) a
  else if ver == 1 then s.ringV1 (2 * k) a
  else s.refuseDb (32 + k) 0x11

/-- DB_RING (R287, R736). -/
def execDbRing (p : Nat) (v : Word) (s : State) : Out :=
  let a := fld v.toNat 47 0
  if p ≥ 64 then .next s
  else if s.tenantShut then .next s.refuse
  else if p ≥ 32 then .next (s.ringShared (p - 32) a)
  else .next (s.ringV2 p a)

/-- DB1_RING (R290, R736, R755). -/
def execDb1Ring (p : Nat) (v : Word) (viaAlias : Bool) (s : State) : Out :=
  let a := fld v.toNat 47 0
  if p ≥ 64 then .next s
  else if s.tenantShut then .next s.refuse
  else if !viaAlias && p % 2 == 0 then .next (s.ringShared (p / 2) a)
  else .next (s.ringV1 p a)

/-- DB_ABORT (R303). -/
def execDbAbort (p : Nat) (v : Word) (s : State) : Out :=
  let x := fld v.toNat 11 0
  if p ≥ 64 then .next s
  else if s.tenantShut then .next s.refuse
  else
    let mine := s.rgm.steps.filter (fun t => t.part == p && t.desc.ctx == x && t.abort == 0)
    let early := mine.filter (fun t => t.phase == .queued || t.phase == .admitted)
    let s := early.reverse.foldl (fun s t => s.dropStep t 0x24) s
    let late := mine.filter (fun t => t.phase == .running || t.phase == .draining)
    .next (late.foldl (fun s t => (s.stopStep t 0x30).lsAbort x) s).done

/-! ## Program loads (R270, R271, R310, R667) -/

/-- Bytes a program takes in the store: its image. -/
def Program.bytes (p : Program) : Nat := 64 + 16 * p.ops.length + p.params.length

/-- An admitted step uses a version (R271). -/
def State.versionUsed (s : State) (prog : Nat) (p : Program) : Bool :=
  s.rgm.steps.any (fun t => t.wasAdmitted && t.desc.prog == prog && t.prog.ver == p.ver)

/-- Frees superseded versions that no admitted step uses (R271). -/
def State.sweepStore (s : State) : State :=
  { s with rgm := { s.rgm with store := s.rgm.store.map (fun (e : Nat × List Program) =>
      (e.1, match e.2 with
        | [] => []
        | p :: old => p :: old.filter (s.versionUsed e.1))) } }

/-- Byte ranges of the program store in use: offset and length. -/
def storeRanges (store : Tab (List Program)) : List (Nat × Nat) :=
  store.flatMap (fun e => e.2.map (fun p => (p.place, p.bytes)))

/-- The lowest offset at which an image has room in the program store (DESIGN CHOICE, log 101). -/
def storeRoom (used : List (Nat × Nat)) (size n : Nat) : Option Nat :=
  let ends := (0 :: used.map (fun r => r.1 + r.2)).foldl setInsert []
  ends.find? (fun a => decide (a + n ≤ size) && used.all (fun r => decide (a + n ≤ r.1) || decide (r.1 + r.2 ≤ a)))

/-- The versions of a program ID that stay beside a new one; none while both are used. Of two, a newest that no admitted
step uses makes room (R269 to R271). -/
def State.versionsKept (s : State) (prog : Nat) : Option (List Program) :=
  match tabGet [] s.rgm.store prog with
  | p :: q :: rest => if s.versionUsed prog p then none else some (q :: rest)
  | l => some l

/-- Puts a checked program into the store, its image into the store's region of the stack; none without room or while both
versions are used (R269, R270, R314). -/
def State.storeProgram (s : State) (prog : Nat) (p : Program) (img : Bytes) : Option State :=
  let s := s.sweepStore
  match s.versionsKept prog with
  | none => none
  | some kept =>
    let store := tabPut s.rgm.store prog kept
    match storeRoom (storeRanges store) 16777216 p.bytes with
    | none => none
    | some a =>
      let p := { p with ver := s.rgm.loads, place := a }
      let s := s.stkWrite (s.stack.programs.1 + a) img
      some { s with rgm := { s.rgm with store := tabPut store prog (p :: kept), loads := s.rgm.loads + 1 } }.sweepStore

/-- Checks a whole image with its shadow tables and stores it: the state, or the ERROP of the refusal (R270, R283). -/
def State.loadImage (s : State) (prog : Nat) (img : Bytes) : State ⊕ Nat :=
  match checkImage img s.stack.frame with
  | .inr e => .inr e
  | .inl p =>
    match s.badShadowTable p with
    | some e => .inr e
    | none =>
      match s.storeProgram prog p img with
      | some s' => .inl s'
      | none => .inr 0xFFFF

/-- The trailer of a signed program (R667). -/
def State.signedOk (s : State) (img trailer : Bytes) : Bool :=
  let k := fieldAt trailer 0 1
  let key := sliceBytes trailer 8 97
  k ≤ 1 && s.cfg.fuses.slot k == 1 && s.cfg.fuses.owns k key && ecdsaOk key (sliceBytes trailer 0x70 96) (sha384 img)

/-- PROGRAM_LOAD: a write of RGM_PLOAD_CTRL; GO starts the load (R270, R310). -/
def State.pload (s : State) (v : Word) : State :=
  let s1 := s.setReg aRgmPloadCtrl (mergeMask (s.reg aRgmPloadCtrl) v (fm 7 0))
  if s.portShut then s.refuse
  else if !bitAt v.toNat 8 then s1.done
  else if s.flag aRgmPloadCtrl 9 then s.refuse
  else (s1.setF aRgmPloadCtrl 9 8 3).done

def execProgramLoad (v : Word) (s : State) : Out := .next (s.pload v)

/-- The end of a load: RESULT and ERROP, BUSY and GO cleared (R310). -/
def State.ploadEnd (s : State) (result errop : Nat) : State :=
  ((s.setF aRgmPloadCtrl 9 8 0).setF aRgmPloadCtrl 11 10 result).setF aRgmPloadCtrl 31 16 errop

/-- PROGRAM_LOAD_DONE: the image is read, checked and stored (R270, R667, R762). -/
def execProgramLoadDone (s : State) : Out :=
  if !s.flag aRgmPloadCtrl 9 then .next s
  else
    let a := s.f aRgmPloadAddr 47 0
    let n := imageLen (s.hbmRead a 64)
    let img := s.hbmRead a n
    let signed := s.flag aSecStat 4
    if s.hbmPoisoned a (n + (if signed then 256 else 0)) || (signed && !s.signedOk img (s.hbmRead (a + n) 256)) then
      .next (s.ploadEnd 2 0xFFFF)
    else
      match s.loadImage (s.f aRgmPloadCtrl 7 0) img with
      | .inl s' => .next (s'.ploadEnd 0 0)
      | .inr e => .next (s.ploadEnd 2 e)

/-! ## Placement tables (R414 to R421) -/

/-- E of each layer group of a program, by layer. -/
def Program.layerE (p : Program) : Tab Nat :=
  p.runs.foldl (fun t r =>
    match p.ops[r.1]? with
    | some o =>
      if o.opcode == opScore && opMode o == 0 then
        tabPut t (effLayer p.ops r.2 r.1) (p.sE (effParam p.ops r.2 r.1)) else t
    | none => t) []

/-- Layer and E of every SCORE op of a program, of any MODE (R21, R24). -/
def Program.scoreEs (p : Program) : List (Nat × Nat) :=
  p.runs.filterMap (fun r =>
    match p.ops[r.1]? with
    | some o =>
      if o.opcode == opScore then some (effLayer p.ops r.2 r.1, p.sE (effParam p.ops r.2 r.1)) else none
    | none => none)

/-- Only a ring layer has more than 128 routed experts (R21, R24). -/
def Program.expertsOk (p : Program) (ring : Nat → Bool) : Bool :=
  p.scoreEs.all (fun e => decide (e.2 ≤ 128) || ring e.1)

/-- Bytes of a placement table by its own records. -/
def tableLen (b : Bytes) : Nat :=
  let n := fieldAt b 7 1 + 1
  (List.range n).foldl (fun m i =>
    let r := 0x80 + 16 * i
    let e := fieldAt b (r + 8) 4
    if e == 0 then m else max m (e + 8 * fieldAt b (r + 12) 4)) (0x80 + 16 * n)

/-- The table's contents (R415 to R417). An expert array with EOFS 0 is empty. -/
def parseTable (b : Bytes) : Placement :=
  { epoch := fieldAt b 8 4, down := fieldAt b 0x18 4,
    members := (List.range (min 32 (fieldAt b 6 1))).map (fun i => fieldAt b (0x20 + 2 * i) 2),
    layers := (List.range (fieldAt b 7 1 + 1)).map (fun i =>
      let r := 0x80 + 16 * i
      let eofs := fieldAt b (r + 8) 4
      { mode := fieldAt b r 1, fctr := fieldAt b (r + 2) 2, fcount := fieldAt b (r + 4) 4,
        experts := if eofs == 0 then [] else (List.range (fieldAt b (r + 12) 4)).map (fun e =>
          let w := fieldAt b (eofs + 8 * e) 8
          (fld w 4 0, bitAt w 5, fld w 63 32)) }) }

/-- The table may be adopted for a program (R420). -/
def State.tableGood (s : State) (b : Bytes) (p : Program) : Bool :=
  let t := parseTable b
  let nm := fieldAt b 6 1
  let anyRing := t.layers.any (fun l => l.mode == 1)
  fieldAt b 0 4 == 0x4C504B52 && fieldAt b 4 2 == 1 && crcN (putBytes b 0x1C [0, 0, 0, 0]) == fieldAt b 0x1C 4 &&
  b.length ≤ bufBytes && t.layers.length == p.nlayer && fieldAt b 0xC 4 == p.crc.toNat &&
  (!anyRing || (decide (2 ≤ nm) && decide (nm ≤ 32) && t.members.eraseDups.length == nm &&
    t.members.all (fun m => m / 128 == s.chip / 128) && t.members.contains s.chip)) &&
  t.layers.all (fun l => l.mode ≤ 2) && p.expertsOk (fun l => (t.layers[l]?).all (fun q => q.mode == 1)) &&
  p.layerE.all (fun e =>
    match t.layers[e.1]? with
    | some l => l.mode != 1 || (l.experts.length == e.2 && l.experts.all (fun x => x.1 < nm))
    | none => true)

/-- What reading the placement table at an admission decides (R419, R420). -/
inductive TableRead where
  /-- the version held, or none -/
  | keep (p : Option Placement)
  /-- a new version, with its bytes -/
  | adopt (p : Placement) (raw : Bytes)
  | bad
  deriving DecidableEq, Repr, Inhabited

/-- Reads a context's table for a step (R414, R419, R420, R762). -/
def State.readTable (s : State) (x : Nat) (step : Word) (p : Program) : TableRead :=
  let a := s.f (aCtxPlace x) 47 0
  let held := (s.ctx x).place
  if a == 0 then .keep none
  else if s.hbmPoisoned a 128 then .bad
  else
    let h := s.hbmRead a 128
    if held.any (fun t => t.epoch == fieldAt h 8 4) || decide (step.toNat < fieldAt h 0x10 8) then .keep held
    else
      let n := tableLen (s.hbmRead a (0x80 + 16 * (fieldAt h 7 1 + 1)))
      if n > bufBytes || s.hbmPoisoned a n then .bad
      else
        let b := s.hbmRead a n
        if s.tableGood b p then .adopt (parseTable b) b else .bad

/-- The placement a table read leaves in force. -/
def TableRead.place : TableRead → Option Placement
  | .keep p => p
  | .adopt p _ => some p
  | .bad => none

/-- An expert of a ring layer is unreachable (R421). -/
def unreachable (p : Option Placement) (layer e : Nat) : Bool :=
  modeOf p layer == 1 && (match p, expertOf p layer e with
    | some t, some x => bitAt t.down x.1 || x.2.1
    | _, _ => false)

/-- Capacity of an expert (R418, R104): none is no limit. -/
def capOf (p : Option Placement) (layer e capWord : Nat) : Option Nat :=
  let w := match expertOf p layer e with
    | some x => if x.2.2 == 0xFFFFFFFF then capWord else x.2.2
    | none => capWord
  if w == 0xFFFFFFFF then none else some w

/-- Some expert of a ring layer of the program is unreachable (R239, R240). -/
def anyUnreachable (p : Option Placement) (q : Program) : Bool :=
  q.layerE.any (fun l => (List.range l.2).any (fun e => unreachable p l.1 e))

/-! ## Edits (R292 to R294) -/

/-- One entry of an edit list. -/
structure Edit where
  kind : Nat
  seq : Nat
  entry : SeqEntry
  deriving DecidableEq, Repr, Inhabited

/-- Reads an entry; none where R293 refuses its own bytes. -/
def parseEdit (x : Nat) (b : Bytes) : Option Edit :=
  let k := fieldAt b 0 1
  let e : SeqEntry := { ctx := x, base := fieldAt b 4 4, count := fieldAt b 8 4, stream := fieldAt b 0xC 2,
                        gt := fieldAt b 0x10 2, gh := fieldAt b 0x12 2, gw := fieldAt b 0x14 2 }
  if fieldAt b 1 1 != 0 || fieldAt b 0x16 10 != 0 || fieldAt b 0xE 2 != 0 then none
  else if k == 2 then (if fieldAt b 4 18 == 0 then some ⟨k, fieldAt b 2 2, e⟩ else none)
  else if (k == 1 || k == 3) && e.count ≥ 1 && e.gt * e.gh * e.gw == e.count then some ⟨k, fieldAt b 2 2, e⟩
  else none

/-- What the edits of a step make of its context's table (R294), before any join is deferred. -/
structure EditPlan where
  seqs : Tab SeqEntry
  /-- active sequences that leave -/
  leavers : List Nat
  left : Nat
  /-- pending joins oldest first, then the step's own -/
  joins : List Join
  deriving DecidableEq, Repr, Inhabited

/-- No two of a list of ranges overlap, and none passes the last index (R293). -/
def rangesOk : List SeqEntry → Bool
  | [] => true
  | e :: rest => decide (e.base + e.count ≤ 4194304) &&
      rest.all (fun f => decide (e.base + e.count ≤ f.base) || decide (f.base + f.count ≤ e.base)) && rangesOk rest

/-- Checks a step's edits and lays out their effect; none where R293 refuses them. -/
def State.planEdits (s : State) (x : Nat) (es : List Edit) : Option EditPlan :=
  let mine := s.seqsOf x
  let pend := s.pendingOf x
  let active := fun id => s.rgm.seqs.any (fun e => e.1 == id)
  let pending := fun id => s.rgm.pending.any (fun e => e.2.any (fun j => j.seq == id))
  let own := fun id => mine.any (fun e => e.1 == id) || pend.any (fun j => j.seq == id)
  let joinIds := (es.filter (·.kind == 1)).map (·.seq)
  let leaveIds := (es.filter (·.kind == 2)).map (·.seq)
  let updates := es.filter (·.kind == 3)
  let bad := joinIds.any (fun id => active id || pending id) || joinIds.eraseDups.length != joinIds.length ||
    (leaveIds ++ updates.map (·.seq)).any (fun id => !own id) || leaveIds.eraseDups.length != leaveIds.length ||
    updates.any (fun e => leaveIds.contains e.seq)
  if bad then none
  else
    let stay := mine.filter (fun e => !leaveIds.contains e.1)
    let seqs := updates.foldl (fun t e => if (tabFind t e.seq).isSome then tabPut t e.seq e.entry else t) stay
    let pend := (pend.filter (fun j => !leaveIds.contains j.seq)).map (fun j =>
      (updates.filter (fun e => e.seq == j.seq)).foldl (fun (k : Join) e => { k with entry := e.entry }) j)
    let joins := pend ++ (es.filter (·.kind == 1)).map (fun e => ⟨e.seq, e.entry⟩)
    if rangesOk (seqs.map (·.2) ++ joins.map (·.entry)) then
      some { seqs := seqs, leavers := (mine.map (·.1)).filter leaveIds.contains, left := leaveIds.length, joins := joins }
    else none

/-! ## Admission (R295 to R301) -/

/-- Staging buffers of a sequence (R296). -/
def Program.stgBufs (p : Program) (count : Nat) : Nat := buffersFor (count * p.stgTok)

/-- Pools the partition draws on have a state of at least k (R301). -/
def State.poolsAt (s : State) (p k : Nat) : Bool :=
  (List.range 6).any (fun c => s.ceil p c != 0 && decide (k ≤ s.f (aPolFree c) 61 60))

/-- The step may be looked at for admission (R295, R301, R498, R571, R623, R664). -/
def State.eligible (s : State) (t : Step) : Bool :=
  let x := t.desc.ctx
  s.ctxState x == 2 && !s.halted && s.f aPwrState 1 0 == 3 && s.pwr.target.isNone && (s.ctx x).ckpt.isNone &&
  !(s.rgm.steps.any (fun u => u.desc.ctx == x && (u.phase == .admitted || u.phase == .running))) &&
  !(s.cfg.applyFrom.any (fun a => a.2.contains t.part)) &&
  !(s.poolsAt t.part 1 && s.rgm.steps.any (fun u => u.part == t.part && u.phase == .running))

/-- What an admission decides. -/
inductive Admission where
  | refuse (endc : Nat) (cause : Option Nat)
  | wait
  | enter (plan : EditPlan) (taken : List Join) (deferred : List Join) (grow : List (Nat × Nat)) (t : TableRead)
  deriving DecidableEq, Repr, Inhabited

/-- A host-scored partition cannot run a program with backward or convolution ops (R731). -/
def Program.needsArray (p : Program) : Bool :=
  p.ops.any (fun o => o.opcode == opScore && (opMode o != 0 || opF o 2 2 == 1))

/-- An end address is within 2^48. -/
def below48 (n : Nat) : Bool := decide (n ≤ 2 ^ 48)

/-- Everything the program's fields address for the highest INDEX lies below 2^48 (R759). -/
def Program.rangesBelow (p : Program) (bases : List Nat) (hi : Nat) (host : Bool) : Bool :=
  p.runs.all (fun r =>
    match p.ops[r.1]? with
    | some o =>
      let b := effParam p.ops r.2 r.1
      let adr := fun k => p.addr bases b k
      let has := fun k => p.at b k 8 != 0
      if o.opcode == opScore then
        let e8 := e8Of (p.sE b)
        let rf := p.sRfmt b
        let taps := if opF o 2 2 == 1 && !host then convTaps (p.sConvp b) else 1
        let freqs := 4 * (p.at b 0x2A 2 + p.at b 0x2C 2 + p.at b 0x2E 2)
        if opMode o == 0 then
          below48 (adr 0x60 + hi * p.at b 0x68 4 + rowBytes (p.at b 0x6C 1) p.d) &&
            (!o.save || host || below48 (adr 0x18 + panelBytes 0 (hi + 1) p.d)) &&
            (if host then below48 (adr 0x50 + (hi + 1) * 4 * e8)
             else below48 (adr 8 + panelBytes rf (taps * p.d) e8) && below48 (adr 0x10 + 2 * p.d) &&
               below48 (adr 0x20 + freqs))
        else if opMode o == 1 then
          below48 (adr 8 + panelBytes rf p.d e8) && below48 (adr 0x48 + panelBytes rf (hi + 1) e8) &&
            below48 (adr 0x50 + (hi + 1) * 4 * p.d)
        else
          below48 (adr 0x18 + panelBytes 0 (hi + 1) p.d) && below48 (adr 0x48 + panelBytes rf (hi + 1) e8) &&
            below48 (adr 0x50 + p.at b 0x58 2 * 4 * e8)
      else if o.opcode == opSelect then
        (!has 0x20 || below48 (adr 0x20 + 8 * (hi + 1))) && (!has 0x28 || below48 (adr 0x28 + 64 + 4 * p.kE b))
      else if o.opcode == opCombine then
        below48 (adr 8 + hi * p.at b 0x10 4 + p.d * floatBytes (p.cFmt b)) &&
          (!has 0x18 || below48 (adr 0x18 + hi + 1)) &&
          (!p.cMix b || (below48 (adr 0x20 + hi * p.at b 0x14 4 + 2 * p.d) &&
            below48 (adr 0x28 + hi * p.at b 0x14 4 + 2 * p.d)))
      else if o.opcode == opExit then below48 (adr 0 + hi + 1)
      else true
    | none => true)

/-- Buffers that sequences give up: freed at once, or when the context's earlier step completes (R297). -/
def State.leaveBufs (s : State) (x : Nat) (seq : Nat) (hs : List Nat) : State :=
  if hs.isEmpty then s
  else
    match (s.rgm.steps.filter (fun u => u.desc.ctx == x && u.phase != .queued)).getLast? with
    | some u => s.setCtx x { s.ctx x with leaving := (s.ctx x).leaving ++ [(seq, u.desc.step, hs)] }
    | none => s.freeAll hs

/-- The buffers of sequences that leave, and those that smaller sequences no longer need, are given up (R297). -/
def State.yielded (s : State) (x : Nat) (q : Program) (plan : EditPlan) : State :=
  let s := plan.leavers.foldl (fun s id => s.leaveBufs x id (tabGet [] s.rgm.seqBufs id)) s
  let s := { s with rgm := { s.rgm with seqBufs := plan.leavers.foldl (fun t id => tabErase t id) s.rgm.seqBufs } }
  plan.seqs.foldl (fun s e =>
    let own := tabGet [] s.rgm.seqBufs e.1
    let k := q.stgBufs e.2.count
    let s := s.leaveBufs x e.1 (own.drop k)
    { s with rgm := { s.rgm with seqBufs := tabSet [] s.rgm.seqBufs e.1 (own.take k) } }) s

/-- The joins that fit, oldest first, beyond `used` buffers that the step takes anyway; and those deferred (R298). -/
def State.fitJoins (s : State) (w : Charge) (q : Program) : Nat → List Join → List Join × List Join
  | _, [] => ([], [])
  | used, j :: rest =>
    let n := used + q.stgBufs j.entry.count
    if s.allocAllowed classFive n w 0 then
      let r := s.fitJoins w q n rest
      (j :: r.1, r.2)
    else ([], j :: rest)

/-- New buffers that a table's sequences need beyond those they hold (R297): sequence and number. -/
def State.growth (s : State) (q : Program) (seqs : Tab SeqEntry) : List (Nat × Nat) :=
  seqs.filterMap (fun e =>
    let n := q.stgBufs e.2.count - (tabGet [] s.rgm.seqBufs e.1).length
    if n == 0 then none else some (e.1, n))

def total (l : List (Nat × Nat)) : Nat := l.foldl (fun n e => n + e.2) 0

/-- The last steps of the decision: ring reachability, slots and staging (R194, R240, R296 to R301). -/
def State.reserve (s : State) (t : Step) (q : Program) (plan : EditPlan) (tr : TableRead) : Admission :=
  let x := t.desc.ctx
  let p := t.part
  let w := chargeOf x p
  let serve := s.profile x == 1
  let s := s.yielded x q plan
  let grow := s.growth q plan.seqs
  let low := s.poolsAt p 2
  let all := plan.seqs.foldl (fun n e => n + q.stgBufs e.2.count) 0
  let joinBufs := plan.joins.foldl (fun n j => n + q.stgBufs j.entry.count) 0
  let cap := min (s.quota x classFive) (min (s.ceil p classFive) (s.poolCount classFive))
  if decide (s.slotCount p < q.slotRes) || decide (cap < all + (if serve then 0 else joinBufs)) then .refuse 0x21 none
  else if !serve && anyUnreachable tr.place q then .wait
  else if decide (s.slotCount p < s.slotsReserved p + q.slotRes) then .wait
  else if !s.allocAllowed classFive (total grow) w 0 then .wait
  else
    let r := if low then ([], plan.joins) else s.fitJoins w q (total grow) plan.joins
    if !serve && !r.2.isEmpty then .wait
    else if decide (4096 < r.2.length) then .refuse 0x20 none
    else
      let hi := (plan.seqs.map (·.2) ++ r.1.map (·.entry)).foldl (fun m e => max m (e.base + e.count)) 0
      if hi != 0 && !q.rangesBelow t.desc.bases (hi - 1) (s.hostScored p) then .refuse 0x11 none
      else .enter plan r.1 r.2 (grow ++ r.1.map (fun j => (j.seq, q.stgBufs j.entry.count))) tr

/-- The decision about an eligible step under a version of its program. -/
def State.admission (s : State) (t : Step) (q : Program) : Admission :=
  let x := t.desc.ctx
  let p := t.part
  let n := 32 * t.desc.nedit
  let es := (List.range t.desc.nedit).map (fun i => parseEdit x (s.hbmRead (t.desc.editBase + 32 * i) 32))
  let host := s.hostScored p
  if !q.allows (s.profile x) then .refuse 0x13 none
  else if decide (s.f (aCtxSavelen x) 23 0 < q.saveReq) then .refuse 0x21 none
  else if host && q.needsArray then .refuse 0x22 none
  else if s.hbmPoisoned t.desc.editBase n || es.any (·.isNone) then .refuse 0x20 none
  else
    match s.planEdits x (es.filterMap id) with
    | none => .refuse 0x20 none
    | some plan =>
      if (s.lanesIn p).isEmpty then .refuse 0x22 (some cLaneNone)
      else if decide ((s.ownedLanes p).length < q.nlane) then .refuse 0x21 none
      else if (s.groupsIn p).isEmpty && !host then .refuse 0x22 (some cArrNone)
      else
        match s.readTable x t.desc.step q with
        | .bad => .refuse 0x11 (some cRingTable)
        | tr =>
          if !q.expertsOk (fun l => modeOf tr.place l == 1) then .refuse 0x11 (some cRingTable)
          else if (s.lsOf x).isSome && q.layerE.any (fun l => modeOf tr.place l.1 == 1) then .refuse 0x13 none
          else s.reserve t q plan tr

/-- Takes a new placement version into force, with the buffer that holds it (R419); none without the buffer. -/
def State.takeTable (s : State) (x : Nat) (tr : TableRead) : Option State :=
  let c := s.ctx x
  match tr with
  | .bad => some s
  | .keep none =>
    let s := s.freeAll c.placeBufs
    some (s.setCtx x { s.ctx x with place := none, placeBufs := [], placeRaw := [] })
  | .keep (some _) => some s
  | .adopt p raw =>
    match s.allocN classFive 1 (chargeOf x (s.ctxPart x)) 1 with
    | (some [h], s) =>
      let s := s.stkWrite (s.bufAddr classFive (handleIndex h)) raw
      let s := ((s.chargeHbm x raw.length).chargeStk x raw.length).freeAll c.placeBufs
      some (s.setCtx x { s.ctx x with place := some p, placeBufs := [h], placeRaw := raw })
    | _ => none

/-- Hands freshly taken buffers to sequences: the staging table, and what each took. -/
def dealBufs (bufs : Tab (List Nat)) : List (Nat × Nat) → List Nat → Tab (List Nat) × List (Nat × List Nat)
  | [], _ => (bufs, [])
  | (id, n) :: rest, hs =>
    let r := dealBufs (if n == 0 then bufs else tabPut bufs id (tabGet [] bufs id ++ hs.take n)) rest (hs.drop n)
    (r.1, (id, hs.take n) :: r.2)

/-- Frames in use by a context: allocated FRAMED buffers, HELD ones apart (R345). -/
def State.framesOf (s : State) (x : Nat) : List Nat :=
  (List.range 6).flatMap (fun c =>
    ((s.pool c).entries.filter (fun e => e.2.alloc && e.2.framed && !e.2.held && e.2.owner == x)).map (fun e =>
      c * 2097152 + e.1))

/-- Layers classed bounded at admission of T tokens (R130). -/
def boundedOf (q : Program) (place : Option Placement) (tokens : Nat) : List Nat :=
  (q.runs.foldl (fun (t : Tab Nat) r =>
    match q.ops[r.1]? with
    | some o =>
      if o.opcode == opSelect then
        let b := effParam q.ops r.2 r.1
        let l := effLayer q.ops r.2 r.1
        if (List.range (q.kE b)).all (fun e => (capOf place l e (q.kCap b e)).all (fun c => decide (tokens ≤ c)))
        then t else tabPut t l 1
      else t
    | none => t) []).map (·.1)

/-- Carries an admission out (R294 to R298, R419); a step whose buffers prove unobtainable stays queued. -/
def State.enterStep (s0 s : State) (t : Step) (q : Program) (plan : EditPlan) (taken deferred : List Join)
    (grow : List (Nat × Nat)) (tr : TableRead) : State :=
  let x := t.desc.ctx
  match (s.yielded x q plan).takeTable x tr with
  | none => s0
  | some s =>
    match s.allocN classFive (total grow) (chargeOf x t.part) 0 with
    | (none, _) => s0
    | (some hs, s) =>
      let undo := some (s.seqsOf x, s.pendingOf x)
      let dealt := dealBufs s.rgm.seqBufs grow hs
      let mine := taken.foldl (fun m j => tabPut m j.seq j.entry) plan.seqs
      let others := s.rgm.seqs.filter (fun e => e.2.ctx != x)
      let place := tr.place
      let tokens := mine.foldl (fun n e => n + e.2.count) 0
      let frames := s.framesOf x
      let far := s.profile x == 1 && anyUnreachable place q
      let nd := deferred.length
      let s := { s with rgm := { s.rgm with
        seqs := mine.foldl (fun (m : Tab SeqEntry) (e : Nat × SeqEntry) => tabPut m e.1 e.2) others
        pending := tabSet [] s.rgm.pending x deferred
        seqBufs := dealt.1 } }
      let s := (s.addCtr aRgmCntDefer nd).accAdd aAccTchoice x (nd + bit far)
      let s := frames.foldl (fun s h => s.takeUse (h / 2097152) (h % 2097152)) s
      let n := 32 * t.desc.nedit
      let dls : Tab Nat := if t.desc.dlBase == 0 then [] else mine.foldl (fun (m : Tab Nat) (e : Nat × SeqEntry) =>
        tabSet 0 m e.1 (s.hbmNat (t.desc.dlBase + 8 * e.1) 8)) []
      let s := s.modStep x t.desc.step (fun u => { u with
        phase := .admitted, prog := q, ents := s.slices.filter (fun e => e.ctx == x), thr := s.reg (aDlmThr t.part)
        seqDl := dls, lanes := s.lanesIn t.part, slices := s.slicesIn, seqs := mine
        boundedLayers := boundedOf q place tokens, place := place, slotRes := q.slotRes, level := 0
        sums := { u.sums with tokens := tokens }, tchoice := decide (0 < nd) || far, joined := taken.length, deferred := nd, left := plan.left, undo := undo
        taken := dealt.2, edits := s.hbmRead t.desc.editBase n, frames := frames
        newTab := (match tr with
          | .adopt _ _ => true
          | _ => false) })
      s.chargeHbm x n

/-- A step's new program version has its weights copied before the admission (R497); none while buffers lack. -/
def State.weightsFor (s : State) (x : Nat) (q : Program) : Option State :=
  if (s.ctx x).weightsOf == some q.ver then some s
  else
    match s.weightPlan q (s.flag (aCtxCfg x) 16) (s.hostScored (s.ctxPart x)) with
    | none => none
    | some w => s.takeWeights x q w

/-! ### Ring traffic that came before its step (R432, R440) -/

/-- A chip is a member of a table and not down (R440). -/
def ringMember (p : Option Placement) (src : Nat) : Bool :=
  p.any (fun q => q.members.contains src && !bitAt q.down (q.members.idxOf src))

/-- A remote choice breaks R440 against the table of its step. -/
def State.ringRecBad (s : State) (t : Step) (r : RingRec) : Bool :=
  let layer := handleLayer (hdrHandle r.hdr)
  !ringMember t.place r.src || modeOf t.place layer != 1 || t.place.all (fun q => q.epoch != r.epoch) ||
    (expertOf t.place layer (hdrExpert r.hdr)).all (fun o =>
      t.place.all (fun q => o.1 != q.members.idxOf (s.srcOf t.desc.ctx)))

/-- A ring protocol fault (R440). -/
def State.ringFault (s : State) (x : Nat) : State := (s.raise cRingProto).faultCtx x 3

/-- The traffic held for a step that is admitted now is checked against its table. -/
def State.ringAudit (s : State) (x : Nat) (step : Word) : State :=
  match s.stepOf x step with
  | none => s
  | some t =>
    let n := step.toNat
    if s.ring.recs.any (fun r => r.ctx == x && r.step == n % 2 ^ 32 && s.ringRecBad t r) ||
        s.ring.rows.any (fun r => r.ctx == x && r.step == n % 256 && !ringMember t.place r.src) ||
        s.ring.closes.any (fun r => r.ctx == x && r.step == n % 2 ^ 17 && !ringMember t.place r.src) then s.ringFault x
    else s

/-- STEP_ADMIT: the Turnstile looks at the oldest queued step of a partition (R295, R296). -/
def execStepAdmit (p : Nat) (s : State) : Out :=
  match s.rgm.steps.find? (fun t => t.part == p && !t.wasAdmitted) with
  | none => .next s
  | some t =>
    if t.phase != .queued || !s.eligible t then .next s
    else
      match s.newest t.desc.prog with
      | none => .next (s.refuseStep t 0x13)
      | some q =>
        -- what waits for a boundary takes effect before the admission that makes the boundary (R761)
        match (s.lanesAtBoundary p).admission t q with
        | .wait => .next s
        | .refuse e c =>
          let s := s.refuseStep t e
          .next (c.elim s s.raise)
        | .enter _ _ _ _ _ =>
          match (s.lanesAtBoundary p).weightsFor t.desc.ctx q with
          | none => .next s
          | some s1 =>
            match s1.admission t q with
            | .enter plan taken deferred grow tr =>
              let s2 := s1.enterStep s t q plan taken deferred grow tr
              if (s2.stepOf t.desc.ctx t.desc.step).any (·.phase == .admitted) then
                .next ((s2.markBound p).ringAudit t.desc.ctx t.desc.step)
              else .next s2
            | _ => .next s

/-! ## Array work and virtual time (R503) -/

/-- The op a step is at. -/
def Step.opNow (t : Step) : Option RouteOp := t.prog.ops[t.op]?

/-- A context's virtual time is raised to that of the context most recently chosen in its partition (R503). -/
def State.raiseVtime (s : State) (x : Nat) : State :=
  match tabFind s.sca.chosen (s.ctxPart x) with
  | none => s
  | some y =>
    let v := s.regN (aCtxVtime y)
    if decide (s.regN (aCtxVtime x) < v) then s.setReg (aCtxVtime x) (word v) else s

/-- A step stands at a SCORE op with MODE 1 or 2. -/
def Step.atBackward (t : Step) : Bool :=
  t.group.isNone && t.opNow.any (fun o => o.opcode == opScore && opMode o != 0)

/-- A context has array work: a tile or a batch of it is in progress or ready, or its step stands at a backward
product. -/
def State.arrayWork (s : State) (x : Nat) : Bool :=
  (s.running x).any (fun t => t.atBackward || t.group.any (fun g => g.tile.isSome || !g.untiled.isEmpty)) ||
    s.shd.running.any (fun e => e.2.ctx == x) || s.shd.formed.any (fun e => e.2.any (fun b => b.ctx == x))

/-- A context's array work becomes ready: where it had none before, its virtual time is raised (R503). -/
def State.readied (s : State) (old : State) (x : Nat) : State :=
  if s.arrayWork x && !old.arrayWork x then s.raiseVtime x else s

/-! ## STEP_START -/

/-- STEP_START: the step's first op starts; its COMBINE counters go to 0 (R284, R302). -/
def execStepStart (x : Nat) (s : State) : Out :=
  match s.rgm.steps.find? (fun t => t.desc.ctx == x && t.phase == .admitted) with
  | none => .next s
  | some t =>
    if (s.running x).isSome || s.ctxState x != 2 || s.halted then .next s
    else
      let s1 := t.prog.runs.foldl (fun s r =>
        match t.prog.ops[r.1]? with
        | some o =>
          if o.opcode == opCombine then
            s.setReg (aCtr ((t.prog.at (effParam t.prog.ops r.2 r.1) 4 2 + t.desc.ctrOfs) % 65536)) 0
          else s
        | none => s) s
      .next ((s1.modStep x t.desc.step (fun u => { u with
        phase := .running, tStart := word s.tb, lastProgress := word s.tclk })).readied s x)

end Sys2Proof.Machine
end

