-- ==== Sys2Proof/Machine/Waymark.lean ====
section
/-! DEFINITION. Waymark's commands (R533, R534, R546, R547, R668, R669) and lock-step comparison (R537 to R544). -/

namespace Sys2Proof.Machine

/-! ## Digests (R530, R539) -/

/-- dsel of a layer from its tsel values (R530). -/
def dselOf (layer : Nat) (tsel : List Word) : Word :=
  tsel.foldl (fun d h => mix (d ^^^ h)) (mix (0x4453454C ^^^ word layer))

/-- Sum of a sparse array of words. -/
def tabSum (t : Tab Word) : Word := t.foldl (fun n e => n + e.2) 0

/-- DSEL, DDSP, DRTN, DTOUT of a layer group (R539). -/
def Group.digests (g : Group) : List Word :=
  [dselOf g.layer g.tsel, tabSum g.sums.ldsp, tabSum g.sums.lrtn, tabSum g.sums.tout]

/-! ## Comparing (R540 to R543) -/

/-- The first stage whose digests differ: DSEL 1, DDSP 2, DRTN 3, DTOUT 4 (R541). -/
def firstStage (a b : List Word) : Option Nat :=
  ((List.range 4).find? (fun k => a.getD k 0 != b.getD k 0)).map (· + 1)

/-- Sends an array of digest pairs, 31 entries a packet (R541, R544). -/
def State.lsArray (s : State) (x : Nat) (step : Word) (layer kind : Nat) (l : List (Word × Word)) : State :=
  (List.range ((l.length + 30) / 31)).foldl (fun s i =>
    let part := (l.drop (31 * i)).take 31
    s.lsSend x step layer kind 0 (31 * i) part.length
      (part.flatMap (fun e => natLe 8 e.1.toNat ++ natLe 8 e.2.toNat))) s

/-- First and last INDEX of digest tile k of the tokens that entered a layer (R530). -/
def tileSpan (enter : List Nat) (k : Nat) : Nat × Nat :=
  let l := (enter.drop (4096 * k)).take 4096
  (l.headD 0, l.getLastD 0)

/-- Fills the mismatch fields once both sides' arrays are held (R541). -/
def State.lsResolve (s : State) (i : Nat) : State :=
  let e := s.ls i
  match e.mine, e.stage with
  | some (_, layer, _, _), some stage =>
    if decide (e.peerTiles.length < e.tiles.length) || decide (e.peerLanes.length < e.lanes.length) then s
    else
      let lane := if stage == 2 then (List.range e.lanes.length).find? (fun k =>
          (e.lanes.getD k (0, 0)).1 != (tabGet (0, 0) e.peerLanes k).1)
        else if stage == 3 then (List.range e.lanes.length).find? (fun k =>
          (e.lanes.getD k (0, 0)).2 != (tabGet (0, 0) e.peerLanes k).2)
        else none
      let tile := (List.range e.tiles.length).find? (fun k =>
        if stage == 1 then (e.tiles.getD k (0, 0)).1 != (tabGet (0, 0) e.peerTiles k).1
        else (e.tiles.getD k (0, 0)).2 != (tabGet (0, 0) e.peerTiles k).2)
      let span := match tile with
        | some k => tileSpan e.enter k
        | none => (0, 0x3FFFFF)
      let s := s.lsFill i stage layer (lane.getD 0xFF) span.1 span.2
      s.setLs i { s.ls i with mine := none, stage := none }
  | _, _ => s

/-- Compares this engine's digests of a layer with the twin's, once both are here (R540, R541). -/
def State.lsCompare (s : State) (i : Nat) : State :=
  let e := s.ls i
  match e.mine with
  | none => s
  | some (step, layer, d, _) =>
    match e.early.find? (fun q => q.1 == step && q.2.1 == layer) with
    | none => s
    | some q =>
      let e := { e with early := e.early.filter (fun r => !(r.1 == step && r.2.1 == layer)) }
      match firstStage d q.2.2 with
      | none => (s.setLs i { e with mine := none, tiles := [], lanes := [], enter := [] }).bump aWayCntLslayer
      | some k =>
        let x := s.f (aWayLsCfg i) 11 0
        let s := (s.setLs i { e with stage := some k, step := step }).lsMark i
        let s := (s.lsArray x step layer 1 e.tiles).lsArray x step layer 2 e.lanes
        s.lsResolve i

/-- A layer group of a lock-step context completes: its digests go to the twin and are compared (R540). -/
def State.lsLayerDone (s : State) (t : Step) (g : Group) : State :=
  let x := t.desc.ctx
  match s.lsOf x with
  | none => s
  | some i =>
    if s.lsState i != 1 then s
    else
      let d := g.digests
      let s := s.lsSend x t.desc.step g.layer 0 0 0 0 (d.flatMap (fun w => natLe 8 w.toNat))
      let tiles := (List.range g.tsel.length).map (fun k => (g.tsel.getD k 0, tabGet 0 g.sums.tout k))
      let lanes := (List.range t.prog.nlane).map (fun k => (tabGet 0 g.sums.ldsp k, tabGet 0 g.sums.lrtn k))
      let s := s.setLs i { s.ls i with
        mine := some (t.desc.step, g.layer, d, s.tclk), tiles := tiles, lanes := lanes, enter := g.enter
        peerTiles := [], peerLanes := [], stage := none }
      s.lsCompare i

/-! ## Packets (R540, R543, R544) -/

/-- The entry that a twin's packet is for: its TCONTEXT, in lock-step (R544). -/
def State.lsFor (s : State) (p : Packet) : Option Nat :=
  if pSrc p != s.twin then none
  else (List.range 16).find? (fun i => s.flag (aWayLsCfg i) 32 && s.f (aWayLsCfg i) 27 16 == pCtx p)

/-- A packet's STEP is that of the current or the next step of the context; one not yet known here may be the next
(R543; DEDUCED, log 29). -/
def State.lsExpected (s : State) (x : Nat) (step : Word) : Bool :=
  let known := (s.rgm.steps.filter (fun t => t.desc.ctx == x)).map (·.desc.step)
  (known.take 2).contains step || (decide (known.length < 2) && (s.ctx x).lastStep != some step)

/-- The body of an LSCMP row: the packet's entry, and the packet's KIND as the row takes it. -/
def State.lscmp (s : State) (port : Nat) (p : Packet) (kinds : List Nat) (k : State → Nat → State) : Out :=
  s.receiveIf port p (pOp p == 0x3B && kinds.contains (fieldAt p.data 0 1)) (fun s =>
    match s.lsFor p with
    | some i => k s i
    | none => s)

/-- LSCMP_DIGESTS (R540, R543). -/
def execLscmpDigests (port : Nat) (pkt : Packet) (s : State) : Out :=
  s.lscmp port pkt [0] (fun s i =>
    let step := word (fieldAt pkt.data 8 8)
    if s.lsState i != 1 then s
    else if !s.lsExpected (s.f (aWayLsCfg i) 11 0) step then s.lsStop i 7 true
    else
      let e := s.ls i
      let d := (List.range 4).map (fun k => word (fieldAt pkt.data (16 + 8 * k) 8))
      (s.setLs i { e with early := e.early ++ [(step, fld (pAddr pkt) 47 40, d)] }).lsCompare i)

/-- LSCMP_ARRAY (R541, R543, R544). -/
def execLscmpArray (port : Nat) (pkt : Packet) (s : State) : Out :=
  s.lscmp port pkt [1, 2] (fun s i =>
    let e := s.ls i
    let first := fieldAt pkt.data 2 2
    let n := min 31 (fieldAt pkt.data 4 2)
    let es := (List.range n).map (fun k =>
      (first + k, word (fieldAt pkt.data (16 + 16 * k) 8), word (fieldAt pkt.data (24 + 16 * k) 8)))
    let put := fun (t : Tab (Word × Word)) => es.foldl (fun (t : Tab (Word × Word)) r => tabPut t r.1 r.2) t
    if s.lsState i == 1 && !s.lsExpected (s.f (aWayLsCfg i) 11 0) (word (fieldAt pkt.data 8 8)) then s.lsStop i 7 true
    else if (e.mine).isNone then s
    else if fieldAt pkt.data 0 1 == 1 then (s.setLs i { e with peerTiles := put e.peerTiles }).lsResolve i
    else (s.setLs i { e with peerLanes := put e.peerLanes }).lsResolve i)

/-- LSCMP_FREEZE (R543). -/
def execLscmpFreeze (port : Nat) (pkt : Packet) (s : State) : Out :=
  s.lscmp port pkt [3] (fun s i => s.lsStop i (fieldAt pkt.data 1 1 % 8) false)

/-- LOCKSTEP_TIMEOUT (R543): the twin's digests have not come within WAY_LSCTRL.TMO ms. -/
def execLockstepTimeout (i : Nat) (s : State) : Out :=
  let tmo := s.f aWayLsctrl 15 0
  match (s.ls i).mine with
  | some (_, _, _, at_) =>
    if i < 16 && tmo != 0 && decide (at_ + tmo * 100000 ≤ s.tclk) then .next (s.lsStop i 5 true) else .next s
  | none => .next s

/-! ## Registers (R537, R542, R546, R547) -/

/-- A write of WAY_LS_CFG (R537, R542). -/
def State.lsCfg (s : State) (i : Nat) (v : Word) : State :=
  let x := fld v.toNat 11 0
  let old := s.f (aWayLsCfg i) 11 0
  let en := bitAt v.toNat 32
  let other := (List.range 16).any (fun j => j != i && s.flag (aWayLsCfg j) 32 && s.f (aWayLsCfg j) 11 0 == x)
  let bad := s.portShut || (s.flag (aWayLsCfg i) 32 && (s.running old).isSome) ||
    (en && (s.profile x != 2 || !s.attached || (s.running x).isSome || other || s.lsState i == 2))
  if bad then s.refuse
  else
    let s := s.setReg (aWayLsCfg i) (mergeMask (s.reg (aWayLsCfg i)) v (fm 11 0 + fm 27 16 + fm 32 32))
    let s := s.setF (aWayLsCfg i) 34 33 (bit en)
    let s := if en then (s.setReg (aWayLsMm i) 0).setReg (aWayLsTok i) 0 else s
    (s.setLs i ls0).done

/-- LOCKSTEP_CFG_WRITE. -/
def execLockstepCfgWrite (i : Nat) (v : Word) (s : State) : Out := .next (if i < 16 then s.lsCfg i v else s)

/-- A write of WAY_RING (R546). -/
def State.wayRing (s : State) (v : Word) : State :=
  let base := fld v.toNat 47 0
  let llen := fld v.toNat 52 48
  if s.portShut || s.rgm.steps.any (·.phase == .running) ||
      (base != 0 && (base % 4096 != 0 || llen < 6 || llen > 24)) then s.refuse
  else ((s.setReg aWayRing (mergeMask (s.reg aWayRing) v (fm 52 0))).setReg aWayRptr (s.reg aWayWptr)).done

/-- WAY_RING_WRITE. -/
def execWayRingWrite (v : Word) (s : State) : Out := .next (s.wayRing v)

/-- A write of WAY_RPTR (R547). -/
def State.wayRptr (s : State) (v : Word) : State :=
  if s.portShut || v > s.reg aWayWptr || v < s.reg aWayRptr then s.refuse else (s.setReg aWayRptr v).done

/-- WAY_RPTR_WRITE. -/
def execWayRptrWrite (v : Word) (s : State) : Out := .next (s.wayRptr v)

/-- WAYMARK_RING_WRITE: the oldest record that waits goes to the HBM ring, unless the full ring holds it (R533,
R534). -/
def execWaymarkRingWrite (s : State) : Out :=
  match s.way.ring with
  | [] => .next s
  | r :: rest =>
    let out := { s with way := { s.way with ring := rest } }
    if s.f aWayRing 47 0 == 0 then .next out
    else if s.ringFull && s.flag aWayCtrl 0 then .next s
    else .next (out.ringWrite r.1 r.2.2)

/-! ## The flash log (R668, R669) -/

/-- Flash address of log bank b. -/
def logBase (b : Nat) : Nat := 0x4000000 + 0x100000 * b

/-- The header of a log bank (R668). -/
def logHeader (seq : Nat) : Bytes :=
  let h := natLe 4 0x4C474F4C ++ natLe 4 seq
  h ++ natLe 4 (crcN h) ++ List.replicate 52 0xFF

/-- Erases a log bank and opens it with a SEQ (R669). -/
def State.openLog (s : State) (b seq : Nat) : State :=
  let s := (s.flashErase (logBase b) 0x100000).flashWrite (logBase b) (logHeader seq)
  s.setReg aCfgLog (word (b + (seq % 2 ^ 32) <<< 32))

/-- FLASH_LOG_WRITE: the oldest entry of the queue goes to the active bank (R668, R669). -/
def execFlashLogWrite (s : State) : Out :=
  match s.way.flash with
  | [] => .next s
  | e :: rest =>
    let s := { s with way := { s.way with flash := rest } }
    let s := if s.f aCfgLog 13 1 == 8191 then s.openLog (1 - s.f aCfgLog 0 0) (s.f aCfgLog 63 32 + 1) else s
    let used := s.f aCfgLog 13 1
    let s := s.flashWrite (logBase (s.f aCfgLog 0 0) + 64 + 128 * used) e.1
    .next ((s.setF aCfgLog 13 1 (used + 1)).bump aCfgCntLog)

end Sys2Proof.Machine
end

