-- ==== Sys2Proof/Machine/Ringmaster.lean ====
section
/-! DEFINITION. Executing a step's ops: layer groups (R278, R442), AWAIT, EXIT, REDUCE, FETCH, COPY, MARK, FENCE and
LOOP (R279 to R286), step deadlines (R246) and completion (R305 to R308). -/

namespace Sys2Proof.Machine

/-! ## Tokens (R292, R294) -/

/-- The step's tokens, ascending by INDEX. -/
def Step.tokens (t : Step) : List Nat :=
  let byBase : Tab Nat := t.seqs.foldl (fun (m : Tab Nat) (e : Nat × SeqEntry) => tabPut m e.2.base e.2.count) []
  byBase.flatMap (fun e => (List.range e.2).map (· + e.1))

/-- The sequence of a token. -/
def Step.seqOf (t : Step) (index : Nat) : Option (Nat × SeqEntry) :=
  t.seqs.find? (fun e => decide (e.2.base ≤ index) && decide (index < e.2.base + e.2.count))

/-- The slice-table entry a token takes: the newest of its sequence's stream that holds its INDEX (R723). -/
def Step.sliceOf (t : Step) (stream index : Nat) : Option SliceEnt :=
  t.ents.find? (fun e => e.stream == stream && decide (e.base ≤ index) && decide (index < e.base + e.count))

/-! ## Ops (R279, R282, R511) -/

/-- The step may start work: its context runs, the engine too, and lock-step does not hold it (R302, R511, R540,
R542, R605). -/
def State.mayRun (s : State) (t : Step) : Bool :=
  let x := t.desc.ctx
  let st := s.ctxState x
  t.phase == .running && !s.halted && !t.frozen && (st == 2 || (st == 3 && !(s.ctx x).parkCut)) &&
    ((s.lsOf x).all (fun i => (s.ls i).mine.isNone))

/-- A parking context starts no further tile or shadow batch: CWAIT is 0, or the wait for a cheap op is over, or no step
of it runs (R511). -/
def State.parkDue (s : State) (x : Nat) : Bool :=
  let w := s.f (aCtxCfg x) 63 48
  s.ctxState x == 3 &&
    (w == 0 || (s.running x).isNone || (s.ctx x).parkAt.any (fun a => decide (a + w * 1000 < s.tb)))

/-- The running step of a context, when it may start work. -/
def State.runner (s : State) (x : Nat) : Option Step := (s.running x).filter s.mayRun

/-- Effective parameter block of the op a step is at. -/
def Step.blk (t : Step) : Nat := effParam t.prog.ops t.iters t.op

/-- Op i has completed: the step goes on to the next op, or drains after the last (R279); a CHEAP op ends the wait of
a park that came within CWAIT (R511). -/
def State.finishOp (s : State) (t : Step) (i : Nat) : State :=
  let x := t.desc.ctx
  let o := (t.prog.ops[i]?).getD default
  let n := nextOp t.prog.ops t.iters i
  let tooFar := decide (t.prog.ops.length ≤ n.1)
  let c := s.ctx x
  let cwait := s.f (aCtxCfg x) 63 48
  let cut := o.cheap && s.ctxState x == 3 && cwait != 0 && c.parkAt.any (fun a => decide (s.tb ≤ a + cwait * 1000))
  let s1 := s.setCtx x { c with live := o.live, parkCut := c.parkCut || cut }
  (s1.modStep x t.desc.step (fun u => { u with
    op := n.1, iters := n.2, waiting := false, backRows := 0, phase := if tooFar then .draining else u.phase })).readied s x

/-- Runs `k` when the context's step may run and stands at an op that a test picks, unissued and outside a group. -/
def State.atOp (s : State) (x : Nat) (f : RouteOp → Bool) (k : Step → RouteOp → State) : State :=
  match s.runner x with
  | none => s
  | some t =>
    match t.opNow with
    | none => s
    | some o => if f o && !t.waiting && t.group.isNone then k t o else s

/-- OP_AWAIT: the op is issued and waits (R279, R280). -/
def execOpAwait (x : Nat) (s : State) : Out :=
  .next (s.atOp x (·.opcode == opAwait) (fun t _ => s.setStep { t with waiting := true }))

/-- Whether an AWAIT's condition holds (R276, R280): READY_BASE plus the layer is an exact sum. -/
def State.awaitHolds (s : State) (t : Step) (o : RouteOp) : Bool :=
  if opF o 0 0 == 0 then
    decide (t.desc.readyBase.toNat + effLayer t.prog.ops t.iters t.op ≤ s.regN (aCtr t.desc.readyCtr))
  else decide (opF o 63 32 ≤ s.regN (aCtr ((opF o 31 16 + t.desc.ctrOfs) % 65536)))

/-- AWAIT_MET: a waiting AWAIT whose condition holds completes, and takes N off its counter when SUB is 1 (R280). The
condition is tested on the counter as it is when the command runs: after a software write below N the op waits on
(DESIGN CHOICE, log 100). -/
def execAwaitMet (x : Nat) (s : State) : Out :=
  match s.runner x with
  | none => .next s
  | some t =>
    match t.opNow with
    | none => .next s
    | some o =>
      if o.opcode == opAwait && t.waiting && s.awaitHolds t o then
        let c := aCtr ((opF o 31 16 + t.desc.ctrOfs) % 65536)
        let s1 := if opF o 0 0 == 1 && opF o 1 1 == 1 then s.setReg c (s.reg c - word (opF o 63 32)) else s
        .next (s1.finishOp t t.op)
      else .next s

/-- OP_EXIT: one byte for each token of the step (R285). -/
def execOpExit (x : Nat) (s : State) : Out :=
  .next (s.atOp x (·.opcode == opExit) (fun t _ =>
    let m := t.prog.addr t.desc.bases t.blk 0
    let toks := t.tokens
    let s1 := toks.foldl (fun s i => s.hbmWrite (m + i) [BitVec.ofNat 8 ((tabFind t.exited i).getD 0xFF)]) s
    (s1.chargeHbm x toks.length).finishOp t t.op))

/-- OP_REDUCE: submits a collective, or aborts the step when it is refused (R454, R456). -/
def execOpReduce (x : Nat) (s : State) : Out :=
  .next (s.atOp x (·.opcode == opReduce) (fun t _ =>
    let d := sliceBytes (t.prog.blk t.blk) 0 64
    let g := fld (fieldAt d 0 8) 11 0
    match s.colRequest d x (some t.desc.step) t.desc.bases t.desc.ctrOfs with
    | .inl q =>
      let s1 := s.queueCol g q
      let s1 := s1.modStep x t.desc.step (fun u => { u with asyncs := u.asyncs ++ [AsyncOp.coll g q.seq] })
      s1.finishOp t t.op
    | .inr e => (e.elim s s.checkRefused).abortStep t 0x33))

/-- A COPY or FETCH op (R365, R387, R388, R391, R443): without room it waits, and without a staging buffer of the step's
partition too (R339, R341; one buffer to a copy, log 104); a copy that is refused is not performed, its outcome is 2, and the
step goes on (DEDUCED, log 30). -/
def State.opCopyOf (s : State) (x : Nat) (t : Step) (fetch : Bool) : State :=
  if !s.copyRoom then s
  else
    let c := copyOf (sliceBytes (t.prog.blk t.blk) 0 64) x (some t.desc.step) t.desc.bases t.desc.ctrOfs fetch
    match s.copyCheck c with
    | some (.check e) => ((s.copyRefused c e).noteCopy x 2).finishOp t t.op
    | some _ => (s.noteCopy x 2).finishOp t t.op
    | none =>
      let s := s.copyNote c
      if (s.pickPort 0 (s.srcOf x) c.peer 6).isNone then (s.noteCopy x 2).finishOp t t.op
      else
        match s.allocN 3 1 { ctx := x, part := t.part, partOnly := true } 4 with
        | (none, s) => s
        | (some hs, s) =>
          let r := s.submitCopy { c with staging := hs }
          (r.2.modStep x t.desc.step (fun u => { u with asyncs := u.asyncs ++ [AsyncOp.copy r.1] })).finishOp t t.op

/-- OP_FETCH. -/
def execOpFetch (x : Nat) (s : State) : Out :=
  .next (s.atOp x (·.opcode == opFetch) (fun t _ => s.opCopyOf x t true))

/-- OP_COPY. -/
def execOpCopy (x : Nat) (s : State) : Out :=
  .next (s.atOp x (·.opcode == opCopy) (fun t _ => s.opCopyOf x t false))

/-- OP_MARK: an intermediate record (R286, R528, R529, R531). -/
def execOpMark (x : Nat) (s : State) : Out :=
  .next (s.atOp x (·.opcode == opMark) (fun t _ =>
    let u := { t with sums := { t.sums with exited := t.exited.length } }
    (s.formRecord x t (u.recWords 2) (s.ctx x).chain).2.finishOp t t.op))

/-- OP_FENCE: the op is issued and waits (R279). -/
def execOpFence (x : Nat) (s : State) : Out :=
  .next (s.atOp x (·.opcode == opFence) (fun t _ => s.setStep { t with waiting := true }))

/-- FENCE_DONE: every operation issued earlier has finished (R279). -/
def execFenceDone (x : Nat) (s : State) : Out :=
  match s.runner x with
  | none => .next s
  | some t =>
    if t.waiting && t.opNow.any (·.opcode == opFence) && t.asyncs.isEmpty then .next (s.finishOp t t.op) else .next s

/-- OP_LOOP: back to TARGET until the body has run COUNT times (R282). -/
def execOpLoop (x : Nat) (s : State) : Out :=
  .next (s.atOp x (·.opcode == opLoop) (fun t _ => s.finishOp t t.op))

/-! ## Layer groups (R278, R148, R151, R423) -/

/-- Shadows the layer can use (R229, R231, R730): those loaded, or those of a table named through a base. -/
def State.groupShadows (s : State) (t : Step) (layer : Nat) (blk : Option Nat) (e : Nat) : List ShadowPos :=
  match blk with
  | none => []
  | some b =>
    let v := t.prog.at b 0 8
    if s.hostScored t.part then []
    else if fld v 50 48 == 0 then (s.ctx t.desc.ctx).shadows.filter (fun q => q.layer == layer)
    else
      let a := resolve t.desc.bases v
      if s.tableOk a e then (s.tableShadows layer a e).map (·.1) else []

/-- A borrowed layer's counter has arrived (R442). -/
def State.borrowReady (s : State) (t : Step) (layer : Nat) : Bool :=
  match t.place.bind (fun p => p.layers[layer]?) with
  | some l => l.mode != 2 || l.fcount == 0 || decide (l.fcount ≤ s.regN (aCtr l.fctr))
  | none => true

/-- The group that begins at the op a step is at. -/
def State.openGroup (s : State) (t : Step) (k : Nat) (o : RouteOp) : Group :=
  let ops := t.prog.ops
  let at_ := effParam ops t.iters
  let layer := effLayer ops t.iters k
  let enter := t.tokens.filter (fun i => (tabFind t.exited i).isNone)
  let g : Group := {
    layer := layer, first := t.op, pShadow := if k == t.op then none else some (at_ t.op), pScore := at_ k
    pSelect := at_ (k + 1), pDispatch := at_ (k + 3), pCombine := at_ (k + 4)
    fmt := ((ops[k + 3]?).map (fun q => opF q 3 0)).getD 0, conv := opF o 2 2 == 1 && !s.hostScored t.part
    cont := o.cont, save := o.save
    shadows := s.groupShadows t layer (if k == t.op then none else some (at_ t.op)) (t.prog.sE (at_ k))
    enter := enter, untiled := enter, tile := none, tilesRun := 0, scored := [], times := [], spent := 0, toks := [], finish := [], loads := []
    bounded := t.boundedLayers.contains layer, round := 0, closed := false, lanes := [], order := [], sent := []
    shadowQ := [], started := word s.tb, ringClosed := false, tsel := [], tally := [0, 0, 0, 0]
    sums := { ldsp := [], lrtn := [], tout := [] } }
  let lanes := (s.localExperts t g).foldl (fun m e => (t.physOf g e).foldl setInsert m) []
  { g with lanes := lanes.map (fun n =>
      { lane := n, closed := [], expert := none, bseq := 0, partialClose := false }) }

/-- LAYER_GROUP_START (R278, R442, R503). -/
def execLayerGroupStart (x : Nat) (s : State) : Out :=
  match s.runner x with
  | none => .next s
  | some t =>
    match groupScore t.prog.ops t.op with
    | none => .next s
    | some k =>
      if t.group.isSome || !s.borrowReady t (effLayer t.prog.ops t.iters k) then .next s
      else
        let g := s.openGroup t k ((t.prog.ops[k]?).getD default)
        .next ((s.setStep { t with group := some g }).readied s x)

/-- Every batch of the layer has been closed on every lane its expert reaches (R148). -/
def State.batchesClosed (s : State) (t : Step) (g : Group) : Bool :=
  g.lanes.all (fun r => !s.batchesDue t g r.lane r.closed)

/-- Every token that entered has been released or has exited, its increment made, and the layer's summary is written
(R136, R278). -/
def Group.over (g : Group) : Bool := g.closed && g.toks.length == g.enter.length && g.toks.all (fun k => k.counted)

/-- LAYER_GROUP_DONE: the group's counts enter the step's record, and lock-step compares its digests (R278, R529,
R530, R540). Batches whose close is still to be written stay with the step (R148, R435). -/
def execLayerGroupDone (x : Nat) (s : State) : Out :=
  match s.runner x with
  | none => .next s
  | some t =>
    match t.group with
    | none => .next s
    | some g =>
      if !g.over then .next s
      else
        let u := t.sums
        let k := fun i => g.tally.getD i 0
        let sums := { u with
          choices := u.choices + k 0, shadowed := u.shadowed + k 1, dropped := u.dropped + k 2, moved := u.moved + k 3
          digest := mix (u.digest ^^^ dselOf g.layer g.tsel), layer := g.layer }
        let t1 := { t with
          group := none, tails := if s.batchesClosed t g then t.tails else t.tails ++ [g], sums := sums, layerTime := t.layerTime + (s.tb - g.started.toNat)
          layersDone := t.layersDone + 1 }
        let last := (groupScore t.prog.ops g.first).getD g.first + 4
        let s := (s.setStep t1).finishOp t1 last
        .next (s.lsLayerDone t1 g)

/-! ## Completion (R286, R305 to R308) -/

/-- A tile still owes a return for the step (R168, R304). -/
def State.owes (s : State) (t : Step) : Bool :=
  s.lanes.any (fun e => e.2.owed.any (fun o => o.ctx == t.desc.ctx && o.step == t.desc.step))

/-- The final record is formed, and the state delta sent (R286, R528, R568). -/
def State.closeStep (s : State) (t : Step) : State :=
  let x := t.desc.ctx
  let t := { t with sums := { t.sums with exited := t.exited.length } }
  let r := s.formFinal t
  let t := { t with record := r.1 }
  let s := r.2.setStep t
  if s.mirrors && t.wasAdmitted then
    let d := s.stepDelta t
    d.2.modStep x t.desc.step (fun u => { u with xid := if s.attached then some d.1 else none })
  else s

/-- Nothing holds the completion record any longer (R305). -/
def State.mayComplete (s : State) (t : Step) : Bool :=
  !(s.way.ring.any (fun r => r.1 == t.desc.ctx && r.2.1 == t.desc.step)) &&
  (!s.attached || t.xid.all (fun i => !(s.twn.out.any (fun o => o.xid == i))))

/-- The completion record is written; what the step held goes (R259, R297, R305, R345, R535). -/
def State.endStep (s : State) (t : Step) : State :=
  let x := t.desc.ctx
  let endc := if t.abort != 0 then t.abort else bit t.poison
  let s := s.writeCompletion t endc
  let s := (if t.wasAdmitted then s.markBound t.part else s).ringForget x t.desc.step
  let s := if s.profile x == 2 || s.flag aWayCtrl 1 then s.recordToFlash t.record false else s
  let s := t.frames.foldl (fun s h => s.dropUse (h / 2097152 % 8) (h % 2097152)) s
  let c := s.ctx x
  let gone := c.leaving.filter (fun l => l.2.1 == t.desc.step)
  let s := s.setCtx x { c with leaving := c.leaving.filter (fun l => l.2.1 != t.desc.step) }
  gone.foldl (fun s l => s.freeAll l.2.2) s

/-- STEP_COMPLETE: the oldest draining step of a context forms its final record once nothing of it is in flight, and
its completion record follows when that record and the twin's acknowledgement are in (R304, R305). -/
def execStepComplete (x : Nat) (s : State) : Out :=
  match s.rgm.steps.find? (fun t => t.desc.ctx == x && t.phase == .draining) with
  | none => .next s
  | some t =>
    if s.halted || !t.asyncs.isEmpty || !t.tails.isEmpty || (t.abort != 0 && s.owes t) then .next s
    else if t.record.isEmpty then .next (s.closeStep t)
    else if s.mayComplete t then .next (s.endStep t) else .next s

end Sys2Proof.Machine
end

