-- ==== Sys2Proof/Machine/Stack.lean ====
section
/-! DEFINITION. The staging stack by itself: where a granule stands, refresh, temperature bands, scrubbing and row repair
(R316 to R333, R603, R630, R631). -/

namespace Sys2Proof.Machine

/-! ## The keyed hash (R316, R317) -/

/-- Column i of the hash. -/
def hashCol (key : Word) (i : Nat) : Nat := (mix (key + word (i + 1) * 0x9E3779B97F4A7C15)).toNat % 512

/-- h of R316 for a value of hi. -/
def hashOf (key : Word) (hi : Nat) : Nat :=
  (List.range 15).foldl (fun h i => if bitAt hi i then h ^^^ hashCol key i else h) 0

/-- Where a stack address stands: bank, and offset within the bank. -/
def State.stackPlace (s : State) (a : Nat) : Nat × Nat :=
  let g := a / 256
  let hi := g / 512 % 2 ^ 15
  ((g % 512) ^^^ hashOf s.stack.hashKey hi, hi * 256 + a % 256)

/-- Bank and row of a stack address. -/
def State.bankRow (s : State) (a : Nat) : Nat × Nat :=
  let p := s.stackPlace a
  (p.1, p.2 / 16384)

/-- Stack addresses of the 64 grains of a row (R333). -/
def State.grainsOf (s : State) (bank row : Nat) : List Nat :=
  (List.range 64).map (fun k =>
    let hi := row * 64 + k
    (hi * 512 + (bank ^^^ hashOf s.stack.hashKey hi)) * 256)

/-! ## Refresh (R321) -/

/-- REFRESH: a bank refreshes its next row. -/
def execRefresh (bank : Nat) (s : State) : Out :=
  if bank ≥ 512 then .next s
  else
    .next { s with stack := { s.stack with
      nextRow := tabSet 0 s.stack.nextRow bank ((tabGet 0 s.stack.nextRow bank + 1) % 512) } }

/-! ## Temperature (R322, R323, R630, R631) -/

/-- The refresh band of a temperature. -/
def bandOf (c : Nat) : Nat := if c ≤ 65 then 0 else if c ≤ 80 then 1 else if c ≤ 95 then 2 else 3

/-- Highest temperature of the band below band b. -/
def lowerEdge (b : Nat) : Nat := if b == 3 then 95 else if b == 2 then 80 else 65

/-- The refresh band follows a hotter sample at once; a cooler one starts or keeps the 10 ms (R322). -/
def State.bandSample (s : State) (hottest : Nat) : State :=
  let b := s.f aStkTemp 33 32
  if b < bandOf hottest then
    { s.setF aStkTemp 33 32 (bandOf hottest) with stack := { s.stack with coolSince := none } }
  else if 0 < b && hottest + 3 ≤ lowerEdge b then
    { s with stack := { s.stack with coolSince := some (s.stack.coolSince.getD s.tb) } }
  else { s with stack := { s.stack with coolSince := none } }

/-- A sensor above 105 °C holds DUTY at 1 (R631). -/
def State.thermalSample (s : State) (worst : Nat) : State :=
  if 105 < worst then
    let s := s.setF aPwrCap 12 8 1
    if s.pwr.thermal then s
    else ({ s with pwr := { s.pwr with thermal := true } }).errBit aPwrErr 0 cPwrTherm
  else { s with pwr := { s.pwr with thermal := false } }

/-- TEMP_SAMPLE: the four layer sensors and the hottest logic sensor, in °C (R322, R323, R630, R631). -/
def execTempSample (layers : List Nat) (logic : Nat) (s : State) : Out :=
  if layers.length != 4 || layers.any (fun c => decide (255 < c)) || decide (255 < logic) then .next s
  else
    let hottest := layers.foldl max 0
    let temps := layers.getD 0 0 + layers.getD 1 0 <<< 8 + layers.getD 2 0 <<< 16 + layers.getD 3 0 <<< 24
    let s := (s.setF aStkTemp 31 0 temps).setF aPwrTemp 7 0 logic
    let s := s.bandSample hottest
    let s := if 95 < hottest && !s.flag aStkErr 1 then s.errBit aStkErr 1 cStkHot else s
    let worst := max hottest logic
    let s := s.thermalSample worst
    .next (if 110 ≤ worst && !s.pwr.halted then (s.raise cThermTrip).halt else s)

/-- BAND_COOL: 10 ms have passed at least 3 °C below the band's edge; the band moves one step (R322). -/
def execBandCool (s : State) : Out :=
  match s.stack.coolSince with
  | none => .next s
  | some t =>
    let b := s.f aStkTemp 33 32
    if b == 0 || decide (s.tb < t + 10000000) then .next s
    else
      let hottest := (List.range 4).foldl (fun m i => max m (s.f aStkTemp (8 * i + 7) (8 * i))) 0
      let s := s.setF aStkTemp 33 32 (b - 1)
      .next { s with stack := { s.stack with
        coolSince := if 1 < b && hottest + 3 ≤ lowerEdge (b - 1) then some s.tb else none } }

/-! ## Scrubbing and row nomination (R325, R326, R329, R603) -/

/-- Rows that may be nominated: those with correctable errors in enough granules within the window. -/
def State.nominees (s : State) : List Nat :=
  (s.mgt.rowCe.filter (fun (e : Nat × List (Nat × Nat)) =>
    decide (s.f aMgtRetire 39 32 ≤ (((e.2.filter (fun g => decide (s.tb < g.2 + s.f aMgtRetire 31 24 * hourNs))).map
      (·.1)).eraseDups).length) && !e.2.isEmpty)).map (·.1)

/-- Nominates a row while none is nominated (R603, R609). -/
def State.nominate (s : State) : State :=
  if s.flag aMgtRownom 63 then s
  else
    match s.nominees with
    | [] => s
    | r :: _ =>
      let s := { s with mgt := { s.mgt with rowCe := tabErase s.mgt.rowCe r } }
      (s.setReg aMgtRownom (word (r / 512 + (r % 512) <<< 16 + 1 <<< 63))).raise cStkRowce

/-- A correctable error of a stack granule (R325, R602, R603). -/
def State.stackCe (s : State) (granule : Nat) : State :=
  let br := s.bankRow (granule * 32)
  let k := br.1 * 512 + br.2
  let s := (s.bump aStkCntCe).noteCe (176 + br.1 / 8)
  let l := (granule, s.tb) :: (tabGet [] s.mgt.rowCe k).filter (fun g => g.1 != granule)
  ({ s with mgt := { s.mgt with rowCe := tabPut s.mgt.rowCe k l } }).nominate

/-- The Carousel slot whose frame holds a stack address (R315). -/
def State.slotAt (s : State) (a : Nat) : Option Nat :=
  let c := s.stack.carousel
  if s.stack.frame == 0 || a < c.1 || c.1 + c.2 ≤ a then none else some ((a - c.1) / s.stack.frame)

/-- A slot whose frame has held an uncorrectable error is retired until the next start-up (R218). -/
def State.retireSlot (s : State) (n : Nat) : State := { s with car := { s.car with bad := setInsert s.car.bad n } }

/-- An uncorrectable error of a stack granule: marked, counted, its pool buffer quarantined, the slot whose frame it is
retired; one already poisoned counts no more (R218, R326). -/
def State.stackUe (s : State) (granule : Nat) : State :=
  if s.granulePoison granule then s
  else
    let a := granule * 32
    let s := ((s.poisonGranule granule).quarantine a).noteStackUe
    (s.slotAt a).elim s s.retireSlot

/-- A read of a granule meets an error (R324 to R326): what a corrected read returns is written back, and data that the
code miscorrects is written back the same way; an error that goes unnoticed leaves other data behind. -/
def State.readError (s : State) (granule : Nat) (finding : EccFinding) : State :=
  if 2 ^ 27 ≤ granule || s.granulePoison granule then s
  else
    match finding with
    | .clean => s
    | .correctable => s.stackCe granule
    | .uncorrectable => s.stackUe granule
    | .unnoticed d => s.stkWrite (granule * 32) (sliceBytes d 0 32)
    | .miscorrected d => (s.stackCe granule).stkWrite (granule * 32) (sliceBytes d 0 32)

/-- Reads of a step's data, of the granules that a test picks, meet errors; a corrected one is a retry of the step (R307,
R325, R326, R592). -/
def State.stepReads (s : State) (x : Nat) (step : Word) (mine : Nat → Bool) (reads : EccReads) : State :=
  reads.foldl (fun s r =>
    if !mine r.1 || s.granulePoison r.1 then s
    else
      let s := s.readError r.1 r.2
      match r.2 with
      | .correctable | .miscorrected _ => s.noteRetry x step 1
      | _ => s) s

/-- The finding that a list of reads gives a granule. -/
def findingOf (reads : EccReads) (granule : Nat) : EccFinding :=
  ((reads.find? (fun r => r.1 == granule)).map (·.2)).getD .clean

/-- The read of a partial write (R328): the outcome of the write, and the state whose granule takes the merge. -/
def State.rmwError (s : State) (granule : Nat) (finding : EccFinding) : Nat × State :=
  if s.granulePoison granule then (3, s)
  else
    match finding with
    | .correctable => (1, (s.readError granule .correctable).bump aStkCntRmwCe)
    | .miscorrected d => (1, (s.readError granule (.miscorrected d)).bump aStkCntRmwCe)
    | .uncorrectable => (3, s.readError granule .uncorrectable)
    | .unnoticed d => (0, s.readError granule (.unnoticed d))
    | .clean => (0, s)

/-- The reads of partial writes to several granules, and their worst outcome. -/
def State.rmwErrors (s : State) (granules : List Nat) (reads : EccReads) : Nat × State :=
  granules.foldl (fun (a : Nat × State) g =>
    let r := a.2.rmwError g (findingOf reads g)
    (max a.1 r.1, r.2)) (0, s)

/-- One copy of a granule's poison bit flips (R324). -/
def State.flipCopy (s : State) (granule c : Nat) : State :=
  let k := 3 * granule + c
  { s with stkPoison := if s.stkPoison.contains k then setErase s.stkPoison k else setInsert s.stkPoison k }

/-- SCRUB_READ: the patrol scrubber, or a reader no other command stands for, reads a granule (R325, R326, R329). With
SCRUB at 0 the scrubber is stopped, and the granule is another reader's. `copies` are the copies of its poison bit that
have flipped: a majority settles the bit (R324). -/
def execScrubRead (granule : Nat) (finding : EccFinding) (copies : List Nat) (s : State) : Out :=
  if granule ≥ 2 ^ 27 then .next s
  else
    let s := if s.f aStkCtrl 7 0 == 0 then s
      else { s with stack := { s.stack with scrub := (granule + 1) % 2 ^ 27 } }
    .next (((copies.filter (· < 3)).foldl (fun s c => s.flipCopy granule c) s).readError granule finding)

/-! ## Row repair (R331 to R333, R357) -/

/-- Spare rows of a bank in use. -/
def State.sparesUsed (s : State) (bank : Nat) : List Nat :=
  (s.stack.repairs.filter (fun e => e.1 / 512 == bank)).map (·.2)

/-- Records a live repair in STK_REPAIR_LOG, while it has room (R357). -/
def State.logRepair (s : State) (bank row spare : Nat) : State :=
  match (List.range 64).find? (fun i => !s.flag (aStkRepairLog i) 63) with
  | some i => s.setReg (aStkRepairLog i) (word (bank + row <<< 16 + spare <<< 32 + 1 <<< 63))
  | none => s

/-- ROW_REPAIR: a live repair that software requests (R332, R333). -/
def execRowRepair (bank row : Nat) (s : State) : Out :=
  if bank ≥ 512 || row ≥ 512 || s.portShut then .next s.refuse
  else
    let used := s.sparesUsed bank
    match (List.range 64).find? (fun i => !used.contains i) with
    | none =>
      let s := (s.grainsOf bank row).foldl (fun s a => s.quarantine a) s
      .next (s.setBit aStkErr 2).refuse
    | some i =>
      let s := { s with stack := { s.stack with repairs := tabPut s.stack.repairs (bank * 512 + row) i } }
      .next ((s.logRepair bank row i).bump aStkCntRepair).done

end Sys2Proof.Machine
end

