-- ==== Sys2Proof/Machine/Scoring.lean ====
section
/-! DEFINITION. The scoring array: forward tiles, convolution and host scores, their time, and the two backward products
(R71 to R100, R501 to R503, R589, R590, R593, R594, R730). -/

namespace Sys2Proof.Machine

/-! ## The array's choice of work (R92, R501, R503) -/

/-- A partition's cube groups run a tile or a shadow batch. -/
def State.arrayBusy (s : State) (p : Nat) : Bool :=
  (tabFind s.shd.running p).isSome ||
    s.rgm.steps.any (fun t => t.part == p && t.group.any (fun g => g.tile.isSome))

/-- A step's next array work is ready (R501). -/
def State.arrayReady (s : State) (t : Step) : Bool :=
  s.mayRun t && !s.parkDue t.desc.ctx && (t.atBackward || t.group.any (fun g => !g.untiled.isEmpty && g.tile.isNone))

/-- A formed shadow batch of a partition waits to run: it goes first (R238, R501). -/
def State.batchWaits (s : State) (p : Nat) : Bool := (tabGet [] s.shd.formed p).any (fun b => !s.parkDue b.ctx)

/-- The step whose work the partition's cube groups take next: the lowest virtual time, then the lowest context ID
(R501). None while they are busy or a shadow batch waits, and none without a group in service. -/
def State.arrayNext (s : State) (p : Nat) : Option Step :=
  if s.arrayBusy p || s.batchWaits p || ((s.groupsIn p).isEmpty && !s.hostScored p) then none
  else
    (s.rgm.steps.filter (fun t => t.part == p && s.arrayReady t)).foldl (fun (b : Option Step) t =>
      match b with
      | none => some t
      | some u =>
        let vt := s.regN (aCtxVtime t.desc.ctx)
        let vu := s.regN (aCtxVtime u.desc.ctx)
        if decide (vt < vu) || (vt == vu && decide (t.desc.ctx < u.desc.ctx)) then some t else b) none

/-! ## Charging time (R91, R92, R133, R502) -/

def ceilDiv (a b : Nat) : Nat := if b == 0 then 0 else (a + b - 1) / b

/-- The partition's host-memory grant G_h in bytes per CCLK cycle (R89, R721). -/
def State.grant (s : State) (p : Nat) : Nat := s.f (aGlbHmreg (s.f (aParShare p) 18 16)) 7 0 * 16

/-- Charges engine time to a context, `prior` cycles of the same tile having been charged before: the virtual time of a
tile is rounded up once (R502, R507). -/
def State.chargeTime (s : State) (x prior cycles : Nat) : State :=
  let share := s.f (aCtxCfg x) 47 32
  let s := s.accAdd aAccCycles (x % 4096) cycles
  s.addCtr (aCtxVtime (x % 4096)) (ceilDiv ((prior + cycles) * 65536) share - ceilDiv (prior * 65536) share)

/-- Charges a step's own tile time (R510). -/
def State.chargeStep (s : State) (t : Step) (prior cycles : Nat) : State :=
  (s.chargeTime t.desc.ctx prior cycles).modStep t.desc.ctx t.desc.step (fun u => { u with cycles := u.cycles + cycles })

/-- Cycles a product tile occupies the array: t_array of R91 with N_use of R82. -/
def arrayCycles (m k n rho cubes : Nat) : Nat :=
  ceilDiv (m * k * n) (512 * rho * min cubes (m * n / 64))

/-- Chunk-steps of a product (R82). -/
def chunkSteps (m k n rho : Nat) : Nat := m * k * n / (512 * rho)

def roundUp8 (n : Nat) : Nat := (n + 7) / 8 * 8

/-! ## Operands (R63 to R67, R593, R594) -/

/-- Stored grid coordinates (t, h, w) of a token of a sequence (R96). -/
def coordsOf (e : SeqEntry) (index : Nat) : Nat × Nat × Nat :=
  let o := index - e.base
  (o / (e.gh * e.gw), o / e.gw % e.gh, o % e.gw)

/-- The layer input row of a token: its address (R763). -/
def Step.rowAt (t : Step) (b index : Nat) : Nat := t.prog.addr t.desc.bases b 0x60 + index * t.prog.at b 0x68 4

/-- Bytes of a layer input row. -/
def Step.rowLen (t : Step) (b : Nat) : Nat := rowBytes (t.prog.at b 0x6C 1) t.prog.d

/-- Bytes of the frequency table. -/
def Step.freqLen (t : Step) (b : Nat) : Nat :=
  4 * (t.prog.at b 0x2A 2 + t.prog.at b 0x2C 2 + t.prog.at b 0x2E 2)

/-- The position code of a token (R64 to R67). -/
def State.codeOf (s : State) (t : Step) (b index : Nat) : List Num :=
  let p := t.prog
  let ft := p.at b 0x2A 2
  let fh := p.at b 0x2C 2
  let fw := p.at b 0x2E 2
  match t.seqOf index with
  | none => List.replicate p.d numZero
  | some (_, e) =>
    let c := coordsOf e index
    let o := t.sliceOf e.stream index
    let hw := ((match o with
      | some q => orientCoords q.orient c.2.1 c.2.2 q.hs q.ws
      | none => none)).getD ((c.2.1 : Int), (c.2.2 : Int))
    let fs := floatsAt .fp32 (s.hbmRead (p.addr t.desc.bases b 0x20) (t.freqLen b)) (ft + fh + fw)
    posCode p.d (p.at b 0x28 2) (floatDecode .bf16 (p.at b 0x3C 2))
      [((c.1 : Int), p.at b 0x30 4, fs.take ft), (hw.1, p.at b 0x34 4, (fs.drop ft).take fh),
       (hw.2, p.at b 0x38 4, fs.drop (ft + fh))]

/-- The scoring operands of a token (R63). -/
def State.operandOf (s : State) (t : Step) (b index : Nat) : List Num :=
  let p := t.prog
  let x := arrayRow (p.at b 0x6C 1) p.d (s.hbmRead (t.rowAt b index) (t.rowLen b))
  let g := floatsAt .bf16 (s.hbmRead (p.addr t.desc.bases b 0x10) (2 * p.d)) p.d
  rmsRow p.d (floatDecode .fp32 (p.at b 4 4)) x g (s.codeOf t b index)

/-- The router's place: in the packed stream of the stack, or in HBM (R496). -/
def State.routerPlace (s : State) (t : Step) (b : Nat) : Bool × Nat :=
  let v := t.prog.at b 8 8
  match (s.ctx t.desc.ctx).routers.find? (fun r => fld v 50 48 == 0 && r.1 == fld v 47 0) with
  | some r => (true, r.2)
  | none => (false, resolve t.desc.bases v)

/-- Taps of a forward op (R94). -/
def Step.taps (t : Step) (g : Group) : Nat := if g.conv then convTaps (t.prog.sConvp g.pScore) else 1

/-- Bytes of the router matrix of a group. -/
def Step.routerLen (t : Step) (g : Group) : Nat :=
  panelBytes (t.prog.sRfmt g.pScore) (t.taps g * t.prog.d) (e8Of (t.prog.sE g.pScore))

/-- What every token of a tile reads: router, gain and frequencies; poisoned, it poisons them all (R594). -/
def State.sharedPoison (s : State) (t : Step) (g : Group) : Bool :=
  let p := t.prog
  let b := g.pScore
  let r := s.routerPlace t b
  s.weightPoisoned t.desc.ctx r.1 r.2 (t.routerLen g) || s.hbmPoisoned (p.addr t.desc.bases b 0x10) (2 * p.d) ||
    s.hbmPoisoned (p.addr t.desc.bases b 0x20) (t.freqLen b)

/-! ## Convolution (R94 to R99) -/

/-- Offsets of an axis of extent k, from the most negative. -/
def offsets (k : Nat) : List Int := if k == 3 then [-1, 0, 1] else [0]

/-- An axis coordinate moved by an offset: inside, clamped under edge padding, or none. -/
def tapAt (edge : Bool) (extent : Nat) (c : Int) : Option Nat :=
  if 0 ≤ c && c < extent then some c.toNat
  else if edge then some (if c < 0 then 0 else extent - 1) else none

/-- Centre coordinate of a token's output position on an axis (R99). -/
def centre (stride c : Nat) : Nat := c / stride * stride

/-- The rows a token's taps read, in tap order; none stands for a zero row (R95 to R97). -/
def tapRows (c : Nat) (e : SeqEntry) (index : Nat) : List (Option Nat) :=
  let k := convExt c
  let st := convStride c
  let q := coordsOf e index
  let edge := bitAt c 6
  (offsets k.1).flatMap (fun (dt : Int) => (offsets k.2.1).flatMap (fun (dh : Int) => (offsets k.2.2).map (fun (dw : Int) =>
    match tapAt edge e.gt ((centre st.1 q.1 : Nat) + dt), tapAt edge e.gh ((centre st.2.1 q.2.1 : Nat) + dh),
        tapAt edge e.gw ((centre st.2.2 q.2.2 : Nat) + dw) with
    | some a, some b, some d => some (e.base + (a * e.gh + b) * e.gw + d)
    | _, _, _ => none)))

/-- Rows a token's logits read. -/
def Step.readRows (t : Step) (g : Group) (index : Nat) : List (Option Nat) :=
  if !g.conv then [some index]
  else
    match t.seqOf index with
    | some (_, e) => tapRows (t.prog.sConvp g.pScore) e index
    | none => [some index]

/-- A token of a tile is poisoned: its own row or a neighbour's reads so (R593, R594). -/
def State.tokenPoison (s : State) (t : Step) (g : Group) (index : Nat) : Bool :=
  s.hbmPoisoned (t.rowAt g.pScore index) (t.rowLen g.pScore) ||
    (t.readRows g index).any (fun r => r.any (fun i => s.hbmPoisoned (t.rowAt g.pScore i) (t.rowLen g.pScore)))

/-- Coordinates on an axis that a box of output positions reads: the distinct in-grid ones (R100). -/
def axisReads (edge : Bool) (extent k stride p0 n : Nat) : Nat :=
  let out := (extent + stride - 1) / stride
  (((List.range n).map (· + p0)).filter (· < out)).foldl (fun (m : List Nat) p =>
    (offsets k).foldl (fun m o => ((tapAt edge extent ((p * stride : Nat) + o)).elim m (setInsert m))) m) [] |>.length

/-- A convolution tile's tokens, positions and distinct rows for a box [seq, t0, tn, h0, hn, w0, wn] (R99, R100). -/
def convBox (t : Step) (g : Group) (box : List Nat) : Option (List Nat × Nat × Nat) :=
  match box with
  | [id, t0, tn, h0, hn, w0, wn] =>
    match tabFind t.seqs id with
    | none => none
    | some e =>
      let c := t.prog.sConvp g.pScore
      let k := convExt c
      let st := convStride c
      let inside := fun i =>
        let q := coordsOf e i
        let a := q.1 / st.1
        let b := q.2.1 / st.2.1
        let d := q.2.2 / st.2.2
        decide (e.base ≤ i) && decide (i < e.base + e.count) && decide (t0 ≤ a) && decide (a < t0 + tn) &&
          decide (h0 ≤ b) && decide (b < h0 + hn) && decide (w0 ≤ d) && decide (d < w0 + wn)
      let toks := g.untiled.filter inside
      let edge := bitAt c 6
      if tn * hn * wn > 4096 || wn % 8 != 0 || toks.isEmpty then none
      else some (toks, tn * hn * wn, axisReads edge e.gt k.1 st.1 t0 tn * axisReads edge e.gh k.2.1 st.2.1 h0 hn *
        axisReads edge e.gw k.2.2 st.2.2 w0 wn)
  | _ => none

/-! ## Starting a tile (R77, R81, R92) -/

/-- Tokens, positions and gathered rows of the next tile of a group. -/
def nextTile (t : Step) (g : Group) (box : List Nat) : Option (List Nat × Nat × Nat) :=
  if g.conv then convBox t g box
  else
    let toks := g.untiled.take 4096
    some (toks, roundUp8 toks.length, roundUp8 toks.length)

/-- Bytes of one gathered row: the input row, or the host's scores (R91, R730). -/
def State.gatherRow (s : State) (t : Step) (g : Group) : Nat :=
  if s.hostScored t.part then 4 * e8Of (t.prog.sE g.pScore) else t.rowLen g.pScore

/-- A token of a host-scored tile reads its scores poisoned. -/
def State.hostPoison (s : State) (t : Step) (g : Group) (index : Nat) : Bool :=
  let n := 4 * e8Of (t.prog.sE g.pScore)
  s.hbmPoisoned (t.prog.addr t.desc.bases g.pScore 0x50 + index * n) n

/-- Tokens of a tile that a read of its rows, or of what they share, finds poisoned (R593, R594). -/
def State.tilePoison (s : State) (t : Step) (g : Group) (toks : List Nat) : List Nat :=
  let host := s.hostScored t.part
  let all := !host && s.sharedPoison t g
  if host then toks.filter (s.hostPoison t g) else toks.filter (fun i => all || s.tokenPoison t g i)

/-- Gathers the rows of a tile through the host memory ports. -/
def State.gatherRows (s : State) (t : Step) (g : Group) (toks : List Nat) (touched : Nat) : State :=
  s.chargeHbm t.desc.ctx ((if g.conv then touched else toks.length) * s.gatherRow t g)

/-- The tile enters the array. -/
def State.startTile (s : State) (t : Step) (g : Group) (toks : List Nat) (rows touched : Nat) : State :=
  let p := t.part
  let x := t.desc.ctx
  let host := s.hostScored p
  let bad := s.tilePoison t g toks
  let first := g.tilesRun == 0 || tabFind s.sca.last p != some (x, g.first)
  let tile : Tile := { toks := toks, poisoned := bad, first := first, groups := s.groupsIn p, rows := rows,
                       touched := touched }
  let s := s.setStep { t with group := some { g with
    untiled := g.untiled.filter (fun i => !toks.contains i), tile := some tile } }
  let s := { s with sca := { s.sca with
    last := tabPut s.sca.last p (x, g.first), chosen := tabPut s.sca.chosen p x } }
  let s := s.gatherRows t g toks touched
  let s := if host then s else s.chargeHbm x (2 * t.prog.d + t.freqLen g.pScore)
  if host then s
  else if (s.routerPlace t g.pScore).1 then s.chargeStk x (t.routerLen g) else s.chargeHbm x (t.routerLen g)

/-! ## What a tile delivers (R34, R41 to R45, R80, R88, R730) -/

/-- The columns of a matrix held as bytes. -/
def columns (rfmt k n : Nat) (rd : Nat → Nat → Bytes) : List (List Num) :=
  (List.range n).map (fun j => (List.range k).map (fun i => panelAt rfmt k n rd i j))

/-- Fresh free values for a continued product that finds no running result (R80; DESIGN CHOICE, log 31). -/
def State.freeNum (s : State) (k : Nat) : Num :=
  floatDecode .fp32 (leNat ((List.range 4).map (fun i => Config.freeByte (s.freeCtr + 4 * k + i))))

/-- The running results of a context's latest product of a shape, if a continued op asks for them. -/
def State.runOf (s : State) (x rows cols : Nat) : Option (List Num) :=
  ((tabGet [] s.sca.runs x).find? (fun r => r.1 == rows && r.2.1 == cols)).map (·.2.2)

/-- Keeps a product's results, the newest of each shape (R80). -/
def State.keepRun (s : State) (x rows cols : Nat) (vals : List Num) : State :=
  let l := (tabGet [] s.sca.runs x).filter (fun r => !(r.1 == rows && r.2.1 == cols))
  { s with sca := { s.sca with runs := tabPut s.sca.runs x ((rows, cols, vals) :: l) } }

/-- The logits of one token, all E8 columns. -/
def State.logits (s : State) (t : Step) (g : Group) (cols : List (List Num)) (prev : Nat → Option Num) (index : Nat) :
    List Num :=
  let zero := List.replicate t.prog.d numZero
  let xs := (t.readRows g index).flatMap (fun r => r.elim zero (s.operandOf t g.pScore))
  (List.range cols.length).map (fun j => dotFloat (prev j) xs (cols.getD j []))

/-- Scores and exit confidence of logits (R41 to R44, R88). -/
def scoresOf (sigmoid : Bool) (e : Nat) (z : List Num) : List Num × Num :=
  let zs := z.take e
  (if sigmoid then sigmoidScores zs else softmaxScores zs, sfuSigmoid (z.getD e numZero))

/-- The host's scores of a token (R730). -/
def State.hostScores (s : State) (t : Step) (g : Group) (index : Nat) : List Num × Num :=
  let e := t.prog.sE g.pScore
  let n := e8Of e
  let v := floatsAt .fp32 (s.hbmRead (t.prog.addr t.desc.bases g.pScore 0x50 + index * (4 * n)) (4 * n)) n
  (v.take e, v.getD e numZero)

/-- Everything a finished tile hands on: scored tokens, and the results a continued op may take up. -/
def State.scoreTile (s : State) (t : Step) (g : Group) (tile : Tile) : List Scored × State :=
  let x := t.desc.ctx
  let e8 := e8Of (t.prog.sE g.pScore)
  let sigmoid := bitAt (t.prog.kFlags g.pSelect) 0
  let out := fun (i : Nat) (r : List Num × Num) =>
    if tile.poisoned.contains i then { index := i, scores := [], conf := Num.nan, poisoned := true : Scored }
    else { index := i, scores := r.1, conf := r.2, poisoned := false : Scored }
  if s.hostScored t.part then (tile.toks.map (fun i => out i (s.hostScores t g i)), s)
  else
    let rp := s.routerPlace t g.pScore
    let cols := columns (t.prog.sRfmt g.pScore) (t.taps g * t.prog.d) e8 (fun o n => s.weightRead x rp.1 (rp.2 + o) n)
    let rows := roundUp8 g.enter.length
    let held := s.runOf x rows e8
    let prev := fun (r j : Nat) =>
      if !g.cont then none
      else match held with
        | some l => some (l.getD (r * e8 + j) numZero)
        | none => some (s.freeNum (r * e8 + j))
    let zs := tile.toks.map (fun i =>
      let r := g.enter.idxOf i
      (i, r, if tile.poisoned.contains i then List.replicate e8 Num.nan else s.logits t g cols (prev r) i))
    let fresh := (List.range (rows * e8)).map (fun k => if g.cont then s.freeNum k else numZero)
    let base := (if g.tilesRun == 0 then (if g.cont then held else none) else held).getD fresh
    let vals := zs.foldl (fun (l : List Num) q => l.take (q.2.1 * e8) ++ q.2.2 ++ l.drop (q.2.1 * e8 + e8)) base
    let s1 := s.keepRun x rows e8 vals
    let s1 := if g.cont && held.isNone then { s1 with freeCtr := s1.freeCtr + 4 * rows * e8 } else s1
    (zs.map (fun q => out q.1 (scoresOf sigmoid (t.prog.sE g.pScore) q.2.2)), s1)

/-- Writes a row of the x̂ panel matrix, or zeros (R85). -/
def State.putOperand (s : State) (base d i : Nat) (row : List Num) (bad : Bool) : State :=
  (List.range (d / 8)).foldl (fun s q =>
    let bs := ((row.drop (8 * q)).take 8).flatMap (fun v => natLe 2 (floatEncode .bf16 v))
    s.hbmWriteP (base + panelOfs 0 d i (8 * q)) bs bad) s

/-- Writes a tile's operands as rows of the x̂ panel matrix, row INDEX; the tile with the last token also writes the rows
of the last panels beyond the step's tokens as zeros (R85, R87, R277). -/
def State.saveOperands (s : State) (t : Step) (g : Group) (tile : Tile) : State :=
  if !g.save || s.hostScored t.part then s
  else
    let base := t.prog.addr t.desc.bases g.pScore 0x18
    let d := t.prog.d
    let rows := t.tokens.getLastD 0 + 1
    let pad := if (g.enter.getLast?).any tile.toks.contains then (List.range (roundUp8 rows - rows)).map (· + rows) else []
    let s := tile.toks.foldl (fun s i =>
      let bad := tile.poisoned.contains i
      s.putOperand base d i (if bad then List.replicate d Num.nan else s.operandOf t g.pScore i) bad) s
    (pad.foldl (fun s i => s.putOperand base d i (List.replicate d numZero) false) s).chargeHbm t.desc.ctx
      ((tile.toks.length + pad.length) * 2 * d)

/-- Cycles a forward tile occupies the pipeline (R91, R92, R730). -/
def State.tileCycles (s : State) (t : Step) (g : Group) (tile : Tile) : Nat :=
  let p := t.prog
  let e := p.sE g.pScore
  let gh := s.grant t.part
  let tg := ceilDiv (tile.touched * s.gatherRow t g) gh
  if s.hostScored t.part then 20 + tg
  else
    let cubes := 4 * tile.groups.length
    let ta := arrayCycles tile.rows (t.taps g * p.d) (e8Of e) 1 cubes
    let tp := ceilDiv (tile.touched * p.d) (32 * cubes)
    let ts := ceilDiv (tile.rows * (3 * e + 3)) (4 * cubes)
    (if tile.first then 96 else 0) + max (max ta tg) (max tp ts)

/-! ## Failures (R74, R75, R77, R589, R590) -/

/-- Switches in the free spare of a failed cube's quarter and asks for the group's test, or retires the group. -/
def State.spareOrRetire (s : State) (cube : Nat) : State :=
  let grp := cube / 4
  let q := grp / 8
  if s.flag aScaSpareMap (8 * q + 7) then
    if s.islState (128 + grp) == 2 then s
    else
      s.retire (128 + grp) true
  else
    let s := s.setF aScaSpareMap (8 * q + 7) (8 * q) (0x80 + (grp % 32) * 4 + cube % 4)
    if s.islState (128 + grp) == 2 then s
    else { s with mgt := { s.mgt with
      testQ := s.mgt.testQ ++ [128 + grp], repairing := setInsert s.mgt.repairing grp } }

/-- A group has left mid-tile: the tile's outputs are discarded, and it reruns on the groups that remain, or, where none
does, as soon as one is back. The latency that the discarded run has paid is charged; the rerun gathers the rows again and
pays it again (R77). -/
def State.rerunTile (s : State) (t : Step) (g : Group) (tile : Tile) (grp : Nat) : State :=
  let x := t.desc.ctx
  let s := (s.bump aScaCntRerun).chargeStep t 0 (if tile.first then 96 else 0)
  let rest := tile.groups.filter (· != grp)
  let again := { tile with groups := rest, first := true, poisoned := s.tilePoison t g tile.toks }
  let s := if rest.isEmpty then { s with sca := { s.sca with last := tabErase s.sca.last t.part } }
    else s.gatherRows t g tile.toks tile.touched
  let g := if rest.isEmpty then { g with tile := none, untiled := tile.toks.foldl setInsert g.untiled }
    else { g with tile := some again }
  (s.modStep x t.desc.step (fun u => { u with group := some g })).noteRetry x t.desc.step 1

/-- Residue repeats of a cube: counted, as correctable errors of its group too, and the step's outcome becomes 1 (R589,
R602). -/
def State.arrayRetry (s : State) (x : Nat) (step : Word) (cube n : Nat) : State :=
  if n == 0 then s else ((s.addCtr aScaCntRetry n).noteCes (128 + cube / 4) n).noteRetry x step n

/-- A cube fails: the two repeats before its third failure count, its group leaves, and its quarter's spare is switched in
or the group retired (R589, R590). -/
def State.cubeDown (s : State) (x : Nat) (step : Word) (cube : Nat) : State :=
  let isl := 128 + cube / 4
  (((s.arrayRetry x step cube 2).depart isl false).raiseAt cArrCube isl).spareOrRetire cube

/-- A cube fails mid-tile, and the tile reruns (R77, R590). -/
def State.cubeFail (s : State) (t : Step) (g : Group) (tile : Tile) (cube : Nat) : State :=
  (s.cubeDown t.desc.ctx t.desc.step cube).rerunTile t g tile (cube / 4)

/-! ## SCORE_TILE_START and SCORE_TILE_DONE -/

/-- Changes the tile a step has in the array, where it is there. -/
def Step.modTile (t : Step) (f : Tile → Tile) : Step :=
  { t with group := t.group.map (fun g => { g with tile := g.tile.map f }) }

/-- An uncorrectable word of a group's buffers poisons tokens of the tile; the second within an hour takes the group out
mid-tile (R77, R588, R601). -/
def State.bufferUe (s : State) (x : Nat) (step : Word) (grp : Nat) (hit : Nat → Bool) : State :=
  let isl := 128 + grp
  let s := s.modStep x step (fun t => t.modTile (fun tl => { tl with
    poisoned := tl.poisoned ++ tl.toks.filter (fun i => hit i && !tl.poisoned.contains i) }))
  let s := (s.raiseAt cSramUe isl).noteUe isl
  match (s.stepOf x step).bind (fun t => t.group.bind (fun g => g.tile.map (fun tl => (t, g, tl)))) with
  | some (t, g, tl) => if s.islState isl == 0 then s else s.rerunTile t g tl grp
  | none => s

/-- What the reads of a tile in the array meet in the on-die memories (R588, R592). -/
def State.tileError (s : State) (x : Nat) (step : Word) (e : TileError) : State :=
  let mine := fun (g : Nat) => (s.stepOf x step).any (fun t => t.group.any (fun gr => gr.tile.any (fun tl =>
    tl.groups.contains g)))
  match e with
  | .stack _ _ => s
  | .corrected g => if mine g then (s.noteCe (128 + g)).noteRetry x step 1 else s
  | .rowUe g index => if mine g then s.bufferUe x step g (· == index) else s
  | .panelUe g => if mine g then s.bufferUe x step g (fun _ => true) else s
  | .tableUe => s.halt

/-- The stack granules among what a tile's reads meet. -/
def stackErrors (es : List TileError) : EccReads :=
  es.filterMap (fun e =>
    match e with
    | .stack g f => some (g, f)
    | _ => none)

/-- SCORE_TILE_START: `box` is a convolution tile's, `errors` what the tile's reads meet (R81, R92, R100, R325, R326, R501,
R588, R592, R730). -/
def execScoreTileStart (p : Nat) (box : List Nat) (errors : List TileError) (s : State) : Out :=
  let s := s.groupsLeave
  match s.arrayNext p with
  | none => .next s
  | some t =>
    match t.group with
    | none => .next s
    | some g =>
      match nextTile t g box with
      | none => .next s
      | some r =>
        let x := t.desc.ctx
        let rp := s.routerPlace t g.pScore
        let s1 := s.stepReads x t.desc.step (s.weightGranule x (rp.1 && !s.hostScored p) rp.2 (t.routerLen g))
          (stackErrors errors)
        let s2 := s1.startTile ((s1.stepOf x t.desc.step).getD t) g r.1 r.2.1 r.2.2
        .next (errors.foldl (fun s e => s.tileError x t.desc.step e) s2)

/-- SCORE_TILE_DONE: `faults` counts in bits [1:0] the residue failures of one piece of work on the cube in bits [8:2], 3
failing the cube (R90, R91, R589, R590). -/
def execScoreTileDone (x faults : Nat) (s : State) : Out :=
  match s.running x with
  | none => .next s
  | some t =>
    match t.group with
    | none => .next s
    | some g =>
      match g.tile with
      | none => .next s
      | some tile =>
        let cube := faults / 4 % 128
        let n := if tile.groups.contains (cube / 4) then faults % 4 else 0
        if n == 3 then .next (s.cubeFail t g tile cube)
        else
          let r := s.scoreTile t g tile
          let s := r.2.saveOperands t g tile
          let s := s.chargeStep t 0 (s.tileCycles t g tile)
          let s := if s.hostScored t.part then s
            else s.addCtr aScaCntStep (chunkSteps tile.rows (t.taps g * t.prog.d) (e8Of (t.prog.sE g.pScore)) 1)
          let s := s.modStep x t.desc.step (fun u => { u with group := some { g with
            tile := none, tilesRun := g.tilesRun + 1, scored := g.scored ++ [r.1]
            times := g.times ++ [s.tileCycles t g tile] } })
          .next (s.arrayRetry x t.desc.step cube n).groupsLeave

/-! ## Backward products (R79, R80, R85, R86, R501, R502) -/

/-- Writes FP32 results line by line of a row-major matrix; poisoned operands mark every line. The spec gives the result
base and neither format nor layout (DESIGN CHOICE, log 98). -/
def State.putFp32 (s : State) (a : Nat) (vals : List Num) (poison : Bool) : State :=
  s.hbmWriteP a (vals.flatMap (fun v => natLe 4 (floatEncode .fp32 v))) poison

/-- Rows of a product from `lo` on, by rows of the M-side and columns of the N-side; a continued op starts from the
results that the context's previous product of the shape left (R80; DESIGN CHOICE where there are none, log 31). -/
def State.product (s : State) (x rows cols : Nat) (cont : Bool) (lo : Nat) (ms ns : List (List Num)) : List Num × State :=
  let held := if cont || lo != 0 then s.runOf x rows cols else none
  let base := held.getD ((List.range (rows * cols)).map (fun k => if cont then s.freeNum k else numZero))
  let vals := ((ms.zipIdx).map (fun (m : List Num × Nat) => (ns.zipIdx).map (fun (n : List Num × Nat) =>
    dotFloat (if cont then some (base.getD ((lo + m.2) * cols + n.2) numZero) else none) m.1 n.1))).flatten
  let s1 := s.keepRun x rows cols (base.take (lo * cols) ++ vals ++ base.drop (lo * cols + vals.length))
  (vals, if cont && held.isNone then { s1 with freeCtr := s1.freeCtr + 4 * rows * cols } else s1)

/-- Tokens of the next tile of an input gradient. -/
def Step.backTile (t : Step) : List Nat := (t.tokens.drop t.backRows).take 4096

/-- A tile of the input gradient dz · Wᵀ over the step's tokens, row INDEX (MODE 1). The block has no format field for dz:
its elements are in the router's format RFMT (DESIGN CHOICE, log 97); row INDEX of the result starts at
4 · d · INDEX (DESIGN CHOICE, log 98). -/
def State.inputGradient (s : State) (t : Step) (b : Nat) (cont : Bool) : State :=
  let p := t.prog
  let x := t.desc.ctx
  let rf := p.sRfmt b
  let e8 := e8Of (p.sE b)
  let toks := t.backTile
  let dz := p.addr t.desc.bases b 0x48
  let out := p.addr t.desc.bases b 0x50
  let rp := s.routerPlace t b
  let hi := t.tokens.getLastD 0 + 1
  let wn := panelBytes rf p.d e8
  let ms := toks.map (fun i => (List.range e8).map (fun k => panelAt rf hi e8 (fun o n => s.hbmRead (dz + o) n) i k)) ++
    List.replicate (roundUp8 toks.length - toks.length) (List.replicate e8 numZero)
  let rd := fun o n => s.weightRead x rp.1 (rp.2 + o) n
  let ns := (List.range p.d).map (fun c => (List.range e8).map (fun k => panelAt rf p.d e8 rd c k))
  let wbad := s.weightPoisoned x rp.1 rp.2 wn
  let r := s.product x (roundUp8 t.tokens.length) p.d cont t.backRows ms ns
  let bads := toks.map (fun i =>
    wbad || (List.range (e8 / 8)).any (fun q => s.hbmPoisoned (dz + panelOfs rf e8 i (8 * q)) (8 * panelElem rf)))
  let s := (List.range toks.length).foldl (fun s k =>
    s.putFp32 (out + toks.getD k 0 * (4 * p.d)) ((r.1.drop (k * p.d)).take p.d) (bads.getD k false)) r.2
  let s := (s.chargeHbm x (toks.length * (e8 * panelElem rf + 4 * p.d)))
  let s := if rp.1 then s.chargeStk x wn else s.chargeHbm x wn
  s.modStep x t.desc.step (fun u => { u with
    poison := u.poison || bads.any id, backRows := u.backRows + toks.length })

/-- Rows that a weight gradient reduces over: the op names no token range, so each op of a chain takes rows from row 0 of
its bases, at most 16,384 (DESIGN CHOICE, log 99). -/
def Step.gradK (t : Step) : Nat := min 16384 (roundUp8 t.tokens.length)

/-- The weight gradient x̂ᵀ · dz over the op's tokens (MODE 2), one tile; dz as for the input gradient (DESIGN CHOICE,
log 97), and the result rows of E8 from the result base on (DESIGN CHOICE, log 98). -/
def State.weightGradient (s : State) (t : Step) (b : Nat) (cont : Bool) : State :=
  let p := t.prog
  let x := t.desc.ctx
  let rf := p.sRfmt b
  let e8 := e8Of (p.sE b)
  let m := p.at b 0x58 2
  let k := t.gradK
  let xh := p.addr t.desc.bases b 0x18
  let dz := p.addr t.desc.bases b 0x48
  let out := p.addr t.desc.bases b 0x50
  let ms := (List.range m).map (fun c => (List.range k).map (fun i =>
    panelAt 0 k p.d (fun o n => s.hbmRead (xh + o) n) i c))
  let ns := (List.range e8).map (fun j => (List.range k).map (fun i =>
    panelAt rf k e8 (fun o n => s.hbmRead (dz + o) n) i j))
  let bad := s.hbmPoisoned xh (panelBytes 0 k p.d) || s.hbmPoisoned dz (panelBytes rf k e8)
  let r := s.product x m e8 cont 0 ms ns
  let s := r.2.putFp32 out r.1 bad
  let s := s.chargeHbm x (k * (2 * m + e8 * panelElem rf) + 4 * m * e8)
  s.modStep x t.desc.step (fun u => { u with poison := u.poison || bad })

/-- Shape of a backward tile: M, K, N, ρ, and the bytes of a gathered row (R72, R91). -/
def Step.backShape (t : Step) (b mode : Nat) : Nat × Nat × Nat × Nat × Nat :=
  let p := t.prog
  let e8 := e8Of (p.sE b)
  if mode == 1 then
    (roundUp8 t.backTile.length, e8, p.d, if p.sRfmt b == 0 then 1 else 2, e8 * panelElem (p.sRfmt b))
  else (p.at b 0x58 2, t.gradK, e8, 1, 2 * t.gradK)

/-- The cube groups last ran a tile of this op, so that the next follows without a gap (R92). -/
def State.backFollows (s : State) (t : Step) : Bool :=
  t.backRows != 0 && tabFind s.sca.last t.part == some (t.desc.ctx, t.op)

/-- Cycles a backward tile occupies the pipeline (R91, R92). -/
def State.backwardCycles (s : State) (t : Step) (b mode : Nat) : Nat :=
  let cubes := 4 * (s.groupsIn t.part).length
  let (m, k, n, rho, row) := t.backShape b mode
  (if s.backFollows t then 0 else 96) +
    max (arrayCycles m k n rho cubes) (max (ceilDiv (m * row) (s.grant t.part)) (ceilDiv (m * t.prog.d) (32 * cubes)))

/-- Chunk-steps of a backward tile. -/
def Step.backwardSteps (t : Step) (b mode : Nat) : Nat :=
  let (m, k, n, rho, _) := t.backShape b mode
  chunkSteps m k n rho

/-- A backward tile runs: its product, its time, and the next op after the op's last tile (R501, R502). -/
def State.backwardTile (s : State) (t : Step) (o : RouteOp) : State :=
  let x := t.desc.ctx
  let b := t.blk
  let n := s.backwardCycles t b (opMode o)
  let s := { s with sca := { s.sca with last := tabPut s.sca.last t.part (x, t.op), chosen := tabPut s.sca.chosen t.part x } }
  let s := if opMode o == 1 then s.inputGradient t b o.cont else s.weightGradient t b o.cont
  let s := (s.chargeStep t 0 n).addCtr aScaCntStep (t.backwardSteps b (opMode o))
  if opMode o == 1 && decide (t.backRows + t.backTile.length < t.tokens.length) then s else s.finishOp t t.op

/-- OP_SCORE_BACKWARD: the partition's cube groups run the next tile of a gradient product, the whole op where it has one
tile (MODE 1 or 2); `faults` as for SCORE_TILE_DONE. -/
def execOpScoreBackward (x faults : Nat) (s : State) : Out :=
  match s.running x with
  | none => .next s
  | some t =>
    if !t.atBackward || !((s.arrayNext t.part).any (fun u => u.is x t.desc.step)) then .next s
    else
      let cube := faults / 4 % 128
      let n := if (s.groupsIn t.part).contains (cube / 4) then faults % 4 else 0
      let o := t.opNow.getD default
      if opMode o == 1 && t.tokens.isEmpty then .next (s.finishOp t t.op)
      else if n == 3 then
        let s1 := ((s.cubeDown x t.desc.step cube).bump aScaCntRerun).chargeStep t 0 (if s.backFollows t then 0 else 96)
        .next ({ s1 with sca := { s1.sca with last := tabErase s1.sca.last t.part } }.noteRetry x t.desc.step 1)
      else .next ((s.arrayRetry x t.desc.step cube n).backwardTile t o)

end Sys2Proof.Machine
end

