-- ==== Sys2Proof/Machine/Outputs.lean ====
section
/-! DEFINITION. What the Carousel writes for a token: its output row, its flag byte and its arrival-counter increment
(R121, R125, R126, R209 to R213, R593). -/

namespace Sys2Proof.Machine

/-- The step whose selection, lanes and combine go on: running, its context not cut off by a park, the engine not
halted. -/
def State.worker (s : State) (x : Nat) : Option Step :=
  (s.running x).filter (fun _ => !s.halted && (s.ctxState x == 2 || (s.ctxState x == 3 && !(s.ctx x).parkCut)))

/-! ## Rows and flag bytes (R61, R209, R211, R593) -/

/-- Bits of a flag byte (R211). -/
structure FlagBits where
  ovf : Bool := false
  nanf : Bool := false
  poison : Bool := false
  zero : Bool := false
  wdraw : Bool := false
  exit : Bool := false
  deriving DecidableEq, Repr, Inhabited

def FlagBits.toNat (f : FlagBits) : Nat :=
  bit f.ovf + 2 * bit f.nanf + 4 * bit f.poison + 8 * bit f.zero + 16 * bit f.wdraw + 32 * bit f.exit

/-- Address of a token's flag byte; none when the layer's flag base is 0. -/
def Step.flagAt (t : Step) (g : Group) (index : Nat) : Option Nat :=
  if t.prog.at g.pCombine 0x18 8 == 0 then none else some (t.prog.addr t.desc.bases g.pCombine 0x18 + index)

/-- Address of a token's output row. -/
def Step.outAt (t : Step) (g : Group) (index : Nat) : Nat :=
  t.prog.addr t.desc.bases g.pCombine 8 + index * t.prog.at g.pCombine 0x10 4

/-- The layer's arrival counter (R276). -/
def Step.counterOf (t : Step) (g : Group) : Nat := (t.prog.at g.pCombine 4 2 + t.desc.ctrOfs) % 65536

/-- A row of one element value. -/
def flatRow (f : FloatFmt) (d : Nat) (v : Num) : Bytes :=
  let e := natLe (floatBytes f) (if numIsNaN v then floatNaNBits f else floatEncode f v)
  (List.range d).flatMap (fun _ => e)

/-- A token's term of TOUT (R539). -/
def toutTerm (index flag : Nat) (row : Bytes) : Word :=
  mix (mix (word (index <<< 8) ^^^ word flag) ^^^ word (crcN row))

/-- Adds a word to one place of a sparse array of sums. -/
def addAt (t : Tab Word) (k : Nat) (v : Word) : Tab Word := tabSet 0 t k (tabGet 0 t k + v)

/-- Adds a token's TOUT term to the sum of its digest tile. -/
def Group.addTout (g : Group) (index : Nat) (term : Word) : Group :=
  { g with sums := { g.sums with tout := addAt g.sums.tout (g.enter.idxOf index / 4096) term } }

/-- Writes a token's flag byte, where the layer has a flag base (R209, R210). -/
def State.writeFlag (s : State) (t : Step) (g : Group) (index : Nat) (f : FlagBits) : State :=
  match t.flagAt g index with
  | none => s
  | some a => (s.hbmWrite a [BitVec.ofNat 8 f.toNat]).chargeHbm t.desc.ctx 1

/-- Writes a token's output row, poisoned or clean, and its flag byte; its TOUT term enters the group (R209, R217). -/
def State.writeOut (s : State) (t : Step) (g : Group) (index : Nat) (row : Bytes) (f : FlagBits) : State :=
  let x := t.desc.ctx
  let s := (s.hbmWriteP (t.outAt g index) row f.poison).chargeHbm x row.length
  let s := s.writeFlag t g index f
  s.modGroup x t.desc.step g.layer (fun g => g.addTout index (toutTerm index f.toNat row))

/-- A poisoned row is released: the first of a step raises CAR_POISON (R217). -/
def State.notePoison (s : State) (t : Step) : State :=
  if t.poison then s.setBit aCarErr 2
  else (s.modStep t.desc.ctx t.desc.step (fun u => { u with poison := true })).errBit aCarErr 2 cCarPoison

/-- A token has OVF set: counted, and the first of a step raises CAR_OVF (R213). -/
def State.noteOvf (s : State) (x : Nat) (step : Word) : State :=
  let first := (s.stepOf x step).any (fun t => !t.ovf)
  let s := (s.bump aCarCntOvf).modStep x step (fun u => { u with ovf := true })
  if first then s.raise cCarOvf else s

/-! ## The arrival counter (R126, R136, R210, R212) -/

/-- Tokens of the layer whose increment has been made. -/
def Group.countedN (g : Group) : Nat := (g.toks.filter (·.counted)).length

/-- An increment may be made now: the one that reaches ENTERED waits for STEP_TAG (R136). -/
def Group.mayCount (g : Group) : Bool := g.closed || decide (g.countedN + 1 < g.enter.length)

/-- Marks a token's record. -/
def Group.mark (g : Group) (index : Nat) (f : TokRec → TokRec) : Group :=
  { g with toks := g.toks.map (fun k => if k.index == index then f k else k) }

/-- A token completes: its increment is due behind those of the tokens that completed before it (R212). -/
def Group.completed (g : Group) (index : Nat) : Group := { g with finish := g.finish ++ [index] }

/-- The increment of a token. -/
def State.countToken (s : State) (t : Step) (g : Group) (index : Nat) : State :=
  let s := s.countUp (t.counterOf g) 1
  s.modGroup t.desc.ctx t.desc.step g.layer (fun g =>
    { g.mark index (fun k => { k with settled := true, counted := true }) with
      finish := g.finish.filter (· != index) })

/-- Releases a token with a count of 0, as it completes: a row of +0 elements, or of NaN with poison marking when the
token is poisoned (R125, R593). -/
def State.releaseEmpty (s : State) (t : Step) (g : Group) (k : TokRec) : State :=
  let f := t.prog.cFmt g.pCombine
  let bits : FlagBits := { poison := k.poisoned, zero := !k.poisoned }
  let row := flatRow f t.prog.d (if k.poisoned then Num.nan else numZero)
  let s := s.writeOut t g k.index row bits
  let s := if k.poisoned then s.notePoison ((s.stepOf t.desc.ctx t.desc.step).getD t) else s
  s.modGroup t.desc.ctx t.desc.step g.layer (fun g => (g.mark k.index (fun q => { q with settled := true })).completed k.index)

end Sys2Proof.Machine
end

