-- ==== Sys2Proof/Machine/Selection.lean ====
section
/-! DEFINITION. The select unit: exits, jitter, choices, admission in rounds, gates, records and the layer summary
(R104 to R139, R239, R253, R530, R591, R593). -/

namespace Sys2Proof.Machine

/-! ## Parameters of a SELECT block (R104, R277) -/

def Program.kRenorm (p : Program) (b : Nat) : Bool := bitAt (p.kFlags b) 1
def Program.kShadowOvf (p : Program) (b : Nat) : Bool := bitAt (p.kFlags b) 2
def Program.kExitEn (p : Program) (b : Nat) : Bool := bitAt (p.kFlags b) 3
/-- τ, τ_floor and θ_exit (R105). -/
def Program.kTau (p : Program) (b : Nat) : Num := floatDecode .fp32 (p.at b 8 4)
def Program.kFloor (p : Program) (b : Nat) : Num := floatDecode .fp32 (p.at b 0xC 4)
def Program.kTheta (p : Program) (b : Nat) : Num := floatDecode .fp32 (p.at b 0x10 4)
def Program.kJitter (p : Program) (b : Nat) : Num := floatDecode .bf16 (p.at b 0x14 2)
/-- Gate of shared expert k, BF16. -/
def Program.kShGate (p : Program) (b k : Nat) : Nat := p.at b (0x18 + 2 * k) 2

/-! ## Jitter and preference (R107 to R109) -/

def goldenG : Word := 0x9E3779B97F4A7C15

/-- The 24-bit draw for a token and a routed expert (R107): u is this times 2^−24. -/
def jitterDraw (seed step : Word) (layer index e : Nat) : Nat :=
  let sl := mix (stepSeed seed step + word (layer + 1) * goldenG)
  ((mix (sl + word (index <<< 10 ||| e) * goldenG)) >>> 40).toNat

/-- Ranking score of an expert (R108). -/
def jittered (a p : Num) (draw : Nat) : Num :=
  let m := numOfScaled (2 * (draw : Int) - 2 ^ 24) (-24)
  let j := w40 (numMul a m)
  let f := w40 (numAdd (numOfInt 1) j)
  w40 (numMul p f)

/-- Ranking scores of a token, by expert. -/
def Step.ranks (t : Step) (g : Group) (index : Nat) (scores : List Num) : List Num :=
  let a := t.prog.kJitter g.pSelect
  if numIsZero a then scores
  else (List.range scores.length).map (fun e =>
    jittered a (scores.getD e Num.nan) (jitterDraw t.desc.seed t.desc.step g.layer index e))

/-- Puts an expert behind those ranked at least as high. -/
def prefInsert (r : List Num) (e : Nat) : List Nat → List Nat
  | [] => [e]
  | f :: rest => if numLt (r.getD f Num.nan) (r.getD e Num.nan) then e :: f :: rest else f :: prefInsert r e rest

/-- Preference order: ranking score descending, expert ID ascending. -/
def prefOrder (r : List Num) : List Nat := (List.range r.length).foldl (fun l e => prefInsert r e l) []

/-! ## Choosing experts (R110, R137) -/

/-- k_max under a fallback level; none at level 3, where only shared experts stay (R137). -/
def kmaxAt (kmin kmax level : Nat) : Nat := if level == 0 then kmax else if level ≥ 3 then 0 else kmin

/-- The record of one scored token before admission (R110, R593). -/
def Step.chooseFor (t : Step) (g : Group) (level : Nat) (q : Scored) : TokRec :=
  let p := t.prog
  let b := g.pSelect
  let nan := q.poisoned || numIsNaN q.conf || q.scores.any numIsNaN
  let base : TokRec := {
    index := q.index, level := level, scores := q.scores, choices := [], refused := [], moved := 0, topup := false
    nan := nan, exited := false, poisoned := q.poisoned, settled := false, counted := false, forced := false }
  let exits := level == 4 ||
    (p.kExitEn b && decide (p.kLminExit b ≤ g.layer) && numLe (p.kTheta b) q.conf)
  if q.poisoned then base
  else if exits then { base with exited := true }
  else
    let r := t.ranks g q.index q.scores
    let pref := prefOrder r
    let qual := pref.filter (fun e => numLe (p.kTau b) (r.getD e Num.nan))
    let top := decide (qual.length < p.kMin b) && decide (level < 3)
    let qual := if top then pref.take (p.kMin b) else qual
    let picks := qual.take (kmaxAt (p.kMin b) (p.kMax b) level)
    { base with topup := top, choices := picks.map (fun e => { orig := e, cur := e, state := .undecided }) }

/-! ## Admission (R112 to R118, R239, R253) -/

/-- An expert is unreachable for the step's selection (R239). -/
def State.selUnreachable (s : State) (t : Step) (layer e : Nat) : Bool :=
  s.profile t.desc.ctx == 1 && unreachable t.place layer e

/-- An expert of the layer has shadow weights. -/
def Group.hasShadow (g : Group) (e : Nat) : Bool := g.shadows.any (fun q => q.expert == e)

/-- An expert admits one more choice (R114, R117). -/
def State.admits (s : State) (t : Step) (g : Group) (loads : Tab Nat) (e : Nat) : Bool :=
  !s.selUnreachable t g.layer e &&
    (capOf t.place g.layer e (t.prog.kCap g.pSelect e)).all (fun c => decide (tabGet 0 loads e < c))

/-- Where the search for another expert ends (R115): the experts that refused, and the one that admits. -/
def State.seek (s : State) (t : Step) (g : Group) (loads : Tab Nat) : List Nat → List Nat × Option Nat
  | [] => ([], none)
  | e :: rest =>
    if s.admits t g loads e then ([], some e)
    else
      let r := s.seek t g loads rest
      (e :: r.1, r.2)

/-- What admission has done so far in a unit of work. -/
structure Admit where
  loads : Tab Nat
  /-- refused attempts and recorded choices (R133) -/
  decisions : Nat
  ovf : Nat
  unreach : Nat
  deriving DecidableEq, Repr, Inhabited

/-- Replaces choice j of a token. -/
def TokRec.put (k : TokRec) (j : Nat) (c : Choice) : TokRec := { k with choices := k.choices.set j c }

/-- Decides choice j of a token (R114 to R116, R239). -/
def State.decide_ (s : State) (t : Step) (g : Group) (j : Nat) (k : TokRec) (a : Admit) : TokRec × Admit :=
  match k.choices[j]? with
  | none => (k, a)
  | some c =>
    if c.state != .undecided then (k, a)
    else
      let e := c.orig
      let add := fun (n : Nat) => tabPut a.loads n (tabGet 0 a.loads n + 1)
      if s.selUnreachable t g.layer e && g.hasShadow e then
        (k.put j { c with state := .shadowed }, { a with decisions := a.decisions + 1, unreach := a.unreach + 1 })
      else if s.admits t g a.loads e then
        (k.put j { c with state := .admitted }, { a with loads := add e, decisions := a.decisions + 1 })
      else
        let r := t.ranks g k.index k.scores
        let refused := e :: k.refused
        let list := k.choices.map (·.cur)
        let cands := (prefOrder r).filter (fun f =>
          !list.contains f && !refused.contains f && numLe (t.prog.kFloor g.pSelect) (r.getD f Num.nan))
        let q := s.seek t g a.loads cands
        let k := { k with refused := q.1 ++ refused }
        let tried := 1 + q.1.length
        match q.2 with
        | some f =>
          ({ k.put j { c with cur := f, state := .admitted } with moved := k.moved + 1 },
            { a with loads := add f, decisions := a.decisions + tried + 1 })
        | none =>
          if (t.prog.kShadowOvf g.pSelect || k.level == 2 || k.level == 3) && g.hasShadow e then
            (k.put j { c with state := .shadowed }, { a with decisions := a.decisions + tried + 1, ovf := a.ovf + 1 })
          else (k.put j { c with state := .dropped }, { a with decisions := a.decisions + tried })

/-- One round over tokens in ascending index order. -/
def State.roundOver (s : State) (t : Step) (g : Group) (j : Nat) : List TokRec → Admit → List TokRec × Admit
  | [], a => ([], a)
  | k :: rest, a =>
    let r := s.decide_ t g j k a
    let q := s.roundOver t g j rest r.2
    (r.1 :: q.1, q.2)

/-! ## Counts and gates (R119, R120, R123) -/

def TokRec.admitted (k : TokRec) : List Choice := k.choices.filter (·.state == .admitted)
def TokRec.shadowed (k : TokRec) : List Choice := k.choices.filter (·.state == .shadowed)
def TokRec.dropped (k : TokRec) : List Choice := k.choices.filter (·.state == .dropped)

/-- Every choice of a token is decided. -/
def TokRec.decided (k : TokRec) : Bool := k.choices.all (·.state != .undecided)

/-- The token takes part in the layer: neither exited nor poisoned. -/
def TokRec.live (k : TokRec) : Bool := !k.exited && !k.poisoned

/-- Contribution count (R123). -/
def Step.countOf (t : Step) (g : Group) (k : TokRec) : Nat :=
  if k.live then k.admitted.length + k.shadowed.length + t.prog.kShared g.pSelect + bit (t.prog.cMix g.pCombine) else 0

/-- Every choice of a token is final: in a bounded layer once the whole layer is decided (R131, R132). -/
def Group.finalTok (g : Group) (k : TokRec) : Bool :=
  k.decided && (!g.bounded || (g.toks.length == g.enter.length && g.toks.all (·.decided)))

/-- Sum in W40 of scores taken in ascending expert ID order. -/
def sumScores (scores : List Num) (es : List Nat) : Num :=
  (es.foldl setInsert []).foldl (fun a e => w40 (numAdd a (scores.getD e Num.nan))) numZero

/-- Gate in BF16 of a surviving choice that takes the score of expert e (R119, R120). -/
def Step.gateFor (t : Step) (g : Group) (k : TokRec) (e : Nat) : Nat :=
  let p := k.scores.getD e Num.nan
  let sum := sumScores k.scores ((k.admitted ++ k.shadowed).map (·.cur))
  let v := if numIsZero sum then p
    else if t.prog.kRenorm g.pSelect then w40 (numMul p (sfuRecip sum))
    else if k.dropped.isEmpty then p
    else w40 (numMul (w40 (numMul p (sumScores k.scores (k.choices.map (·.orig))))) (sfuRecip sum))
  floatEncode .bf16 v

/-- The gate of a surviving choice: its current expert's (R119). -/
def Step.gateOf (t : Step) (g : Group) (k : TokRec) (c : Choice) : Nat := t.gateFor g k c.cur

/-- Lane-bound choices of a token with their gates, ascending by expert ID: routed and shared (R106, R111, R127). -/
def Step.laneChoices (t : Step) (g : Group) (k : TokRec) : Tab Nat :=
  if !k.live then []
  else
    let routed := k.admitted.foldl (fun (m : Tab Nat) c => tabPut m c.cur (t.gateOf g k c)) []
    routed ++ (List.range (t.prog.kShared g.pSelect)).map (fun i => (1024 + i, t.prog.kShGate g.pSelect i))

/-! ## Records and digests (R134, R530) -/

/-- Bits [35:0] of a selection record (R134). -/
def Step.rec36 (t : Step) (g : Group) (k : TokRec) : Nat :=
  let live := k.live
  let n := fun (l : List Choice) => if live then l.length else 0
  t.countOf g k + n k.admitted <<< 5 + (if live then t.prog.kShared g.pSelect else 0) <<< 10 +
    (if live then k.moved else 0) <<< 13 + n k.shadowed <<< 18 + n k.dropped <<< 23 + bit k.exited <<< 28 +
    bit k.nan <<< 30 + bit k.topup <<< 31 + k.level <<< 32 + bit (live && t.prog.cMix g.pCombine) <<< 35

/-- Choices of a token as the digest takes them, keyed by expert ID · 4 + kind (R530). -/
def Step.digestChoices (t : Step) (g : Group) (k : TokRec) : Tab Nat :=
  let lanes : Tab Nat := (t.laneChoices g k).map (fun (e : Nat × Nat) => (4 * e.1 + (if e.1 < 1024 then 0 else 1), e.2))
  if k.live then k.shadowed.foldl (fun (m : Tab Nat) c => tabPut m (4 * c.orig + 2) (t.gateOf g k c)) lanes else lanes

/-- tsel of digest tile i (R530). -/
def Step.tselOf (t : Step) (g : Group) (i : Nat) : Word :=
  ((g.toks.drop (4096 * i)).take 4096).foldl (fun h k =>
    let h := mix (h ^^^ word (k.index <<< 36) ^^^ word (t.rec36 g k))
    (t.digestChoices g k).foldl (fun h c => mix (h ^^^ word ((c.1 % 4) <<< 27 ^^^ (c.1 / 4) <<< 16 ^^^ c.2))) h)
    (mix (0x5453454C ^^^ word (g.layer <<< 32) ^^^ word i))

/-! ## SELECT_TILE (R110, R124, R131, R132, R137, R591) -/

/-- Puts records in index order. -/
def recInsert (k : TokRec) : List TokRec → List TokRec
  | [] => [k]
  | q :: rest => if q.index < k.index then q :: recInsert k rest else k :: q :: rest

/-- Tokens that entered and lie before the first that is not yet selected. -/
def Group.prefixLen (g : Group) : Nat := (g.enter.takeWhile (fun i => g.toks.any (fun k => k.index == i))).length

/-- Admission decisions a token has taken: its refused attempts and its recorded choices (R133). -/
def TokRec.decisions (k : TokRec) : Nat :=
  k.refused.length + (k.choices.filter (fun c => c.state == .admitted || c.state == .shadowed)).length

/-- Shared choices recorded for some tokens. -/
def Step.sharedOf (t : Step) (g : Group) (toks : List TokRec) : Nat := t.prog.kShared g.pSelect * (toks.filter (·.live)).length

/-- Admission decisions a layer has taken so far (R133). -/
def Step.decisions (t : Step) (g : Group) : Nat := g.toks.foldl (fun n k => n + k.decisions) (t.sharedOf g g.toks)

/-- Charges the select and sort units' time for the tile whose `prior` cycles have been charged (R133, R502). -/
def State.chargeSelect (s : State) (t : Step) (layer prior cycles : Nat) : State :=
  (s.chargeStep t prior cycles).modGroup t.desc.ctx t.desc.step layer (fun g => { g with spent := prior + cycles })

/-- Notes what admission did: shadow counters, and the group as it leaves the unit. -/
def State.afterAdmit (s : State) (t : Step) (g : Group) (a : Admit) : State :=
  let s := (s.addCtr aShdCntOvf a.ovf).addCtr aShdCntUnreach a.unreach
  s.modStep t.desc.ctx t.desc.step (fun u => { u with group := some { g with loads := a.loads } })

/-- Makes the increments that are due of tokens with a count of 0, while the next one is such a token's (R125, R136,
R212); fuel for the tokens of the list. -/
def drainZeros : Nat → Nat → Word → Nat → State → State
  | 0, _, _, _, s => s
  | n + 1, x, step, layer, s =>
    match (s.stepOf x step).bind (fun t => (t.groupAt layer).map (fun g => (t, g))) with
    | none => s
    | some (t, g) =>
      match g.finish with
      | [] => s
      | i :: _ =>
        if g.mayCount && g.toks.any (fun k => k.index == i && !k.exited && !k.forced && t.countOf g k == 0) then
          drainZeros n x step layer ((s.countToken t g i).bump aCarCntRelease)
        else s

/-- The increments due of tokens with a count of 0. -/
def State.drain (s : State) (x : Nat) (step : Word) (layer : Nat) : State :=
  let n := ((s.stepOf x step).bind (·.groupAt layer)).elim 0 (·.finish.length)
  drainZeros n x step layer s

/-- Releases the decided tokens whose count is 0, and makes their increments as far as the counter may go (R125, R136,
R212, R593). -/
def State.releaseZeros (s : State) (x : Nat) (step : Word) : State :=
  match s.stepOf x step with
  | none => s
  | some t =>
    match t.group with
    | none => s
    | some g =>
      let todo := g.toks.filter (fun k => !k.exited && !k.settled && g.finalTok k && t.countOf g k == 0)
      (todo.foldl (fun s k => s.releaseEmpty t g k) s).drain x step g.layer

/-- Runs every round of an unbounded layer over a tile's tokens, or round 0 of a bounded one over the tokens whose turn
has come (R113, R131, R132): the group with its tokens decided so far. -/
def State.firstRounds (s : State) (t : Step) (g : Group) (fresh : List TokRec) : Group × Admit :=
  let a : Admit := { loads := g.loads, decisions := 0, ovf := 0, unreach := 0 }
  if g.bounded then
    let toks := fresh.foldl (fun l k => recInsert k l) g.toks
    let g := { g with toks := toks }
    let n := g.prefixLen
    let r := s.roundOver t g 0 (toks.take n) a
    ({ g with toks := r.1 ++ toks.drop n, round := if n == g.enter.length then 1 else 0 }, r.2)
  else
    let r := (List.range 16).foldl (fun (q : List TokRec × Admit) j => s.roundOver t g j q.1 q.2) (fresh, a)
    ({ g with toks := r.1.foldl (fun l k => recInsert k l) g.toks }, r.2)

/-- The tile's results enter the layer. -/
def State.selectNow (s : State) (t : Step) (g : Group) (tile : List Scored) : State :=
  let x := t.desc.ctx
  let fresh := tile.map (t.chooseFor g t.level)
  let first := g.toks.isEmpty
  let gone := (fresh.filter (·.exited)).map (·.index)
  let r := s.firstRounds t g (fresh.foldl (fun l k => recInsert k l) [])
  let cycles := (if first then 40 else 0) + ceilDiv (tile.length * t.prog.kE g.pSelect) 512 +
    ceilDiv (r.2.decisions + t.sharedOf g fresh) 64
  let s := s.afterAdmit t { r.1 with scored := g.scored.drop 1, times := g.times.drop 1 } r.2
  let s := s.modStep x t.desc.step (fun u => { u with
    exited := gone.foldl (fun (m : Tab Nat) i => tabPut m i g.layer) u.exited })
  let s := s.chargeSelect t g.layer (g.times.headD 0) cycles
  s.releaseZeros x t.desc.step

/-- SELECT_TILE: `differ` is how often in a row the two copies of a unit differed (R591). -/
def execSelectTile (x : Nat) (differ : Nat) (s : State) : Out :=
  match s.worker x with
  | none => .next s
  | some t =>
    match t.group with
    | none => .next s
    | some g =>
      match g.scored with
      | [] => .next s
      | tile :: _ =>
        let s := if differ == 0 then s else (s.setBit aSelErr 0).addCtr aSelCntRetry (min differ 3)
        if 3 ≤ differ then .next s.halt
        else
          let t := if differ == 0 then t else { t with retry := true, retries := t.retries + differ }
          .next ((s.setStep t).selectNow t g tile)

/-! ## ADMISSION_ROUND and SELECTION_CLOSE -/

/-- Every token that entered has been selected. -/
def Group.allSelected (g : Group) : Bool := g.toks.length == g.enter.length

/-- ADMISSION_ROUND: the next round of a bounded layer over all its tokens (R113, R132). -/
def execAdmissionRound (x : Nat) (s : State) : Out :=
  match s.worker x with
  | none => .next s
  | some t =>
    match t.group with
    | none => .next s
    | some g =>
      if !g.bounded || !g.allSelected || g.round == 0 || g.toks.all (·.decided) then .next s
      else
        let a : Admit := { loads := g.loads, decisions := 0, ovf := 0, unreach := 0 }
        let r := s.roundOver t g g.round g.toks a
        let s := s.afterAdmit t { g with toks := r.1, round := g.round + 1 } r.2
        let n := t.decisions g
        let s := s.chargeSelect t g.layer g.spent (ceilDiv (n + r.2.decisions) 64 - ceilDiv n 64)
        .next (s.releaseZeros x t.desc.step)

/-- Members of the step's table other than this chip and not down: chip IDs. -/
def State.peers (s : State) (t : Step) : List Nat :=
  match t.place with
  | none => []
  | some p => p.members.filter (fun m => m != s.srcOf t.desc.ctx && !bitAt p.down (p.members.idxOf m))

/-- This chip's own selection has reached every batch end (R127): all tokens are selected and decided, and every token
that takes a slot has been bound. -/
def Step.batchEnd (t : Step) (g : Group) : Bool :=
  g.allSelected && g.toks.all (fun k => k.decided && (k.settled || t.countOf g k == 0))

/-- The RCLOSEs of a ring layer, once every RHDR has been sent (R424, R425, R429). -/
def State.ringCloses (s : State) (x : Nat) (step : Word) : State :=
  match s.stepOf x step with
  | none => s
  | some t =>
    match t.group with
    | none => s
    | some g =>
      if modeOf t.place g.layer != 1 || g.ringClosed || !g.closed || !t.batchEnd g then s
      else
        let members := t.place.elim [] (·.members)
        let s := (List.range (t.prog.kE g.pSelect)).foldl (fun s e =>
          match expertOf t.place g.layer e with
          | none => s
          | some o =>
            let m := members.getD o.1 0
            if !(s.peers t).contains m then s
            else s.sendKept ⟨nalHdr 3 0x2A (s.srcOf x) m x 0 0 0 (e + g.layer <<< 11 + (tabGet 0 g.loads e) <<< 22)
              (step.toNat % 2 ^ 17) 0, []⟩) s
        s.modGroup x step g.layer (fun h => { h with ringClosed := true })

/-- Words 0x00 to 0x20 of the layer summary (R135). -/
def Step.summary (t : Step) (g : Group) : List Nat :=
  let n := fun (f : TokRec → Nat) => g.toks.foldl (fun a k => a + f k) 0
  let e := t.prog.kE g.pSelect
  [g.enter.length, n (fun k => bit k.exited), n (fun k => (t.laneChoices g k).length), n (·.moved),
    n (fun k => k.shadowed.length), n (fun k => k.dropped.length),
    ((List.range e).filter (fun i => tabGet 0 g.loads i == 0)).length, n (fun k => bit k.topup), n (fun k => bit k.nan)]

/-- Writes the step's selection records at the layer (R134). -/
def State.writeRecords (s : State) (t : Step) (g : Group) : State :=
  if t.prog.at g.pSelect 0x20 8 == 0 then s
  else
    let base := t.prog.addr t.desc.bases g.pSelect 0x20
    let s := t.tokens.foldl (fun s i =>
      match g.toks.find? (fun k => k.index == i) with
      | some k => s.hbmWrite (base + 8 * i) (natLe 8 (t.rec36 g k))
      | none => s.hbmWrite (base + 8 * i) (natLe 8 (1 <<< 29))) s
    s.chargeHbm t.desc.ctx (8 * t.tokens.length)

/-- Writes the layer summary, STEP_TAG last (R135, R136). -/
def State.writeSummary (s : State) (t : Step) (g : Group) : State :=
  let a := t.prog.addr t.desc.bases g.pSelect 0x28
  let e := t.prog.kE g.pSelect
  let s := s.hbmWrite a ((t.summary g).flatMap (natLe 4) ++ List.replicate 20 0)
  let s := s.hbmWrite (a + 0x3C) (List.replicate 4 0 ++ (List.range e).flatMap (fun i => natLe 4 (tabGet 0 g.loads i)))
  (s.hbmWrite (a + 0x38) (natLe 4 t.desc.step.toNat)).chargeHbm t.desc.ctx (64 + 4 * e)

/-- The selection counters change as the summary's words do (R750). -/
def State.addSelCounters (s : State) (w : List Nat) : State :=
  let k := fun i => w.getD i 0
  (((((s.addCtr aSelCntToken (k 0)).addCtr aSelCntExit (k 1)).addCtr aSelCntChoice (k 2)).addCtr aSelCntMoved
    (k 3)).addCtr aSelCntShadow (k 4)).addCtr aSelCntDrop (k 5)

/-- SELECTION_CLOSE: records, summary, digests, and the releases that waited for STEP_TAG (R134 to R136, R530). -/
def execSelectionClose (x : Nat) (s : State) : Out :=
  match s.worker x with
  | none => .next s
  | some t =>
    match t.group with
    | none => .next s
    | some g =>
      if g.closed || !g.allSelected || !g.toks.all (·.decided) then .next s
      else
        let w := t.summary g
        let s := (s.writeRecords t g).writeSummary t g
        let s := s.addSelCounters w
        let tsel := (List.range ((g.enter.length + 4095) / 4096)).map (t.tselOf g)
        let s := s.modGroup x t.desc.step g.layer (fun h => { h with
          closed := true, tsel := tsel, tally := [w.getD 2 0, w.getD 4 0, w.getD 5 0, w.getD 3 0] })
        .next ((s.releaseZeros x t.desc.step).ringCloses x t.desc.step)

/-- EXIT_COUNT: the increment of a token that has exited: at selection, when its record and its flag byte are out, which
completes it (R121, R126; DESIGN CHOICE, log 88), or by force, once it is the next to count (R207, R210, R212). -/
def execExitCount (x index : Nat) (s : State) : Out :=
  match s.worker x with
  | none => .next s
  | some t =>
    match t.group with
    | none => .next s
    | some g =>
      match g.toks.find? (fun k => k.index == index && (k.exited || k.forced) && !k.counted) with
      | none => .next s
      | some k =>
        if !g.mayCount then .next s
        else if k.forced then
          if g.finish.head? == some index then .next ((s.countToken t g index).drain x t.desc.step g.layer) else .next s
        else if !g.finish.isEmpty || (t.prog.at g.pSelect 0x20 8 != 0 && !g.closed) then .next s
        else
          let bits : FlagBits := { exit := true }
          let s := s.writeFlag t g index bits
          let s := s.modGroup x t.desc.step g.layer (fun h => h.addTout index (toutTerm index bits.toNat []))
          .next (s.countToken t g index)

end Sys2Proof.Machine
end

