-- ==== Sys2Proof/Machine/Rings.lean ====
section
/-! DEFINITION. Expert rings at the owner (R422 to R435, R439, R440): records, rows and closes as they arrive, and the
order in which remote choices join an expert's sequence. -/

namespace Sys2Proof.Machine

/-! ## What the owner holds (R426, R428, R432, R433) -/

/-- Lines of the row of a remote choice: NL of R428. -/
def RingRec.lineCount (r : RingRec) : Nat := (fld r.hdr.toNat 143 128 + 3) / 4

/-- A record's expert and handle. -/
def RingRec.expert (r : RingRec) : Nat := hdrExpert r.hdr
def RingRec.handle (r : RingRec) : Nat := hdrHandle r.hdr

/-- The row of a record. -/
def RingRow.of (w : RingRow) (r : RingRec) : Bool :=
  w.ctx == r.ctx && w.handle == r.handle && w.step == r.step % 256

/-- The row of a record, if any line of it has come. -/
def State.rowOf (s : State) (r : RingRec) : Option RingRow := s.ring.rows.find? (fun w => w.of r)

/-- Lines that a context's rows and records hold: a record takes one until it is discarded (R432, R437). -/
def State.ringLines (s : State) (x : Nat) : Nat :=
  (s.ring.rows.filter (fun w => w.ctx == x)).foldl (fun n w => n + w.lines.length) 0 +
    (s.ring.recs.filter (fun r => r.ctx == x && r.state != 3)).length

/-- Buffers of 128 KiB that hold a number of lines (R432). -/
def ringBufs (lines : Nat) : Nat := (lines * 128 + 131071) / 131072

/-- Takes the in-flight buffers for n more lines, charged to the partition; none where they cannot be had now (R339, R341,
R432). -/
def State.ringRoom (s : State) (x n : Nat) : Option State :=
  let own := tabGet [] s.ring.bufs x
  let need := ringBufs (s.ringLines x + n) - own.length
  match s.allocN 3 need { ctx := x, part := s.ctxPart x, partOnly := true } 4 with
  | (some hs, s) => some { s with ring := { s.ring with bufs := tabSet [] s.ring.bufs x (own ++ hs) } }
  | (none, _) => none

/-- Gives back the buffers that what is left no longer needs. -/
def State.ringTrim (s : State) (x : Nat) : State :=
  let own := tabGet [] s.ring.bufs x
  let k := ringBufs (s.ringLines x)
  ({ s with ring := { s.ring with bufs := tabSet [] s.ring.bufs x (own.take k) } }).freeAll (own.drop k)

/-- A row whose choices have all been written or answered holds no line any longer (R433). -/
def RingRow.use (w : RingRow) (nch : Nat) : RingRow :=
  let n := w.used + 1
  { w with used := n, freed := w.freed || decide (nch ≤ n), lines := if nch ≤ n then [] else w.lines }

/-- One choice of a row has been written or answered (R433). -/
def State.useRow (s : State) (r : RingRec) : State :=
  let rows := s.ring.rows.map (fun (w : RingRow) => if w.of r then w.use r.nch else w)
  ({ s with ring := { s.ring with rows := rows } }).ringTrim r.ctx

/-- Replaces a record. -/
def State.setRec (s : State) (r : RingRec) (f : RingRec → RingRec) : State :=
  { s with ring := { s.ring with recs := s.ring.recs.map (fun q => if q == r then f q else q) } }

/-- ADDR of a ring return (R425). -/
def RingRec.returnAddr (r : RingRec) (line fmt : Nat) : Nat :=
  hdrSlot r.hdr + r.choice <<< 15 + r.bgen <<< 20 + line <<< 36 + fmt <<< 45

/-- An RWDRAW for a record (R437, R439). -/
def State.sendWdraw (s : State) (r : RingRec) (poison : Bool) : State :=
  s.sendKept ⟨nalHdr 4 0x2D (s.srcOf r.ctx) r.src r.ctx 0 (bit poison) 0 (r.returnAddr 0 0) (r.step % 2 ^ 17) 0, []⟩

/-- A record whose row is whole becomes ready, behind those that are; one whose row is poisoned is answered (R433,
R434, R439). -/
def State.settleRec (s : State) (r : RingRec) : State :=
  match s.rowOf r with
  | none => s
  | some w =>
    if r.state != 0 then s
    else if w.poison then ((s.setRec r (fun q => { q with state := 3 })).sendWdraw r true).useRow r
    else if decide (r.lineCount ≤ w.lines.length) then
      { s with ring := { s.ring with recs := s.ring.recs.filter (· != r) ++ [{ r with state := 1 }] } }
    else s

/-- Settles every record that waits for a row. -/
def State.settleRow (s : State) (x handle step8 : Nat) : State :=
  (s.ring.recs.filter (fun r => r.ctx == x && r.handle == handle && r.step % 256 == step8 && r.state == 0)).foldl
    (fun s r => s.settleRec r) s

/-! ## Receipt (R425, R432, R440) -/

/-- The admitted step of a context whose counter ends in the low k bits given. -/
def State.stepLow (s : State) (x k low : Nat) : Option Step :=
  s.rgm.steps.find? (fun t => t.desc.ctx == x && t.phase != .queued && t.desc.step.toNat % 2 ^ k == low)

/-- RCLOSEs received for a context, step, layer and expert from a chip. -/
def State.closeOf (s : State) (x step src layer e : Nat) : Option RingClose :=
  s.ring.closes.find? (fun c => c.ctx == x && c.step == step % 2 ^ 17 && c.src == src && c.layer == layer && c.expert == e)

/-- Records of one origin for an expert of a layer. -/
def State.recsFrom (s : State) (x step src layer e : Nat) : List RingRec :=
  s.ring.recs.filter (fun r => r.ctx == x && r.step % 2 ^ 17 == step % 2 ^ 17 && r.src == src && r.expert == e &&
    handleLayer r.handle == layer)

/-- A ring packet that finds no buffer waits for one (R341). -/
def State.ringWait (s : State) (port : Nat) (pkt : Packet) : State :=
  { s with ring := { s.ring with wait := s.ring.wait ++ [(port, pkt)] } }

/-- What an RHDR does at its owner (R426, R432, R433, R440). -/
def State.takeRhdr (s : State) (port : Nat) (pkt : Packet) : State :=
  let x := pCtx pkt
  let h := BitVec.ofNat 256 (fieldAt pkt.data 0 32)
  let r : RingRec := {
    ctx := x, step := hdrStep h, src := pSrc pkt, hdr := h, choice := fieldAt pkt.data 32 1 % 32
    bgen := fieldAt pkt.data 34 2, nch := fieldAt pkt.data 36 1, epoch := fieldAt pkt.data 40 4, state := 0, lines := [] }
  let layer := handleLayer r.handle
  let again := s.ring.recs.any (fun q =>
    q.ctx == x && q.step == r.step && q.handle == r.handle && q.expert == r.expert)
  let tooFar := (s.closeOf x r.step r.src layer r.expert).any (fun c =>
    decide (c.count ≤ (s.recsFrom x r.step r.src layer r.expert).length))
  let bad := (s.stepLow x 32 r.step).any (fun t => s.ringRecBad t r)
  if !s.ctxLoaded x || again || tooFar || bad then s.ringFault x
  else
    match s.ringRoom x 1 with
    | none => s.ringWait port pkt
    | some s => ({ s with ring := { s.ring with recs := s.ring.recs ++ [r] } }).settleRec r

/-- What an RROW does at its owner (R428, R432, R433, R439, R440). Lines of a row that is freed are noted and not held. -/
def State.takeRrow (s : State) (port : Nat) (pkt : Packet) : State :=
  let x := pCtx pkt
  let handle := cleanHandle (pAddr pkt)
  let step8 := fld (pTag pkt) 16 9
  let first := fld (pTag pkt) 8 0
  let n := pLen pkt
  let is := fun (w : RingRow) => w.ctx == x && w.handle == handle && w.step == step8
  let row := (s.ring.rows.find? is).getD
    { ctx := x, src := pSrc pkt, handle := handle, step := step8, lines := [], seen := [], freed := false, poison := false
      used := 0 }
  let twice := (List.range n).any (fun i => row.seen.contains (first + i))
  let bad := (s.stepLow x 8 step8).any (fun t => !ringMember t.place (pSrc pkt))
  if !s.ctxLoaded x || twice || bad then s.ringFault x
  else
    match s.ringRoom x (if row.freed then 0 else n) with
    | none => s.ringWait port pkt
    | some s =>
      let lines := if row.freed then [] else (List.range n).foldl (fun (m : Tab Bytes) i =>
        tabPut m (first + i) (sliceBytes pkt.data (128 * i) 128)) row.lines
      let seen := (List.range n).foldl (fun m i => setInsert m (first + i)) row.seen
      let row := { row with lines := lines, seen := seen, poison := row.poison || pPoison pkt }
      let rows := s.ring.rows.filter (fun w => !is w) ++ [row]
      ({ s with ring := { s.ring with rows := rows } }).settleRow x handle step8

/-- RHDR. -/
def execRhdr (port : Nat) (pkt : Packet) (s : State) : Out :=
  s.receive port pkt (· == 0x28) (fun s => s.takeRhdr port pkt)

/-- RROW. -/
def execRrow (port : Nat) (pkt : Packet) (s : State) : Out :=
  s.receive port pkt (· == 0x29) (fun s => s.takeRrow port pkt)

/-- Tries the ring packets that wait for a buffer again, each once, oldest first (R341). -/
def State.retryRing (s : State) : State :=
  s.ring.wait.foldl (fun s e => if pOp e.2 == 0x28 then s.takeRhdr e.1 e.2 else s.takeRrow e.1 e.2)
    { s with ring := { s.ring with wait := [] } }

/-- RCLOSE (R429, R435, R440). -/
def execRclose (port : Nat) (pkt : Packet) (s : State) : Out :=
  s.receive port pkt (· == 0x2A) (fun s =>
    let x := pCtx pkt
    let c : RingClose := {
      ctx := x, step := pTag pkt % 2 ^ 17, src := pSrc pkt, layer := fld (pAddr pkt) 18 11
      expert := fld (pAddr pkt) 10 0, count := fld (pAddr pkt) 44 22 }
    let bad := (s.stepLow x 17 c.step).any (fun t => !ringMember t.place c.src)
    if !s.ctxLoaded x || bad || decide (c.count < (s.recsFrom x c.step c.src c.layer c.expert).length) then s.ringFault x
    else { s with ring := { s.ring with closes := s.ring.closes ++ [c] } })

/-! ## Joining an expert's sequence (R434, R435) -/

/-- Appends an entry to an expert's sequence. -/
def Group.append (g : Group) (e : Nat) (v : Bool × Nat) : Group :=
  { g with order := tabPut g.order e (tabGet [] g.order e ++ [v]) }

/-- Ready remote choices of the layer that are not yet in a sequence join theirs, in the order they became ready. -/
def State.mergeRing (s : State) (t : Step) (g : Group) : Group :=
  s.ring.recs.foldl (fun g r =>
    if r.ctx == t.desc.ctx && r.step == t.desc.step.toNat % 2 ^ 32 && handleLayer r.handle == g.layer && r.state == 1 &&
        !(tabGet [] g.order r.expert).contains (false, r.handle) then g.append r.expert (false, r.handle)
    else g) g

/-- Every RCLOSE of an expert has come, and every choice it announced has been written (R435). -/
def State.ringMet (s : State) (t : Step) (layer e : Nat) : Bool :=
  modeOf t.place layer != 1 || decide (1024 ≤ e) || (s.peers t).all (fun m =>
    match s.closeOf t.desc.ctx t.desc.step.toNat m layer e with
    | none => false
    | some c => decide (c.count ≤
        ((s.recsFrom t.desc.ctx t.desc.step.toNat m layer e).filter (fun r => decide (2 ≤ r.state))).length))

/-! ## Retries of waiting allocations (R338, R341) -/

/-- Everything that waits for a buffer of a class tries again: waiting allocations, and for class 3 ring packets. -/
def State.retryPool (s : State) (cls n : Nat) : State :=
  let s := serveWaits n cls s
  if cls == 3 then s.retryRing else s

/-- FREE_LIST_REBUILD_DONE (R338). -/
def execFreeListRebuildDone (cls : Nat) (s : State) : Out :=
  if cls < 6 && (s.pool cls).rebuilding then .next ((s.rebuild cls).retryPool cls s.pol.waits.length) else .next s

/-- INFLIGHT_ALLOC_RETRY: the oldest waiting allocation of a pool is tried again (R341). -/
def execInflightAllocRetry (cls : Nat) (s : State) : Out :=
  if cls < 6 && !(s.pool cls).rebuilding then .next (s.retryPool cls 1) else .next s

end Sys2Proof.Machine
end

