-- ==== Sys2Proof/Machine/Lanes.lean ====
section
/-! DEFINITION. Dispatch lanes: building packets, what the tile takes, the counters on the port, and lanes entering and
leaving service (R140 to R191, R434, R435, R595). -/

namespace Sys2Proof.Machine

/-! ## A lane's queue (R144, R147, R159 to R161, R176) -/

/-- A lane is in service. -/
def State.laneOn (s : State) (n : Nat) : Bool := decide (n < 128) && s.islState n == 0

/-- A packet and the one behind it are of one batch: the same expert of the same layer of the same step, in rising BSEQ,
or its close (R154, R157). -/
def DPkt.continues (p q : DPkt) : Bool :=
  p.token && p.ctx == q.ctx && p.step == q.step && p.expert == q.expert &&
    handleLayer (hdrHandle p.hdr) == handleLayer (hdrHandle q.hdr) && decide (hdrBseq p.hdr < hdrBseq q.hdr)

/-- The first batch of a list of packets: up to its CLOSE, or, where its step's abort left it none, up to the packet of
another batch (R159). -/
def headBatch : List DPkt → List DPkt
  | [] => []
  | [p] => [p]
  | p :: q :: rest => if p.continues q then p :: headBatch (q :: rest) else [p]

/-- Packets whose header the tile has not taken: the next of them is the next to be presented. -/
def Lane.waiting (l : Lane) : List DPkt := l.dq.filter (fun p => p.taken == 0)

/-- The packets of the head batch that wait (R159). -/
def Lane.head (l : Lane) : List DPkt := headBatch l.waiting

/-- DQ_PKTS: whole packets that wait, as far as they are counted (R159). -/
def Lane.pkts (l : Lane) : Nat := (l.waiting.filter (·.counted)).length

/-- DQ_HEADTOK: counted token packets of the head batch that wait (R159). -/
def Lane.headTok (l : Lane) : Nat := (l.head.filter (fun p => p.token && p.counted)).length

/-- DQ_CLOSED: the head batch's close is in the queue and counted (R160). -/
def Lane.dqClosed (l : Lane) : Bool := l.head.any (fun p => !p.token && p.counted)

/-- DQ_GO (R161). -/
def Lane.go (l : Lane) : Bool := l.dqClosed || (l.headC != 0 && decide (l.headC ≤ l.headTok))

/-- Appends a packet to a dispatch queue, its header flit written (R177). -/
def State.enqueue (s : State) (n : Nat) (p : DPkt) : State :=
  let l := s.lane n
  s.putLane n { l with dq := l.dq ++ [p] }

/-! ## A lane's share of an expert's sequence (R148, R149, R434) -/

/-- Entries of an expert's sequence that go to a physical lane, with their logical lanes. -/
def Step.laneSeq (t : Step) (g : Group) (lane e : Nat) : List (Nat × Bool × Nat) :=
  let ls := t.laneList g e
  ((tabGet [] g.order e).zipIdx.map (fun (q : (Bool × Nat) × Nat) => (ls.getD (q.2 % ls.length) 0, q.1))).filter
    (fun q => t.phys q.1 == lane)

/-- The slot that holds a token of a step's layer. -/
def State.slotOf (s : State) (x : Nat) (step : Word) (layer index : Nat) : Option (Nat × Slot) :=
  s.car.slots.find? (fun e => e.2.ctx == x && e.2.step == step && e.2.layer == layer && e.2.index == index)

def State.setSlot (s : State) (n : Nat) (p : Slot) : State :=
  { s with car := { s.car with slots := tabPut s.car.slots n p } }

/-- What a lane writes next of an expert. -/
inductive NextPkt where
  /-- the token of a slot: how many entries are passed over, logical lane, slot number, slot, gate -/
  | local (skip logical n : Nat) (slot : Slot) (gate : BitVec 16)
  /-- a remote choice -/
  | remote (skip logical : Nat) (r : RingRec)
  | none
  deriving Repr, Inhabited

/-- The first entry that still has a packet to send; a choice withdrawn before its packet was built is passed over. -/
def State.nextOf (s : State) (t : Step) (g : Group) (e : Nat) (skip : Nat) : List (Nat × Bool × Nat) → NextPkt
  | [] => .none
  | (logical, here, key) :: rest =>
    if here then
      match s.slotOf t.desc.ctx t.desc.step g.layer key with
      | some (n, p) =>
        match p.choices.find? (fun c => c.expert == e && !c.withdrawn) with
        | some c => .local skip logical n p c.gate
        | none => s.nextOf t g e (skip + 1) rest
      | none => s.nextOf t g e (skip + 1) rest
    else
      match s.ring.recs.find? (fun r => r.ctx == t.desc.ctx && r.step == t.desc.step.toNat % 2 ^ 32 &&
          r.handle == key && r.expert == e && r.state == 1) with
      | some r => .remote skip logical r
      | none => s.nextOf t g e (skip + 1) rest

/-- The layer of a step that a lane serves now: the oldest one with a batch to close on it, and the lane's progress in it
(R149). -/
def State.runOn (s : State) (t : Step) (lane : Nat) : Option (Group × LaneRun) :=
  t.groups.findSome? (fun g =>
    (g.lanes.find? (fun r => r.lane == lane && s.batchesDue t g lane r.closed)).map (fun r => (g, r)))

/-- The expert a lane serves now: the open batch's, or the lowest that is not closed (R149). -/
def State.laneExpert (s : State) (t : Step) (g : Group) (r : LaneRun) : Option Nat :=
  match r.expert with
  | some e => some e
  | none => (s.localExperts t g).find? (fun e => !r.closed.contains e && (t.physOf g e).contains r.lane)

/-- Another step has a batch open on the lane (R150). -/
def State.laneHeld (s : State) (lane x : Nat) : Bool :=
  s.rgm.steps.any (fun t => t.desc.ctx != x &&
    t.groups.any (fun g => g.lanes.any (fun r => r.lane == lane && r.expert.isSome && !r.partialClose)))

/-- Changes a lane's progress. -/
def Group.setRun (g : Group) (r : LaneRun) : Group :=
  { g with lanes := g.lanes.map (fun q => if q.lane == r.lane then r else q) }

/-- A step whose batches are being written: it runs, or has issued its last op and has batches left to close; a park has
not cut its context off, and the engine has not halted. -/
def State.writes (s : State) (t : Step) : Bool :=
  let x := t.desc.ctx
  (t.phase == .running || t.phase == .draining) && t.abort == 0 && !t.frozen && !s.halted &&
    (s.ctxState x == 2 || (s.ctxState x == 3 && !(s.ctx x).parkCut))

/-- Puts a step before those of higher virtual time, context IDs settling a tie; steps of one context keep their order
(R149, R501). -/
def State.byVtime (s : State) (t : Step) : List Step → List Step
  | [] => [t]
  | u :: rest =>
    let vt := s.regN (aCtxVtime t.desc.ctx)
    let vu := s.regN (aCtxVtime u.desc.ctx)
    if decide (vt < vu) || (vt == vu && decide (t.desc.ctx < u.desc.ctx)) then t :: u :: rest else u :: s.byVtime t rest

/-- The steps that may write to a lane, the one served first first: the oldest step of each context that has a batch to
write there, lowest virtual time first (R149, R150, R501). -/
def State.writers (s : State) (lane : Nat) : List Step :=
  let all := s.rgm.steps.filter (fun t => (s.runOn t lane).isSome && !s.laneHeld lane t.desc.ctx)
  let first := all.filter (fun t => (all.find? (fun u => u.desc.ctx == t.desc.ctx)) == some t)
  (first.filter s.writes).foldl (fun l t => s.byVtime t l) []

/-! ## Token packets (R152, R154, R157, R595) -/

/-- Elements that flit i of a row in a format carries or scales. -/
def flitElems (fmt d i : Nat) : Nat × Nat :=
  if fmt < 5 then
    let k := 32 / floatBytes (rowFmt fmt)
    (k * i, k * i + k)
  else if i < d / 32 then (32 * i, 32 * i + 32)
  else (1024 * (i - d / 32), min d (1024 * (i - d / 32) + 1024))

/-- Some byte of a row in HBM that elements lo to hi − 1 come from is poisoned. -/
def State.elemsPoisoned (s : State) (a fmt d lo hi : Nat) : Bool :=
  let w := floatBytes (rowFmt fmt)
  s.hbmPoisoned (a + w * lo) (w * (hi - lo)) ||
    (decide (5 ≤ fmt) && s.hbmPoisoned (a + d + lo / 32) ((hi + 31) / 32 - lo / 32))

/-- A token's payload in the lane format, flits read poisoned being zero, and whether any was (R152, R595). -/
def State.payload (s : State) (t : Step) (g : Group) (index : Nat) : Bytes × Bool :=
  let b := g.pScore
  let d := t.prog.d
  let src := t.prog.at b 0x6C 1
  let a := t.rowAt b index
  let bs := rowConvert src g.fmt d (s.hbmRead a (t.rowLen b))
  let bad := (List.range (nflit g.fmt d)).map (fun i =>
    if src == g.fmt then s.hbmPoisoned (a + 32 * i) 32
    else
      let r := flitElems g.fmt d i
      s.elemsPoisoned a src d r.1 r.2)
  if bad.any id then
    ((List.range (nflit g.fmt d)).flatMap (fun i =>
      if bad.getD i false then List.replicate 32 0 else sliceBytes bs (32 * i) 32), true)
  else (bs, false)

/-- The lane has gone through `skip` + 1 more entries of an expert and written a packet. -/
def Group.wrote (g : Group) (lane e skip : Nat) (r : LaneRun) : Group :=
  let k := lane * 2048 + e
  ({ g with sent := tabSet 0 g.sent k (tabGet 0 g.sent k + skip + 1) }).setRun
    { r with expert := some e, bseq := r.bseq + 1, partialClose := false }

/-- The packet of a local choice. -/
def State.writeLocal (s : State) (t : Step) (g : Group) (lane e logical n : Nat) (p : Slot) (gate : BitVec 16)
    (bseq : Nat) : State :=
  let x := t.desc.ctx
  let q := s.payload t g p.index
  let h := dispatchFlit 1 0 p.handle e gate.toNat n g.fmt x (nflit g.fmt t.prog.d) (t.prog.d / 64) t.desc.step.toNat bseq
  let s := s.chargeHbm x (t.rowLen g.pScore)
  let s := if q.2 then s.setSlot n { p with poison := true } else s
  s.enqueue lane {
    hdr := h, data := q.1, token := true, void := false, built := 1, taken := 0, counted := false, part := t.part, ctx := x
    step := t.desc.step, expert := e, index := p.index, slot := n, logical := logical, remote := false }

/-- The packet of a remote choice: the fields of the origin's header, its reserved bits ignored, with this lane's BSEQ
(R6, R434). -/
def State.writeRemote (s : State) (t : Step) (lane e logical : Nat) (r : RingRec) (bseq : Nat) : State :=
  let h := r.hdr
  let n := fld h.toNat 143 128
  let row := (s.rowOf r).elim [] (fun w => (List.range r.lineCount).flatMap (fun i => tabGet [] w.lines i))
  let s := s.enqueue lane {
    hdr := dispatchFlit 1 0 r.handle (hdrExpert h) (hdrGate h) (hdrSlot h) (hdrFmt h) (hdrCtx h) n (fld h.toNat 152 144)
      (hdrStep h) bseq
    data := sliceBytes row 0 (32 * n), token := true, void := false, built := 1
    taken := 0, counted := false, part := t.part, ctx := r.ctx, step := t.desc.step, expert := e
    index := handleIdx r.handle, slot := hdrSlot h, logical := logical, remote := true }
  (s.setRec r (fun q => { q with state := 2 })).useRow r

/-- The next packet a step can write to a lane, if any. -/
def State.due (s : State) (t : Step) (lane : Nat) : Option (Group × LaneRun × Nat × NextPkt) :=
  (s.runOn t lane).bind (fun q =>
    let g := s.mergeRing t q.1
    (s.laneExpert t g q.2).bind (fun e =>
      match s.nextOf t g e 0 ((t.laneSeq g lane e).drop (tabGet 0 g.sent (lane * 2048 + e))) with
      | .none => none
      | k => some (g, q.2, e, k)))

/-- No packet is in building on a lane and its queue has room for a flit (R177). -/
def State.laneRoom (s : State) (lane : Nat) : Bool :=
  let l := s.lane lane
  decide (l.occ < s.dqCap lane) && l.dq.all (·.whole)

/-- TOKEN_PACKET_WRITE: the next token packet due on a lane is built, as far as the queue has room; the rest follows as
the tile takes flits (R149, R150, R152, R177). -/
def execTokenPacketWrite (lane : Nat) (s : State) : Out :=
  if !s.laneOn lane || !s.laneRoom lane then .next s
  else
    match (s.writers lane).findSome? (fun t => (s.due t lane).map (fun d => (t, d))) with
    | none => .next s
    | some (t, g, r, e, k) =>
      let after := fun (skip : Nat) => s.putGroup t.desc.ctx t.desc.step (g.wrote lane e skip r)
      match k with
      | .none => .next s
      | .local skip logical n p gate => .next ((after skip).writeLocal t g lane e logical n p gate r.bseq)
      | .remote skip logical q => .next ((after skip).writeRemote t lane e logical q r.bseq)

/-! ## Batch closes (R127, R148, R157, R182, R435) -/

/-- A CLOSE packet (R154). -/
def State.closePkt (s : State) (t : Step) (g : Group) (e bcount : Nat) (partly : Bool) : DPkt :=
  let x := t.desc.ctx
  { hdr := dispatchFlit 2 (bit partly) (handleFor (s.srcOf x) 0 g.layer) e 0 0 0 x 0 (t.prog.d / 64) t.desc.step.toNat bcount
    data := [], token := false, void := false, built := 1, taken := 0, counted := false, part := t.part, ctx := x
    step := t.desc.step, expert := e, index := 0, slot := 0, logical := 0, remote := false }

/-- A layer whose batches are all closed needs to be kept no longer once its group has completed (R278). -/
def Step.dropTails (s : State) (t : Step) : Step := { t with tails := t.tails.filter (fun g => !s.batchesClosed t g) }

/-- The close of a whole batch. -/
def State.closeBatch (s : State) (t : Step) (g : Group) (lane e : Nat) (r : LaneRun) : State :=
  let x := t.desc.ctx
  let g1 := g.setRun { r with closed := setInsert r.closed e, expert := none, bseq := 0, partialClose := false }
  let s := s.putGroup x t.desc.step g1
  let s := s.modStep x t.desc.step (fun u => u.dropTails s)
  s.enqueue lane (s.closePkt t g e r.bseq false)

/-- CLOSE_PACKET_WRITE: the close of the batch that a context's step has reached on a lane, or a PARTIAL close when the
context is being parked (R148, R182, R435). -/
def execClosePacketWrite (lane x : Nat) (s : State) : Out :=
  match s.rgm.steps.find? (fun t => t.desc.ctx == x && (s.runOn t lane).isSome) with
  | none => .next s
  | some t =>
    match s.runOn t lane with
    | none => .next s
    | some (g, r) =>
      if !s.laneOn lane || s.halted || t.frozen || s.laneHeld lane x || !s.laneRoom lane then .next s
      else if s.ctxState x == 3 && (s.ctx x).parkCut then
        match r.expert with
        | some e =>
          if r.partialClose then .next s
          else
            let s := s.putGroup x t.desc.step (g.setRun { r with partialClose := true })
            .next (s.enqueue lane (s.closePkt t g e r.bseq true))
        | none => .next s
      else if !s.writes t then .next s
      else
        let g := s.mergeRing t g
        match s.laneExpert t g r with
        | none => .next s
        | some e =>
          match s.nextOf t g e 0 ((t.laneSeq g lane e).drop (tabGet 0 g.sent (lane * 2048 + e))) with
          | .none =>
            if t.batchEnd g && s.ringMet t g.layer e then .next (s.closeBatch t g lane e r) else .next s
          | _ => .next s

/-! ## The port (R141, R159 to R168) -/

/-- A packet whose increment is due: its end-marked flit is in the queue, its header is not taken (R159). -/
def DPkt.countDue (p : DPkt) : Bool := !p.counted && p.taken == 0 && p.whole

/-- Counts the first packet of a queue whose increment is due. -/
def countFirst : List DPkt → List DPkt
  | [] => []
  | p :: rest => if p.countDue then { p with counted := true } :: rest else p :: countFirst rest

/-- DQ_COUNT_UPDATE: a packet whose end-marked flit is in the queue is counted (R159, R160). -/
def execDqCountUpdate (lane : Nat) (s : State) : Out :=
  let l := s.lane lane
  .next (s.setLane lane { l with dq := countFirst l.dq })

/-- The choice's packet header has been taken: the time for R255, and the LDSP term of its lane (R539). -/
def State.headerTaken (s : State) (p : DPkt) : State :=
  let layer := handleLayer (hdrHandle p.hdr)
  let s := s.modGroup p.ctx p.step layer (fun g =>
    let term := mix (mix (word ((p.index <<< 36) ^^^ (p.expert <<< 16) ^^^ hdrGate p.hdr)) ^^^ word (crcN p.data))
    { g with sums := { g.sums with ldsp := addAt g.sums.ldsp p.logical term } })
  if p.remote then s
  else
    match tabFind s.car.slots p.slot with
    | some q =>
      if q.ctx == p.ctx && q.step == p.step && q.index == p.index then
        s.setSlot p.slot { q with
          choices := q.choices.map (fun c => if c.expert == p.expert then { c with takenAt := some s.tb } else c) }
      else s
    | none => s

/-- Flit k of a packet, with its end mark (R143, R163). -/
def DPkt.flit (p : DPkt) (k : Nat) : BitVec 256 × Bool :=
  (if k == 0 then p.hdr else BitVec.ofNat 256 (fieldAt p.data (32 * (k - 1)) 32), k + 1 == p.total)

/-- Flits [k, k + n) of a packet. -/
def DPkt.flitsFrom (p : DPkt) (k n : Nat) : List (BitVec 256 × Bool) := (List.range n).map (fun i => p.flit (k + i))

/-- The head batch changes as a packet's header is taken: it was the batch's close; or the packet that waits behind it is
of another batch; or none waits and the batch, its step being aborted, goes on no more (R159, R160). -/
def State.headMoves (s : State) (p : DPkt) : List DPkt → Bool
  | q :: _ => !p.continues q
  | [] => !p.token || p.void || (s.stepOf p.ctx p.step).all (fun t => t.abort != 0)

/-- The tile takes the header of a packet; a batch that becomes the head batch takes its C from LAN_CT (R161). -/
def State.takeHeader (s : State) (lane : Nat) (p : DPkt) : State :=
  let l := s.lane lane
  let rest := l.dq.drop 1
  let gone := p.total == 1
  let l := { l with
    dq := if gone then rest else { p with taken := 1, counted := true } :: rest
    headC := if s.headMoves p rest then s.f (aLanCt lane) 12 0 else l.headC
    out := p.flitsFrom 0 1 }
  if !p.token then (s.putLane lane l).bump (aLanCntClose lane)
  else if p.void then s.putLane lane l
  else
    let o : Owed := {
      ctx := p.ctx, step := p.step, handle := hdrHandle p.hdr, expert := p.expert, slot := p.slot, part := p.part
      left := 64 * fld p.hdr.toNat 152 144 }
    ((s.putLane lane { l with owed := l.owed ++ [o] }).bump (aLanCntToken lane)).headerTaken p

/-- The tile takes payload flits of the packet being read, as they are written (R141, R162). -/
def State.takeFlits (s : State) (lane k : Nat) : State :=
  let l := s.lane lane
  match l.dq with
  | [] => s
  | p :: rest =>
    if p.taken == 0 then s
    else
      let n := min k (p.total - p.taken)
      let p1 := { p with taken := p.taken + n, built := max p.built (p.taken + n) }
      s.putLane lane { l with
        dq := if p1.taken == p1.total then rest else p1 :: rest, out := l.out ++ p.flitsFrom p.taken n }

/-- PACKET_TAKE: the tile takes flits of the packet presented (R141, R143, R159 to R165). -/
def execPacketTake (lane flits : Nat) (s : State) : Out :=
  if !s.laneOn lane || flits == 0 then .next s
  else
    match (s.lane lane).dq with
    | [] => .next s
    | p :: _ =>
      if p.taken == 0 then
        let s := s.takeHeader lane p
        .next (if p.total == 1 then s else s.takeFlits lane (flits - 1))
      else .next ((s.setLane lane { s.lane lane with out := [] }).takeFlits lane flits)

/-- A packet is partly read. -/
def Lane.reading (l : Lane) : Bool := (l.dq.head?).any (fun p => p.taken != 0)

/-- An ineffective DROP or an undefined LCMD (R167). -/
def State.badCmd (s : State) (lane : Nat) : State := s.errBit (aLanErr lane) 4 cLaneCmd

/-- The latest take passed a packet's end-marked flit. -/
def Lane.ended (l : Lane) : Bool := (l.out.getLast?).any (·.2)

/-- LANE_DROP (R166, R167): flits not yet written are discarded too. `atEnd` says that the DROP comes in the cycle of the
latest take, and it has no effect where that took the packet's end-marked flit. -/
def execLaneDrop (lane : Nat) (atEnd : Bool) (s : State) : Out :=
  if !s.laneOn lane then .next s
  else
    let l := s.lane lane
    if atEnd && l.ended && !l.reading then .next s
    else if l.reading then .next ((s.putLane lane { l with dq := l.dq.drop 1 }).bump (aLanCntDrop lane))
    else .next (s.badCmd lane)

/-- LCMD_UNDEFINED: a value other than 0 and 1, or a DROP with no packet partly read (R167). -/
def execLcmdUndefined (lane cmd : Nat) (s : State) : Out :=
  if !s.laneOn lane || cmd % 16 == 0 || (cmd % 16 == 1 && (s.lane lane).reading) then .next s
  else .next (s.badCmd lane)

/-! ## Lane registers (R173, R185 to R187) -/

/-- A write of LAN_CT (R185). -/
def State.lanCt (s : State) (n : Nat) (v : Word) : State :=
  let c := fld v.toNat 12 0
  if c > 4096 then s.refuse else (s.setF (aLanCt n) 12 0 c).done

/-- LAN_CT_WRITE. -/
def execLanCtWrite (lane : Nat) (v : Word) (s : State) : Out :=
  .next (if lane < 128 then (if s.portShut || s.applying 7 then s.refuse else s.lanCt lane v) else s)

/-- A write of LAN_DQ_WM or LAN_RQ_WM (R173). -/
def State.lanWm (s : State) (n : Nat) (rq : Bool) (v : Word) : State :=
  let hi := fld v.toNat 19 0
  let lo := fld v.toNat 51 32
  let cap := 8192 + 4096 * s.f (aLanBack n) 14 8
  if hi ≤ lo || (rq && decide (cap < hi + 32)) then s.refuse
  else
    let a := if rq then aLanRqWm n else aLanDqWm n
    let s := s.setReg a (mergeMask (s.reg a) v (fm 19 0 + fm 51 32))
    (if rq || !s.laneOn n then s else s.putLane n (s.lane n)).done

/-- LAN_WM_WRITE. -/
def execLanWmWrite (lane : Nat) (rq : Bool) (v : Word) (s : State) : Out :=
  .next (if lane < 128 then (if s.portShut || s.applying 7 then s.refuse else s.lanWm lane rq v) else s)

/-- A write of LAN_BACK (R187). -/
def State.lanBack (s : State) (n : Nat) (v : Word) : State :=
  if s.islState n == 0 || fld v.toNat 6 0 > 64 || fld v.toNat 14 8 > 64 then s.refuse
  else (s.setReg (aLanBack n) (mergeMask (s.reg (aLanBack n)) v (fm 6 0 + fm 14 8))).done

/-- LAN_BACK_WRITE. -/
def execLanBackWrite (lane : Nat) (v : Word) (s : State) : Out :=
  .next (if lane < 128 then (if s.portShut || s.applying 7 then s.refuse else s.lanBack lane v) else s)

/-! ## Entering and leaving service (R145, R179 to R181) -/

/-- LAN_CTRL.OOS_REQ: the bit is set, and LANE_LEAVE_SERVICE clears it when the lane has left (R12, R180, R184). -/
def State.laneOos (s : State) (n : Nat) : State := (s.setF (aLanCtrl n) 8 8 1).done

/-- LANE_OOS_REQ. -/
def execLaneOosReq (lane : Nat) (s : State) : Out :=
  .next (if lane < 128 then (if s.portShut then s.refuse else s.laneOos lane) else s)

/-- LAN_CTRL.RTS_REQ: the bit is set, and LANE_ENTER_SERVICE clears it when the lane has entered (R12, R179, R184). -/
def State.laneRts (s : State) (n : Nat) : State :=
  if s.islState n == 2 then s.refuse else (s.setF (aLanCtrl n) 9 9 1).done

/-- LANE_RTS_REQ. -/
def execLaneRtsReq (lane : Nat) (s : State) : Out :=
  .next (if lane < 128 then (if s.portShut then s.refuse else s.laneRts lane) else s)

/-- LANE_LEAVE_SERVICE: a lane of a partition at a step boundary (R180). -/
def execLaneLeaveService (lane : Nat) (s : State) : Out :=
  .next (if lane < 128 && (s.laneOwner lane).all s.atBoundary then s.leaveLane lane else s)

/-- LANE_ENTER_SERVICE: at a boundary of the partition that owns the lane (R145, R179). -/
def execLaneEnterService (lane : Nat) (s : State) : Out :=
  match s.laneOwner lane with
  | none => .next s
  | some p => .next (if lane < 128 && s.atBoundary p then s.enterLane p lane else s)

/-- LAN_CTRL.ABORT (R181). -/
def State.laneAbort (s : State) (n : Nat) : State :=
  (if s.islState n == 0 then (s.laneOut n).depart n true else s).done

/-- LANE_ABORT. -/
def execLaneAbort (lane : Nat) (s : State) : Out :=
  .next (if lane < 128 then (if s.portShut then s.refuse else s.laneAbort lane) else s)

/-- LANE_ISLAND_FAULT (R181, R599). -/
def execLaneIslandFault (lane : Nat) (s : State) : Out :=
  .next (if s.laneOn lane then s.islandFault lane else s)

/-! ## The port's outputs (R140, R178) -/

/-- What a lane port drives. -/
structure LanePort where
  dqValid : Bool
  dqData : BitVec 256
  dqEnd : Bool
  dqPkts : Nat
  dqHeadTok : Nat
  dqClosed : Bool
  dqGo : Bool
  rtnXoff : Bool
  lpress : Bool
  deriving DecidableEq, Repr, Inhabited

/-- The lane's island and the engine drive the port: not in reset, not in Retain or Off, the lane in service (R178). -/
def State.portLive (s : State) (n : Nat) : Bool := s.laneOn n && !s.pwr.inReset && decide (2 ≤ s.f aPwrState 1 0)

/-- The outputs of a lane port (R140, R159 to R161, R174, R176), at rest where R178 says so. -/
def State.lanePort (s : State) (n : Nat) : LanePort :=
  let l := s.lane n
  if !s.portLive n then
    { dqValid := false, dqData := 0, dqEnd := false, dqPkts := 0, dqHeadTok := 0, dqClosed := false, dqGo := false
      rtnXoff := true, lpress := false }
  else
    let f := (l.dq.find? (fun p => decide (p.taken < p.built))).map (fun p => p.flit p.taken)
    { dqValid := f.isSome, dqData := f.elim 0 (·.1), dqEnd := f.any (·.2), dqPkts := l.pkts % 2 ^ 20
      dqHeadTok := l.headTok % 2 ^ 20, dqClosed := l.dqClosed, dqGo := l.go
      rtnXoff := s.flag (aLanRqStat n) 63, lpress := l.lpress }

/-- Expert and context of the head batch (R159, R189): that of the next packet to be presented; with none waiting, that of
the batch being written, or of the batch written next. -/
def State.headOf (s : State) (n : Nat) : Option (Nat × Nat) :=
  let l := s.lane n
  match l.waiting with
  | p :: _ => some (p.expert, p.ctx)
  | [] => (s.writers n).findSome? (fun t => (s.runOn t n).bind (fun q =>
      (s.laneExpert t q.1 q.2).map (fun e => (e, t.desc.ctx))))

end Sys2Proof.Machine
end

