-- ==== Sys2Proof/Machine/Carousel.lean ====
section
/-! DEFINITION. The Carousel: binding slots, contributions and their matching, release and count, stalls (R192 to R221,
R427 to R429, R437 to R439, R588, R595). -/

namespace Sys2Proof.Machine

/-! ## Binding (R195, R196, R199, R427) -/

/-- Slots a step holds. -/
def State.boundBy (s : State) (x : Nat) (step : Word) : Nat :=
  (s.car.slots.filter (fun e => e.2.ctx == x && e.2.step == step)).length

/-- The token a step binds next: the first in index order that takes a slot and has none, with everything before it
selected and final (R124, R132, R196). -/
def Step.nextBind (t : Step) (g : Group) : List Nat → Option TokRec
  | [] => none
  | i :: rest =>
    match g.toks.find? (fun k => k.index == i) with
    | none => none
    | some k =>
      if k.live && !g.finalTok k then none
      else if t.countOf g k == 0 || k.settled then t.nextBind g rest else some k

/-- A choice table, ascending by expert ID; `orig` is the expert R110 chose, and `origGate` the gate that its score
gives, over the survivors as they are (R120, R199, R206, R235, R427; DEDUCED, log 91). -/
def Step.choiceTable (t : Step) (g : Group) (k : TokRec) : List SlotChoice :=
  (t.laneChoices g k).map (fun (e : Nat × Nat) =>
    let orig := ((k.admitted.find? (fun c => c.cur == e.1)).map (·.orig)).getD e.1
    let og := if orig == e.1 then e.2 else t.gateFor g k orig
    { expert := e.1, gate := BitVec.ofNat 16 e.2, origGate := BitVec.ofNat 16 og, withdrawn := false, answered := false
      lined := false, orig := orig, lane := 0, takenAt := none })

/-- The slot of a token as it is bound. -/
def State.newSlot (s : State) (t : Step) (g : Group) (k : TokRec) : Slot :=
  let p := t.prog
  { part := t.part, ctx := t.desc.ctx, step := t.desc.step, handle := handleFor (s.srcOf t.desc.ctx) k.index g.layer
    index := k.index, layer := g.layer, d := p.d, w := p.cW g.pCombine, outFmt := p.cFmt g.pCombine
    count := t.countOf g k, choices := t.choiceTable g k
    segs := List.replicate (p.d / 32) { tally := 0, init := false, out := [] }
    ovf := false, nanf := false, poison := false, wdraw := false, mixDue := p.cMix g.pCombine, written := false }

/-- Releases a bound token's local choices to their experts' sequences: the group, and the choice table with the
logical lanes they take (R127, R148). -/
def State.releaseLocal (s : State) (t : Step) (g : Group) (p : Slot) : Group × List SlotChoice :=
  p.choices.foldl (fun (a : Group × List SlotChoice) c =>
    if s.isRemote t g.layer c.expert then (a.1, a.2 ++ [c])
    else
      let ls := t.laneList g c.expert
      let i := (tabGet [] a.1.order c.expert).length
      (a.1.append c.expert (true, p.index), a.2 ++ [{ c with lane := ls.getD (i % ls.length) 0 }])) (g, [])

/-- The chip that owns a routed expert. -/
def ownerChip (t : Step) (layer e : Nat) : Nat :=
  match t.place, expertOf t.place layer e with
  | some p, some o => p.members.getD o.1 0
  | _, _ => 0

/-- An RHDR (R425 to R427). -/
def State.sendRhdr (s : State) (t : Step) (g : Group) (slot : Nat) (p : Slot) (i nch : Nat) (c : SlotChoice) : State :=
  let x := t.desc.ctx
  let h := dispatchFlit 1 0 p.handle c.expert c.gate.toNat slot g.fmt x (nflit g.fmt p.d) (p.d / 64) t.desc.step.toNat 0
  let body := flitBytes h ++ natLe 1 i ++ [0] ++ natLe 2 (tabGet 0 s.car.gens slot) ++ natLe 1 nch ++ [0, 0, 0] ++
    natLe 4 (t.place.elim 0 (·.epoch))
  s.sendKept ⟨nalHdr 3 0x28 (s.srcOf x) (ownerChip t g.layer c.expert) x 1 0 0 p.handle 0 0, padLine body⟩

/-- The RROWs of a token's row to one owner (R428); a row read poisoned goes out marked. -/
def State.sendRows (s : State) (t : Step) (g : Group) (p : Slot) (owner : Nat) : State :=
  let x := t.desc.ctx
  let q := s.payload t g p.index
  let bs := padLine q.1
  let n := bs.length / 128
  (List.range ((n + 3) / 4)).foldl (fun s i =>
    let d := (bs.drop (512 * i)).take 512
    s.sendKept ⟨nalHdr 3 0x29 (s.srcOf x) owner x (d.length / 128) (bit q.2) 0 p.handle
      (4 * i + (t.desc.step.toNat % 256) <<< 9) 0, d⟩) (s.chargeHbm x (t.rowLen g.pScore))

/-- Sends a token's remote choices to their owners (R423, R426, R428). -/
def State.releaseRemote (s : State) (t : Step) (g : Group) (slot : Nat) (p : Slot) : State :=
  let far := (p.choices.zipIdx).filter (fun c => s.isRemote t g.layer c.1.expert)
  let owners := far.foldl (fun m c => setInsert m (ownerChip t g.layer c.1.expert)) []
  owners.foldl (fun s o =>
    let mine := far.filter (fun c => ownerChip t g.layer c.1.expert == o)
    let s := mine.foldl (fun s c => s.sendRhdr t g slot p c.2 mine.length c.1) s
    s.sendRows t g p o) s

/-- Shadowed choices join the queues of their original experts (R128, R237). -/
def State.releaseShadowed (s : State) (t : Step) (g : Group) (slot : Nat) (k : TokRec) : Group :=
  let q := k.shadowed.foldl (fun (m : Tab (List ShadowWait)) c =>
    let w : ShadowWait := { index := k.index, slot := slot, gate := BitVec.ofNat 16 (t.gateOf g k c), since := s.tclk }
    tabPut m c.orig (tabGet [] m c.orig ++ [w])) g.shadowQ
  { g with shadowQ := q }

/-- Bound slots, and the most at once (R226). -/
def State.notePeak (s : State) : State :=
  if s.f aCarSlotUse 47 32 < s.car.slots.length then s.setF aCarSlotUse 47 32 s.car.slots.length else s

/-- SLOT_BIND (R195, R196, R427). -/
def execSlotBind (x slot : Nat) (s : State) : Out :=
  match s.worker x with
  | none => .next s
  | some t =>
    match t.group with
    | none => .next s
    | some g0 =>
      match t.nextBind g0 g0.enter with
      | none => .next s
      | some k =>
        if !s.slotIn t.part slot || (tabFind s.car.slots slot).isSome ||
            decide (t.slotRes ≤ s.boundBy x t.desc.step) then .next s
        else
          let g := s.mergeRing t g0
          let p := s.newSlot t g k
          let r := s.releaseLocal t g p
          let p := { p with choices := r.2 }
          let g := (s.releaseShadowed t r.1 slot k).mark k.index (fun q => { q with settled := true })
          let first := s.boundBy x t.desc.step == 0
          let s := s.modStep x t.desc.step (fun u => { u with
            group := some g, lastProgress := if first then word s.tclk else u.lastProgress })
          let s := { s with car := { s.car with
            slots := tabPut s.car.slots slot p
            gens := tabSet 0 s.car.gens slot ((tabGet 0 s.car.gens slot + 1) % 65536) } }
          let s := s.notePeak.releaseRemote t g slot p
          .next (s.ringCloses x t.desc.step)

/-! ## Accumulators (R202, R204, R315) -/

/-- Stack address of the accumulators of a segment: 320 bytes of the slot's frame. -/
def State.accAt (s : State) (n i : Nat) : Nat := s.stack.carousel.1 + n * s.stack.frame + 320 * i

/-- The accumulators of a segment as bytes: C80 integers, little-endian, in element order (DESIGN CHOICE, log 92). -/
def accBytes (l : List Int) : Bytes := l.flatMap (fun i => natLe 10 (i % 2 ^ 80).toNat)

/-- The 32 accumulators in 320 bytes. -/
def accsOf (bs : Bytes) : List Int :=
  (List.range 32).map (fun k =>
    let v := fieldAt bs (10 * k) 10
    if v < 2 ^ 79 then (v : Int) else (v : Int) - 2 ^ 80)

/-- A contribution reaches a segment: 32 terms of data, or none for a WITHDRAW. The accumulators are read, added to and
written as R202 gives, and rounded where the tally reaches the count; a poisoned read poisons the slot (R202, R217). -/
def State.segIn (s : State) (n i : Nat) (data : Option (List Int)) (finds : List (Nat × EccFinding)) : State :=
  match tabFind s.car.slots n with
  | none => s
  | some p =>
    match p.segs[i]? with
    | none => s
    | some g =>
      let a := s.accAt n i
      let last := g.tally + 1 == p.count
      let reads := g.init && (data.isSome || last)
      let writes := data.isSome && !last
      let s := if reads then s.stepReads p.ctx p.step (fun k => a / 32 ≤ k && k < a / 32 + 10)
        (finds.map (fun f => (a / 32 + f.1, f.2))) else s
      let bad := reads && s.stkPoisoned a 320
      let old := if reads then accsOf (s.stkRead a 320) else List.replicate 32 0
      let sum := data.elim old (List.zipWith (· + ·) old)
      let s := if writes then s.stkWrite a (accBytes sum) else s
      let g1 : Seg := {
        tally := g.tally + 1, init := g.init || writes
        out := if last then sum.map (windowRelease p.outFmt (p.w - 56)) else [] }
      (s.setSlot n { p with segs := p.segs.set i g1, poison := p.poison || bad }).chargeStk p.ctx
        (320 * (bit reads + bit writes))

/-! ## Contributions (R56, R198, R200 to R205, R215 to R217) -/

/-- Terms of elements: each an exact product, taken into the window (R56). -/
abbrev Terms := List (Int × Bool × Bool)

def termsOf (w : Int) (ps : List Num) : Terms := ps.map (c80Term w)

/-- Segments [lo, lo + n) of a slot. -/
def Slot.range (p : Slot) (lo n : Nat) : List Seg := (p.segs.drop lo).take n

/-- A contribution would reach a full segment (R205). -/
def Slot.full (p : Slot) (lo n : Nat) : Bool := (p.range lo n).any (fun g => decide (p.count ≤ g.tally))

/-- Every segment's tally equals the count (R203). -/
def Slot.complete (p : Slot) : Bool := p.segs.all (fun g => g.tally == p.count)

/-- Marks a choice of a slot. -/
def Slot.markChoice (p : Slot) (e : Nat) (f : SlotChoice → SlotChoice) : Slot :=
  { p with choices := p.choices.map (fun c => if c.expert == e then f c else c) }

/-- The Carousel accepts something for a step (R219). -/
def State.progress (s : State) (x : Nat) (step : Word) : State :=
  s.modStep x step (fun t => { t with lastProgress := word s.tclk })

/-- Changes a slot, where it is bound. -/
def State.modSlot (s : State) (n : Nat) (f : Slot → Slot) : State :=
  (tabFind s.car.slots n).elim s (fun p => s.setSlot n (f p))

/-- A combine overrun (R205). -/
def State.overrun (s : State) (p : Slot) : State :=
  let s := s.errBit aCarErr 0 cCarOverrun
  (s.stepOf p.ctx p.step).elim s (fun t => s.abortStep t 0x32)

/-- A contribution has entered a slot: accepted for its step, and a token it completes is the next to count (R203,
R212, R219). -/
def State.tookIn (s : State) (n : Nat) : State :=
  match tabFind s.car.slots n with
  | none => s
  | some p =>
    let s := s.progress p.ctx p.step
    if p.complete then s.modGroup p.ctx p.step p.layer (fun g => g.completed p.index) else s

/-- The terms of a line's elements set the slot's flags (R60, R213). -/
def State.flagTerms (s : State) (n : Nat) (ts : Terms) : State :=
  match tabFind s.car.slots n with
  | none => s
  | some p =>
    let ovf := ts.any (·.2.1)
    let s := s.setSlot n { p with ovf := p.ovf || ovf, nanf := p.nanf || ts.any (·.2.2) }
    if ovf && !p.ovf then s.noteOvf p.ctx p.step else s

/-- The slice that the line at an element offset enters (R200). -/
def Step.sliceAt (t : Step) (n ofs : Nat) : Nat := t.slices.getD ((n + ofs / 64) % t.slices.length) 0

/-- Residue retries of a line, correctable errors of its slice (R215, R602). -/
def State.residueRetry (s : State) (p : Slot) (slice n : Nat) : State :=
  if n == 0 then s
  else (((s.addCtr aCarCntRetry n).setBit aCarErr 3).noteCes (248 + slice) n).noteRetry p.ctx p.step n

/-- A slice leaves service: the steps that have a slot of the partition bound are aborted (R216). -/
def State.sliceDown (s : State) (p : Slot) (slice : Nat) : State :=
  let s := s.abortBound (fun q => q.part == p.part) 0x32
  (s.depart (248 + slice) false).errBit aCarErr 4 cCarSlice

/-- What a line position meets beside its accumulators, one fault (R215, R216, R588). -/
def State.lineFault (s : State) (lane : Option Nat) (n : Nat) (p : Slot) (slice : Nat) (f : LineFault) : State :=
  match f with
  | .residue k => if 3 ≤ k then (s.residueRetry p slice 2).sliceDown p slice else s.residueRetry p slice k
  | .acc _ _ => s
  | .sliceCe => (s.noteCe (248 + slice)).noteRetry p.ctx p.step 1
  | .laneCe => lane.elim s (fun l => (s.noteCe l).noteRetry p.ctx p.step 1)
  | .tallyUe =>
    ((s.raiseAt cSramUe (248 + slice)).abortBound (fun q => q.ctx == p.ctx && q.step == p.step) 0x32).noteUe (248 + slice)
  | .queueUe =>
    lane.elim s (fun l => ((s.raiseAt cSramUe l).noteUe l).modSlot n (fun q => { q with poison := true }))

/-- The findings of a line position's k-th accumulator granules. -/
def accFinds (fs : List LineFault) : List (Nat × EccFinding) :=
  fs.filterMap (fun f =>
    match f with
    | .acc k e => some (k, e)
    | _ => none)

/-- One line position enters a slot: the terms of its elements from an offset on, one or two segments of them. A position
whose step has been aborted, by a fault of it or of an earlier one, enters nothing. `back` says that it is a returned
line, which CAR_CNT_LINE counts (R227). -/
def State.lineIn (s : State) (lane : Option Nat) (back : Bool) (n : Nat) (tag : Slot) (ofs : Nat) (ts : Terms)
    (fs : List LineFault) : State :=
  match s.stepOf tag.ctx tag.step with
  | none => s
  | some t =>
    let s := fs.foldl (fun s f => s.lineFault lane n tag (t.sliceAt n ofs) f) s
    match tabFind s.car.slots n with
    | none => s
    | some p =>
      let k := ts.length / 32
      if p.ctx != tag.ctx || p.step != tag.step then s
      else if p.full (ofs / 32) k then s.overrun p
      else
        (List.range k).foldl (fun s i =>
          s.segIn n (ofs / 32 + i) (some (((ts.drop (32 * i)).take 32).map (·.1)))
            ((accFinds fs).filterMap (fun f => if f.1 / 10 == i then some (f.1 % 10, f.2) else none)))
          ((if back then s.bump aCarCntLine else s).flagTerms n ts)

/-- Line positions of `w` elements enter a slot in their order, from an element offset on. -/
def State.linesIn (s : State) (lane : Option Nat) (back : Bool) (n : Nat) (tag : Slot) (ofs w : Nat) (ts : Terms)
    (faults : LineFaults) : State :=
  ((List.range (ts.length / w)).foldl (fun s j =>
    s.lineIn lane back n tag (ofs + w * j) ((ts.drop (w * j)).take w)
      ((faults.filter (fun f => f.1 == j)).map (·.2))) s).tookIn n

/-- A whole-row contribution: d/64 line positions (R200, R201). -/
def State.rowIn (s : State) (n : Nat) (p : Slot) (ps : List Num) (faults : LineFaults) : State :=
  if p.full 0 p.segs.length then s.overrun p else s.linesIn none false n p 0 64 (termsOf p.w ps) faults

/-- A stale return (R199). -/
def State.stale (s : State) : State := s.bump aCarCntStale

/-- An LRTN term (R539). -/
def lrtnTerm (index e ofs : Nat) (line : Bytes) : Word :=
  mix (mix (word ((index <<< 36) ^^^ (e <<< 16) ^^^ ofs)) ^^^ word (crcN line))

/-- Adds LRTN terms to the sum of a choice's logical lane. -/
def State.addLrtn (s : State) (p : Slot) (lane : Nat) (ts : List Word) : State :=
  s.modGroup p.ctx p.step p.layer (fun g =>
    { g with sums := { g.sums with lrtn := addAt g.sums.lrtn lane (ts.foldl (· + ·) 0) } })

/-- Elements of a returned line in FMT 0 to 2 (R158). -/
def lineElems (fmt : Nat) : Nat := if fmt == 2 then 32 else 64

/-- Lines enter a slot for a choice: an overrun where R205 says so. -/
def State.takeLines (s : State) (lane : Option Nat) (n : Nat) (p : Slot) (c : SlotChoice) (gate fmt ofs : Nat)
    (data : Bytes) (nline : Nat) (poison : Bool) (faults : LineFaults) : State :=
  let w := lineElems fmt
  if c.answered then s.overrun p
  else
    let gn := floatDecode .bf16 gate
    let ps := (floatsAt (rowFmt fmt) data (nline * w)).map (fun v => numMul v gn)
    let s := s.modSlot n (fun p => { p.markChoice c.expert (fun c => { c with lined := true }) with
      poison := p.poison || poison })
    s.linesIn lane true n p ofs w (termsOf p.w ps) faults

/-- A withdrawal of a choice: it reaches every segment; an overrun where R205 says so (R198, R201, R202). -/
def State.takeWdraw (s : State) (n : Nat) (p : Slot) (c : SlotChoice) (poison : Bool) : State :=
  if c.answered || c.lined || p.full 0 p.segs.length then s.overrun p
  else
    let s := s.modSlot n (fun p => { p.markChoice c.expert (fun c => { c with answered := true }) with
      wdraw := true, poison := p.poison || poison })
    ((List.range p.segs.length).foldl (fun s i => s.segIn n i none []) s).tookIn n

/-! ## Returns on a lane (R158, R169, R171, R199) -/

/-- A protocol fault on a lane (R171). -/
def State.laneFault (s : State) (lane bitNo : Nat) : State :=
  let users := s.laneUsers lane
  let s := s.errBit (aLanErr lane) bitNo cLaneProto
  s.abortWhere (fun t => users.contains (t.desc.ctx, t.desc.step)) 0x31

/-- An owed return that a header names. -/
def Owed.of (o : Owed) (h : BitVec 256) : Bool :=
  o.ctx == hdrCtx h && o.handle == hdrHandle h && o.expert == hdrExpert h && o.step.toNat % 2 ^ 32 == hdrStep h

/-- Takes n elements off what a tile owes for a header; the whole packet where n is none. -/
def State.paid (s : State) (lane : Nat) (h : BitVec 256) (n : Option Nat) : State :=
  let l := s.lane lane
  let owed := l.owed.map (fun (o : Owed) => if o.of h then { o with left := n.elim 0 (fun k => o.left - k) } else o)
  s.setLane lane { l with owed := owed.filter (fun o => o.left != 0) }

/-- What a discarded return answers of what its lane owes: the lines it holds of the return its header names, all of it
where they cannot be told; where a bad header or a FAULT names none, the oldest one (DESIGN CHOICE, log 32). -/
def State.lost (s : State) (lane : Nat) (h : BitVec 256) : State :=
  let l := s.lane lane
  let n := hdrNline h
  let known := flitOk h && hdrKind h == 3 && decide (hdrFmt h ≤ 2) && decide (1 ≤ n) && decide (n ≤ 512)
  if l.owed.any (fun o => o.of h) then s.paid lane h (if known then some (n * lineElems (hdrFmt h)) else none)
  else if flitOk h && hdrKind h != 5 then s
  else s.setLane lane { l with owed := l.owed.drop 1 }

/-- A return that is a protocol fault: the steps on the lane are aborted, and what it answers is owed no longer (R171). -/
def State.faultReturn (s : State) (lane bitNo : Nat) (h : BitVec 256) : State := (s.laneFault lane bitNo).lost lane h

/-- A header that a lane cannot accept: the bit of LAN_ERR it sets (R156, R171). A return that breaks several conditions
sets the bit of the first of OVERRUN, RHCRC and FORMAT alone (DESIGN CHOICE, log 89). -/
def returnFault (h : BitVec 256) (full : Bool) : Option Nat :=
  if full then some 2 else if !flitOk h then some 1
  else if 3 ≤ hdrKind h && hdrKind h ≤ 5 then none else some 3

/-- The bound slot and choice that a lane return enters (R199). -/
def State.matchReturn (s : State) (h : BitVec 256) : Option (Slot × SlotChoice) :=
  let part := s.ctxPart (hdrCtx h)
  let n := hdrSlot h
  match tabFind s.car.slots n with
  | none => none
  | some p =>
    if p.part == part && p.ctx == hdrCtx h && p.handle == hdrHandle h && p.step.toNat % 2 ^ 32 == hdrStep h then
      (p.choices.find? (fun c => c.expert == hdrExpert h && !c.withdrawn)).map (fun c => (p, c))
    else none

/-- The record of a remote choice that a lane return answers (R437). -/
def State.remoteOf (s : State) (h : BitVec 256) : Option RingRec :=
  s.ring.recs.find? (fun r => r.ctx == hdrCtx h && r.step == hdrStep h && r.handle == hdrHandle h &&
    r.expert == hdrExpert h && r.state == 2)

/-- Forwards a STORE of another origin (R437). -/
def State.forward (s : State) (r : RingRec) (fmt ofs nline : Nat) (data : Bytes) : State :=
  let epl := lineElems fmt
  let s1 := (List.range ((nline + 3) / 4)).foldl (fun s i =>
    let d := (data.drop (512 * i)).take 512
    s.sendKept ⟨nalHdr 4 0x2C (s.srcOf r.ctx) r.src r.ctx (d.length / 128) 0 0 (r.returnAddr (ofs / epl + 4 * i) fmt)
      (r.step % 2 ^ 17) 0, d⟩) s
  let segs := (List.range (nline * epl / 32)).foldl (fun m i => setInsert m (ofs / 32 + i)) r.lines
  let whole := decide (2 * fld r.hdr.toNat 152 144 ≤ segs.length)
  s1.setRec r (fun q => { q with lines := segs, state := if whole then 3 else 2 })

/-- A STORE that passed the arrival checks enters its slot, leaves for its origin, or is stale (R158, R169, R199). -/
def State.storeIn (s : State) (lane : Nat) (h : BitVec 256) (data : Bytes) (faults : LineFaults) : State :=
  let fmt := hdrFmt h
  let epl := lineElems fmt
  let ofs := hdrOffset h
  let nline := hdrNline h
  let mine := s.isMine (handleOrigin (hdrHandle h))
  let m := s.matchReturn h
  if mine && m.any (fun q => decide (q.1.d < ofs + nline * epl)) then s.faultReturn lane 3 h
  else
  let s := (s.bump (aLanCntStore lane)).paid lane h (some (nline * epl))
  if !mine then (s.remoteOf h).elim s.stale (fun r => s.forward r fmt ofs nline data)
  else
    match m with
    | none => s.stale
    | some (p, c) =>
      let s := s.addLrtn p c.lane ((List.range nline).map (fun j =>
        lrtnTerm p.index c.expert (ofs + j * epl) (sliceBytes data (128 * j) 128)))
      s.takeLines (some lane) (hdrSlot h) p c (hdrGate h) fmt ofs data nline false faults

/-! ## The return queue (R144, R147, R174, R188) -/

/-- RTN_XOFF follows the return queue's occupancy (R174). -/
def State.rtnWire (s : State) (lane : Nat) : State :=
  let occ := (s.lane lane).rqOcc
  if s.f (aLanRqWm lane) 19 0 ≤ occ then s.setF (aLanRqStat lane) 63 63 1
  else if occ ≤ s.f (aLanRqWm lane) 51 32 then s.setF (aLanRqStat lane) 63 63 0 else s

/-- Flits arrive, packets among them end, and flits leave; RTN_XOFF follows at each end of a cycle. -/
def State.rqMove (s : State) (lane : Nat) (f : RqFlow) : State :=
  let l := s.lane lane
  let s := (s.setLane lane { l with rqOcc := l.rqOcc + f.arrive, rqPkts := l.rqPkts + f.ends }).rtnWire lane
  let l := s.lane lane
  (s.setLane lane { l with rqOcc := l.rqOcc - f.leave }).rtnWire lane

/-- What the return queue does up to the moment at which the engine consumes the packet at its head; and whether a flit
found it full (R171). -/
def State.rqFlow (s : State) (lane : Nat) (flow : List RqFlow) : State × Bool :=
  flow.foldl (fun (a : State × Bool) f =>
    if s.rqCap lane < (a.1.lane lane).rqOcc + f.arrive then (a.1, true) else (a.1.rqMove lane f, a.2)) (s, false)

/-- The packet at the head of a lane's return queue is consumed or discarded, after the queue's movements; `f` is what it
does, where its header passes and is of its kind. -/
def State.takeReturn (s : State) (lane : Nat) (hdr : BitVec 256) (kind : Nat) (flow : List RqFlow) (f : State → State) :
    State :=
  let r := s.rqFlow lane flow
  let l := r.1.lane lane
  let s1 := r.1.setLane lane { l with rqPkts := l.rqPkts - 1 }
  match returnFault hdr r.2 with
  | some b => s1.faultReturn lane b hdr
  | none => if hdrKind hdr == kind then f s1 else s

/-- STORE: `endAt` is the number of flits up to the end mark, `faults` what its lines meet as they enter, and `flow` what
the return queue has done since the command before (R158, R171, R174, R198 to R205, R215). -/
def execStore (lane : Nat) (hdr : BitVec 256) (data : Bytes) (endAt : Nat) (faults : LineFaults) (flow : List RqFlow)
    (s : State) : Out :=
  if !s.laneOn lane || s.halted then .next s
  else
    .next (s.takeReturn lane hdr 3 flow (fun s =>
      let fmt := hdrFmt hdr
      let epl := lineElems fmt
      let n := hdrNline hdr
      let bad := decide (2 < fmt) || hdrOffset hdr % epl != 0 || n == 0 || decide (512 < n) ||
        decide (16384 < hdrOffset hdr + n * epl) || endAt != 1 + 4 * n
      if bad then s.faultReturn lane 3 hdr else s.storeIn lane hdr (sliceBytes data 0 (128 * n)) faults))

/-- A WITHDRAW that is well formed: its choice is answered, or its origin told (R169, R198, R199). -/
def State.withdrawIn (s : State) (lane : Nat) (hdr : BitVec 256) : State :=
  let s := (s.paid lane hdr none).bump (aLanCntWdraw lane)
  if !s.isMine (handleOrigin (hdrHandle hdr)) then
    (s.remoteOf hdr).elim s.stale (fun r => (s.setRec r (fun q => { q with state := 3 })).sendWdraw r false)
  else
    match s.matchReturn hdr with
    | none => s.stale
    | some (p, c) => (s.addLrtn p c.lane [lrtnTerm p.index c.expert 0xFFFF []]).takeWdraw (hdrSlot hdr) p c false

/-- WITHDRAW (R168, R169, R171, R201, R205). -/
def execWithdraw (lane : Nat) (hdr : BitVec 256) (endMark : Bool) (flow : List RqFlow) (s : State) : Out :=
  if !s.laneOn lane || s.halted then .next s
  else .next (s.takeReturn lane hdr 4 flow (fun s =>
    if endMark then s.withdrawIn lane hdr else s.faultReturn lane 3 hdr))

/-- FAULT: the tile gives up the packet whose header failed (R171, R172); what it answers is `State.lost`'s (DESIGN
CHOICE, log 32). One whose end mark is misplaced sets FORMAT alone (DESIGN CHOICE, log 89). -/
def execFault (lane : Nat) (hdr : BitVec 256) (endMark : Bool) (flow : List RqFlow) (s : State) : Out :=
  if !s.laneOn lane || s.halted then .next s
  else .next (s.takeReturn lane hdr 5 flow (fun s => s.faultReturn lane (if endMark then 0 else 3) hdr))

/-! ## Returns from the ring (R438, R439) -/

/-- The slot and choice that a ring return enters (R438). -/
def State.matchRing (s : State) (p : Packet) : Option (Slot × SlotChoice) :=
  let n := fld (pAddr p) 14 0
  match tabFind s.car.slots n with
  | none => none
  | some q =>
    if q.part == s.ctxPart (pCtx p) && q.ctx == pCtx p && q.step.toNat % 2 ^ 17 == pTag p &&
        tabGet 0 s.car.gens n == fld (pAddr p) 35 20 then
      match q.choices[fld (pAddr p) 19 15]?, s.stepOf q.ctx q.step with
      | some c, some t => if !c.withdrawn && s.isRemote t q.layer c.expert then some (q, c) else none
      | _, _ => none
    else none

/-- RSTORE (R438, R439). -/
def execRstore (port : Nat) (pkt : Packet) (faults : LineFaults) (s : State) : Out :=
  s.receive port pkt (· == 0x2C) (fun s =>
    let fmt := fld (pAddr pkt) 46 45
    let ofs := fld (pAddr pkt) 44 36 * lineElems fmt
    match s.matchRing pkt with
    | none => s.stale
    | some (p, c) =>
      if fmt == 3 || p.d < ofs + pLen pkt * lineElems fmt then s.stale
      else s.takeLines none (fld (pAddr pkt) 14 0) p c c.gate.toNat fmt ofs pkt.data (pLen pkt) (pPoison pkt) faults)

/-- RWDRAW (R438, R439). -/
def execRwdraw (port : Nat) (pkt : Packet) (s : State) : Out :=
  s.receive port pkt (· == 0x2D) (fun s =>
    match s.matchRing pkt with
    | none => s.stale
    | some (p, c) => s.takeWdraw (fld (pAddr pkt) 14 0) p c (pPoison pkt))

/-! ## The mixing term (R68, R198) -/

/-- MIX_TERM_ENTER: the gated mixing term of a bound slot. -/
def execMixTermEnter (slot : Nat) (faults : LineFaults) (s : State) : Out :=
  match tabFind s.car.slots slot with
  | none => .next s
  | some p =>
    match (s.stepOf p.ctx p.step).bind (fun t => (t.groupAt p.layer).map (fun g => (t, g))) with
    | none => .next s
    | some (t, g) =>
      if !p.mixDue || (s.worker p.ctx).isNone then .next s
      else
        let b := g.pCombine
        let stride := t.prog.at b 0x14 4
        let a0 := t.prog.addr t.desc.bases b 0x20 + p.index * stride
        let b0 := t.prog.addr t.desc.bases b 0x28 + p.index * stride
        let as := floatsAt .bf16 (s.hbmRead a0 (2 * p.d)) p.d
        let bs := floatsAt .bf16 (s.hbmRead b0 (2 * p.d)) p.d
        let bad := s.hbmPoisoned a0 (2 * p.d) || s.hbmPoisoned b0 (2 * p.d)
        let p1 := { p with mixDue := false, poison := p.poison || bad }
        let s := (s.chargeHbm p.ctx (4 * p.d)).setSlot slot p1
        .next (s.rowIn slot p1 (List.zipWith (fun x y => numMul (sfuSilu x) y) as bs) faults)

/-! ## Release and count (R61, R203, R209 to R213) -/

/-- The rounded elements of a complete slot, and whether any saturated (R61). -/
def Slot.elements (p : Slot) : List (Nat × Bool) := p.segs.flatMap (·.out)

/-- The output row and flag bits of a complete slot. -/
def Slot.output (p : Slot) : Bytes × FlagBits :=
  let w := floatBytes p.outFmt
  let es := if p.nanf then (List.replicate p.d (floatNaNBits p.outFmt, false)) else p.elements
  (es.flatMap (fun e => natLe w e.1),
    { ovf := p.ovf || es.any (·.2), nanf := p.nanf, poison := p.poison, wdraw := p.wdraw })

/-- TOKEN_RELEASE: the output row and flag byte of a complete token (R203, R209, R217). -/
def execTokenRelease (slot : Nat) (s : State) : Out :=
  match tabFind s.car.slots slot with
  | none => .next s
  | some p =>
    match (s.stepOf p.ctx p.step).bind (fun t => (t.groupAt p.layer).map (fun g => (t, g))) with
    | none => .next s
    | some (t, g) =>
      if !p.complete || p.written || s.halted then .next s
      else
        let o := p.output
        let s := s.setSlot slot { p with written := true, ovf := o.2.ovf }
        let s := if o.2.ovf && !p.ovf then s.noteOvf p.ctx p.step else s
        let s := s.writeOut t g p.index o.1 o.2
        .next (if p.poison then s.notePoison ((s.stepOf p.ctx p.step).getD t) else s)

/-- TOKEN_COUNT: the arrival-counter increment of the token that is the next to count; the slot is free (R136, R197,
R210, R212). -/
def execTokenCount (slot : Nat) (s : State) : Out :=
  match tabFind s.car.slots slot with
  | none => .next s
  | some p =>
    match (s.stepOf p.ctx p.step).bind (fun t => (t.groupAt p.layer).map (fun g => (t, g))) with
    | none => .next s
    | some (t, g) =>
      if !p.written || !g.mayCount || g.finish.head? != some p.index || s.halted then .next s
      else
        let s := { s with car := { s.car with slots := tabErase s.car.slots slot } }
        let s := ((s.countToken t g p.index).progress p.ctx p.step).bump aCarCntRelease
        .next (s.drain p.ctx p.step p.layer)

/-! ## Stalls, refused writes, the peak (R216, R219, R226, R592) -/

/-- STEP_STALL (R219): of a step that runs, is not held at an AWAIT op and is not pre-empted. -/
def execStepStall (x : Nat) (s : State) : Out :=
  match s.running x with
  | none => .next s
  | some t =>
    if s.boundBy x t.desc.step == 0 || t.frozen || t.waiting || s.halted ||
        !(s.ctxState x == 2 || (s.ctxState x == 3 && !(s.ctx x).parkCut)) ||
        decide (s.tclk < t.lastProgress.toNat + s.f aCarStall 15 0 * 100) then .next s
    else .next ((s.errBit aCarErr 1 cCarStall).abortStep t 0x32)

/-- HOST_WRITE_REFUSED: the host memory fabric refuses a write of a context's step (R592). -/
def execHostWriteRefused (x : Nat) (s : State) : Out :=
  match s.rgm.steps.find? (fun t => t.desc.ctx == x && (t.phase == .running || t.phase == .draining) && t.abort == 0) with
  | none => .next s
  | some t => if s.halted then .next s else .next ((s.raise cHmpWrite).abortStep t 0x32)

/-- CAR_SLOT_USE.PEAK_RST (R226). -/
def State.peakReset (s : State) : State := (s.setF aCarSlotUse 47 32 s.car.slots.length).done

/-- PEAK_RST. -/
def execPeakRst (s : State) : Out := .next (if s.portShut then s.refuse else s.peakReset)

end Sys2Proof.Machine
end

