-- ==== Sys2Proof/Machine/Shadows.lean ====
section
/-! DEFINITION. Shadow experts (R228 to R238) and the deadline monitor (R241 to R260). -/

namespace Sys2Proof.Machine

/-! ## Forming batches (R237) -/

/-- Puts the oldest choices of a queue into a batch; array work of the context is ready with it (R503). -/
def State.formBatch (s : State) (t : Step) (g : Group) (e : Nat) : State :=
  let q := tabGet [] g.shadowQ e
  let b : ShadowBatch := { ctx := t.desc.ctx, step := t.desc.step, layer := g.layer, expert := e, toks := q.take 4096 }
  let s1 := s.modGroup t.desc.ctx t.desc.step g.layer (fun h => { h with shadowQ := tabSet [] h.shadowQ e (q.drop 4096) })
  { s1 with shd := { s1.shd with
    formed := tabSet [] s1.shd.formed t.part (tabGet [] s1.shd.formed t.part ++ [b]) } }.readied s t.desc.ctx

/-- The step's slack is below GUARD, in the Serve profile. -/
def State.guarded (s : State) (t : Step) : Bool :=
  s.profile t.desc.ctx == 1 && t.slack.any (fun k => decide (k < (s.f aShdCfg 47 32 * 1000 : Int)))

/-- Admission has closed and the queue of an expert holds every shadowed choice of the layer for it. -/
def Group.allQueued (g : Group) (e : Nat) : Bool :=
  g.allSelected && g.toks.all (fun k => k.decided && (k.settled || !k.shadowed.any (·.orig == e)))

/-- SHADOW_BATCH_FORM: a queue holds BATCH choices, or all of its layer's, or the step runs short of time (R237). -/
def execShadowBatchForm (x e : Nat) (s : State) : Out :=
  match s.worker x with
  | none => .next s
  | some t =>
    match t.group with
    | none => .next s
    | some g =>
      let q := tabGet [] g.shadowQ e
      if !q.isEmpty && (decide (s.f aShdCfg 12 0 ≤ q.length) || g.allQueued e || s.guarded t) then .next (s.formBatch t g e)
      else .next s

/-- SHADOW_WAIT_EXPIRE: the oldest choice of a queue has waited WAIT µs (R237). -/
def execShadowWaitExpire (x e : Nat) (s : State) : Out :=
  match s.worker x with
  | none => .next s
  | some t =>
    match t.group with
    | none => .next s
    | some g =>
      match tabGet [] g.shadowQ e with
      | [] => .next s
      | w :: _ =>
        if decide (w.since + s.f aShdCfg 31 16 * 100 ≤ s.tclk) then .next (s.formBatch t g e) else .next s

/-! ## Running a batch (R233 to R236, R238) -/

/-- The formed batch that runs next: the lowest original expert ID, the oldest of those. -/
def nextBatch : List ShadowBatch → Option ShadowBatch
  | [] => none
  | b :: rest =>
    match nextBatch rest with
    | none => some b
    | some c => if c.expert < b.expert then some c else some b

/-- SHADOW_BATCH_RUN: at a tile boundary of the partition, ahead of the next scoring tile (R238). -/
def execShadowBatchRun (p : Nat) (s : State) : Out :=
  match nextBatch ((tabGet [] s.shd.formed p).filter (fun b => !s.parkDue b.ctx)) with
  | none => .next s
  | some b =>
    if s.arrayBusy p || (s.groupsIn p).isEmpty || s.halted then .next s
    else
      let rest := (tabGet [] s.shd.formed p).erase b
      .next { s with
        shd := { s.shd with formed := tabSet [] s.shd.formed p rest, running := tabPut s.shd.running p b }
        sca := { s.sca with last := tabErase s.sca.last p } }

/-- Format of shadow weights as a panel format: E4M3 1, E5M2 2. -/
def shadowFmt (wfmt : Nat) : Nat := if wfmt == 0 then 1 else 2

/-- The shadow's output row for an input row (R233 to R235). -/
def State.shadowRow (s : State) (x d : Nat) (q : ShadowPos) (xs : List Num) : List Num :=
  let rf := shadowFmt q.wfmt
  let r := q.rank
  let rdA := fun (o n : Nat) => s.weightRead x q.inStk (q.at_ + o) n
  let rdB := fun (o n : Nat) => s.weightRead x q.inStk (q.at_ + 2 * r * d + o) n
  let a := (columns rf d (2 * r) rdA).map (fun col => dotFloat none xs col)
  let h := (List.range r).map (fun i =>
    floatDecode .bf16 (fusedSilu .bf16 (a.getD i numZero) (a.getD (r + i) numZero)))
  (columns rf r d rdB).map (fun col => dotFloat none h col)

/-- One choice of a batch: its row enters the slot, if the slot still waits for it. -/
def State.shadowIn (s : State) (b : ShadowBatch) (t : Step) (g : Group) (q : ShadowPos) (w : ShadowWait)
    (faults : LineFaults) : State :=
  match tabFind s.car.slots w.slot with
  | none => s
  | some p =>
    if p.ctx != b.ctx || p.step != b.step || p.layer != b.layer || p.index != w.index || p.written then s
    else
      let d := t.prog.d
      let row := arrayRow (t.prog.at g.pScore 0x6C 1) d (s.hbmRead (t.rowAt g.pScore w.index) (t.rowLen g.pScore))
      let bad := s.hbmPoisoned (t.rowAt g.pScore w.index) (t.rowLen g.pScore) ||
        s.weightPoisoned b.ctx q.inStk q.at_ (3 * q.rank * d)
      let gate := floatDecode .bf16 w.gate.toNat
      let p1 := if bad then { p with poison := true } else p
      (s.setSlot w.slot p1).rowIn w.slot p1 ((s.shadowRow b.ctx d q row).map (fun y => numMul y gate)) faults

/-- Cycles of a batch's chain of three links (R93). -/
def batchCycles (m d r cubes : Nat) : Nat :=
  96 + arrayCycles m d (2 * r) 1 cubes + (20 + ceilDiv (m * r) (4 * cubes)) + (96 + arrayCycles m r d 1 cubes)

/-- A cube fails as a batch runs: its group leaves, and the batch reruns on the groups that remain, or waits for one; the
latency that the discarded run has paid is charged (R77, R590). -/
def State.batchRerun (s : State) (p : Nat) (b : ShadowBatch) (cube : Nat) : State :=
  let s := s.cubeDown b.ctx b.step cube
  let s := (s.bump aScaCntRerun).noteRetry b.ctx b.step 1
  let s := (s.stepOf b.ctx b.step).elim s (fun t => s.chargeStep t 0 96)
  if (s.groupsIn p).isEmpty then
    { s with shd := { s.shd with
      running := tabErase s.shd.running p, formed := tabPut s.shd.formed p (b :: tabGet [] s.shd.formed p) } }
  else s

/-- SHADOW_BATCH_DONE: the running batch of a partition ends; results for slots that no longer wait are discarded.
`cubes` counts residue failures as SCORE_TILE_DONE's operand does, `reads` is what the reads of its weights in the stack
meet, and `faults` what the line positions of each of its rows meet, in the batch's order. -/
def execShadowBatchDone (p cubes : Nat) (reads : EccReads) (faults : List LineFaults) (s : State) : Out :=
  match tabFind s.shd.running p with
  | none => .next s
  | some b =>
    let cube := cubes / 4 % 128
    let n := if (s.groupsIn p).contains (cube / 4) then cubes % 4 else 0
    if n == 3 then .next (s.batchRerun p b cube)
    else
    let s := s.arrayRetry b.ctx b.step cube n
    let s := { s with shd := { s.shd with running := tabErase s.shd.running p } }
    let s := (s.bump aShdCntBatch).addCtr aShdCntToken b.toks.length
    match (s.stepOf b.ctx b.step).bind (fun t => (t.groupAt b.layer).map (fun g => (t, g))) with
    | none => .next s
    | some (t, g) =>
      match g.shadows.find? (fun q => q.expert == b.expert) with
      | none => .next s
      | some q =>
        let d := t.prog.d
        let m := roundUp8 b.toks.length
        let s := s.chargeHbm b.ctx (b.toks.length * t.rowLen g.pScore)
        let s := if q.inStk then s.chargeStk b.ctx (3 * q.rank * d) else s.chargeHbm b.ctx (3 * q.rank * d)
        let s := s.chargeStep t 0 (batchCycles m d q.rank (4 * (s.groupsIn p).length))
        let s := s.addCtr aScaCntStep (chunkSteps m d (2 * q.rank) 1 + chunkSteps m q.rank d 1)
        let s := s.stepReads b.ctx b.step (s.weightGranule b.ctx q.inStk q.at_ (3 * q.rank * d)) reads
        .next ((b.toks.zipIdx).foldl (fun s w => s.shadowIn b t g q w.1 (faults.getD w.2 [])) s)

/-! ## Codec status words (R242 to R247) -/

/-- A held deadline takes a word's place, or the oldest one's when 4,096 are held (R244). -/
def holdDeadline (l : List SliceDl) (d : SliceDl) : List SliceDl :=
  let rest := l.filter (fun h => !(h.stream == d.stream && h.slice == d.slice))
  let oldest := rest.foldl (fun m h => min m h.at_) d.at_
  let rest := if rest.length ≥ 4096 then rest.eraseP (fun h => h.at_ == oldest) else rest
  rest ++ [d]

/-- CODEC_STATUS_WORD (R242 to R245). -/
def execCodecStatusWord (w : Word) (s : State) : Out :=
  let v := w.toNat
  if s.halted then .next s
  else if fld v 31 29 != 0 || bitAt v 28 != s.flag aDlmCtrl 1 then .next (s.errBit aDlmErr 0 cDlmCodec)
  else
    let stream := fld v 11 0
    let dl : Int := (s.tb : Int) + fld v 55 32 * 1000 - s.f aDlmCtrl 63 48 * 1000
    let d : SliceDl := { stream := stream, slice := fld v 27 12, deadline := dl, at_ := s.tb }
    .next ({ s with dlm := { s.dlm with
      held := holdDeadline s.dlm.held d, last := tabPut s.dlm.last stream s.tb
      silent := setErase s.dlm.silent stream } }.bump aDlmCntWord)

/-- CODEC_SILENCE (R247). A stream that has sent no word has been silent since time base 0; a discarded word ends no
silence; and a silence is reported once, until the stream's next word (DESIGN CHOICE, log 95). -/
def execCodecSilence (stream : Nat) (s : State) : Out :=
  let feeds := s.rgm.steps.any (fun t => t.phase != .queued && t.seqs.any (fun e => e.2.stream == stream))
  if s.halted || stream == 0xFFFF || !feeds || s.dlm.silent.contains stream ||
      decide (s.tb < tabGet 0 s.dlm.last stream + s.f aDlmCtrl 47 32 * 1000) then .next s
  else
    .next ({ s with dlm := { s.dlm with silent := setInsert s.dlm.silent stream } }.errBit aDlmErr 1 cDlmCodec)

/-! ## Slack (R248, R249) -/

/-- Layer groups of the program, as op runs at their SCORE ops: the blocks' EST fields. -/
def Program.layerEst (p : Program) : List Nat :=
  p.runs.filterMap (fun r =>
    match p.ops[r.1]? with
    | some o => if o.opcode == opScore && opMode o == 0 then some (p.at (effParam p.ops r.2 r.1) 0x40 4) else none
    | none => none)

/-- Slack of a step at a time, in ns, rounded down (R248). -/
def Step.slackAt (t : Step) (now : Nat) (deadline : Int) : Int :=
  let ests := t.prog.layerEst
  let n := t.layersDone
  -- times n, or times 1 while no layer is done
  let m : Int := if n == 0 then 1 else n
  let e : Int := if n == 0 then ests.headD 0 * 1000 else t.layerTime
  let x : Int := t.group.elim 0 (fun g => (now : Int) - g.started.toNat)
  let remaining : Int := if ests.length ≤ n then 0 else max 0 (e - x * m) + ((ests.length : Int) - 1 - n) * e
  ((deadline - now) * m - remaining) / m

/-- The level a slack requires (R249). -/
def levelFor (thr : Nat) (slack : Int) : Nat :=
  let below := fun (i : Nat) => decide (slack < (fld thr (16 * i + 15) (16 * i) * 1000 : Nat))
  if below 3 then 4 else if below 2 then 3 else if below 1 then 2 else if below 0 then 1 else 0

/-- Adds to a context's timing-choice counter on behalf of a step (R257). -/
def State.timingChoice (s : State) (x : Nat) (step : Word) : State :=
  (s.accAdd aAccTchoice (x % 4096) 1).modStep x step (fun t => { t with tchoice := true })

/-! ## What a level does to dispatched work (R255, R256) -/

/-- The choice is late, or its packet's header has not been taken (R255). -/
def State.movable (s : State) (g : Group) (c : SlotChoice) : Bool :=
  decide (c.expert < 1024) && !c.withdrawn && !c.answered && !c.lined && g.hasShadow c.orig &&
    c.takenAt.all (fun a => decide (a + s.f aDlmCtrl 31 16 * 1000 ≤ s.tb))

/-- Moves one choice to the shadow of its original expert, whose gate its row takes (R206, R235, R255). -/
def State.moveLate (s : State) (x : Nat) (step : Word) (layer n : Nat) (p : Slot) (c : SlotChoice) : State :=
  let s := s.voidAll (fun q => q.ctx == x && q.step == step && !q.remote && q.slot == n && q.expert == c.expert)
  let w : ShadowWait := { index := p.index, slot := n, gate := c.origGate, since := s.tclk }
  let s := s.modGroup x step layer (fun g =>
    { g with shadowQ := tabPut g.shadowQ c.orig (tabGet [] g.shadowQ c.orig ++ [w]) })
  let p := (tabFind s.car.slots n).getD p
  let s := s.setSlot n (p.markChoice c.expert (fun c => { c with withdrawn := true }))
  (s.bump aShdCntLate).timingChoice x step

/-- Moves every choice of a step that R255 names. -/
def State.moveAll (s : State) (t : Step) (g : Group) : State :=
  (s.car.slots.filter (fun e => e.2.ctx == t.desc.ctx && e.2.step == t.desc.step && !e.2.written)).foldl
    (fun s e => (e.2.choices.filter (s.movable g)).foldl
      (fun s c => s.moveLate t.desc.ctx t.desc.step g.layer e.1 e.2 c) s) s

/-- Forces a token's exit: its slot is free, its flag byte shows EXIT and no bit that the slot had set (DESIGN CHOICE,
log 93), and its increment is due (R197, R207, R208, R212, R256). -/
def State.forceExit (s : State) (t : Step) (g : Group) (n : Nat) (p : Slot) : State :=
  let x := t.desc.ctx
  let s := s.voidAll (fun q => q.ctx == x && q.step == t.desc.step && !q.remote && q.slot == n && q.index == p.index)
  let bits : FlagBits := { exit := true }
  let s := { s with car := { s.car with slots := tabErase s.car.slots n } }
  let s := s.writeFlag t g p.index bits
  let s := s.modGroup x t.desc.step g.layer (fun g =>
    let h := ((g.addTout p.index (toutTerm p.index bits.toNat [])).mark p.index (fun k =>
      { k with forced := true })).completed p.index
    { h with shadowQ := (h.shadowQ.map (fun (q : Nat × List ShadowWait) =>
        (q.1, q.2.filter (fun w => w.index != p.index)))).filter (fun q => !q.2.isEmpty) })
  s.modStep x t.desc.step (fun u => { u with exited := tabPut u.exited p.index g.layer })

/-- Forces the exit of every bound token of the current layer that is not complete (R256). A token selected before and
not yet bound is bound later and completes (DESIGN CHOICE, log 94). -/
def State.forceAll (s : State) (t : Step) (g : Group) : State :=
  (s.car.slots.filter (fun e => e.2.ctx == t.desc.ctx && e.2.step == t.desc.step && e.2.layer == g.layer &&
    !e.2.written && !e.2.complete)).foldl (fun s e => s.forceExit t g e.1 e.2) s

/-- One step's evaluation (R248 to R258). -/
def State.evalStep (s : State) (t : Step) (now : Nat) (deadline : Int) : State :=
  let x := t.desc.ctx
  let slack := t.slackAt now deadline
  let level := max t.level (levelFor t.thr.toNat slack)
  let s := s.modStep x t.desc.step (fun u => { u with slack := some slack, level := level })
  let s := if level == t.level then s
    else
      let s := (s.bump aDlmCntEsc).timingChoice x t.desc.step
      if t.level < 2 && 2 ≤ level then s.raise cDlmEscalate else s
  match t.group with
  | none => s
  | some g =>
    let s := if level == 4 && t.level != 4 then s.forceAll t g else s
    if 2 ≤ level then s.moveAll t g else s

/-- DEADLINE_EVAL: the evaluation at the latest multiple of 2,000 ns, for every admitted Serve step with a deadline
(R248, R252, R260). A step that is being aborted is not evaluated (DESIGN CHOICE, log 96). -/
def execDeadlineEval (s : State) : Out :=
  let now := s.tb / 2000 * 2000
  if !s.flag aDlmCtrl 0 || s.halted || decide (now ≤ s.dlm.lastEval) then .next s
  else
    let s := { s with dlm := { s.dlm with lastEval := now } }
    .next ((s.rgm.steps.filter (fun t => t.phase != .queued && t.abort == 0 && s.profile t.desc.ctx == 1)).foldl
      (fun s t =>
        match s.deadline t with
        | some d => s.evalStep t now d
        | none => s) s)

end Sys2Proof.Machine
end

