-- ==== Sys2Proof/Machine/Contexts.lean ====
section
/-! DEFINITION. Partitions and contexts (R490 to R521): the life cycle, parking and unparking, teardown, the writes of
their registers, and energy (R509). -/

namespace Sys2Proof.Machine

/-! ## Loading (R494 to R497) -/

/-- The context's ACC registers and virtual time go to 0 (R495). -/
def State.zeroAcc (s : State) (x : Nat) : State :=
  let s := (List.range 8).foldl (fun s k => s.setReg (aAccCycles x + 8 * k) 0) s
  { s.setReg (aCtxVtime x) 0 with pwr := { s.pwr with frac := tabErase s.pwr.frac x } }

/-- A version of the context's program passes the checks of R495 that need no buffers. -/
def State.loadable (s : State) (x : Nat) (q : Program) : Bool :=
  s.profile x < 3 && q.allows (s.profile x) && decide (q.saveReq ≤ s.f (aCtxSavelen x) 23 0)

/-- Takes the buffers and copies the weights of a version for a context (R231, R232, R496); none where that fails. -/
def State.bringWeights (s : State) (x : Nat) (q : Program) : Option State :=
  match s.weightPlan q (s.flag (aCtxCfg x) 16) (s.hostScored (s.ctxPart x)) with
  | none => none
  | some w => s.takeWeights x q w

/-- Loads a FREE context with a program version (R495, R531); none where R495 refuses it. The weights are those that HBM
holds when the load is accepted. -/
def State.loadCtx (s : State) (x : Nat) (q : Program) : Option State :=
  if !s.loadable x q then none
  else
    let s := ((s.setCtx x ctx0).zeroAcc x).setF (aCtxCmd x) 2 0 1
    match s.bringWeights x q with
    | none => none
    | some s => some (s.ctxDelta x)

/-- CTX_LOAD: CTX_CMD with CMD 1. -/
def execCtxLoad (x : Nat) (s : State) : Out :=
  if x ≥ 4096 then .next s
  else if s.tenantShut || s.ctxState x != 0 then .next s.refuse
  else
    match s.newest (s.f (aCtxCfg x) 15 8) with
    | none => .next s.refuse
    | some q => .next ((s.loadCtx x q).elim s.refuse (·.done))

/-- CTX_LOAD_DONE: the last copy has completed (R495). -/
def execCtxLoadDone (x : Nat) (s : State) : Out :=
  if x ≥ 4096 || s.ctxState x != 1 || s.halted then .next s
  else .next (s.setF (aCtxCmd x) 2 0 2)

/-! ## Parking (R182, R183, R511 to R513) -/

/-- CTX_PARK: CTX_CMD with CMD 2. A context with no running step is at its boundary at once (R511). -/
def execCtxPark (x : Nat) (s : State) : Out :=
  if x ≥ 4096 then .next s
  else if s.tenantShut || s.ctxState x != 2 then .next s.refuse
  else
    let s := s.setF (aCtxCmd x) 2 0 3
    let s := s.setCtx x { s.ctx x with parkAt := some s.tb, parkCut := (s.running x).isNone }
    .next (s.ctxDelta x).done

/-- Formed shadow batches of a context that have not started go back to the front of their queues (R238). -/
def State.unformBatches (s : State) (x : Nat) : State :=
  let all := s.shd.formed.flatMap (fun (e : Nat × List ShadowBatch) => e.2.filter (fun b => b.ctx == x))
  let s := all.reverse.foldl (fun s b => s.modGroup x b.step b.layer (fun g => { g with
    shadowQ := tabSet [] g.shadowQ b.expert (b.toks ++ tabGet [] g.shadowQ b.expert) })) s
  { s with shd := { s.shd with formed := s.shd.formed.filterMap (fun (e : Nat × List ShadowBatch) =>
      let l := e.2.filter (fun b => b.ctx != x)
      if l.isEmpty then none else some (e.1, l)) } }

/-- The context has a tile or a shadow batch in progress, or a tile that has left the array and is not selected. -/
def State.arrayHolds (s : State) (x : Nat) : Bool :=
  s.shd.running.any (fun e => e.2.ctx == x) ||
    (s.running x).any (fun t => t.group.any (fun g => g.tile.isSome || !g.scored.isEmpty))

/-- The context reaches its park boundary (R511, R512). -/
def State.cutHere (s : State) (x : Nat) : State :=
  let s := s.setCtx x { s.ctx x with parkCut := true }
  s.unformBatches x

/-- PARK_BOUNDARY: the tile or batch in progress has ended, and every tile that left the array is through selection
(R511, R512). -/
def execParkBoundary (x : Nat) (s : State) : Out :=
  if s.parkDue x && !(s.ctx x).parkCut && !s.arrayHolds x && !s.halted then .next (s.cutHere x) else .next s

/-- PARK_CWAIT_EXPIRE: CWAIT has passed without a cheap op; with nothing in progress, this is the boundary (R511). -/
def execParkCwaitExpire (x : Nat) (s : State) : Out :=
  if s.f (aCtxCfg x) 63 48 != 0 && s.parkDue x && !(s.ctx x).parkCut && !s.arrayHolds x && !s.halted then
    .next (s.cutHere x)
  else .next s

/-- Every dispatch packet of a context has been taken or voided, every return it is owed is in, and its open batches are
closed in part (R182, R183). -/
def State.lanesQuiet (s : State) (x : Nat) : Bool :=
  s.lanes.all (fun e => !(e.2.dq.any (fun p => p.ctx == x && !p.void)) && !(e.2.owed.any (fun o => o.ctx == x))) &&
    s.rgm.steps.all (fun t => t.desc.ctx != x ||
      t.groups.all (fun g => g.lanes.all (fun r => r.expert.isNone || r.partialClose)))

/-- Slots a context has bound: number and slot. -/
def State.slotsOf (s : State) (x : Nat) : List (Nat × Slot) := s.car.slots.filter (fun e => e.2.ctx == x)

/-- LIVE bits of the op in progress, those of a layer group's ops together; with no op in progress, of the op that
completed last (R513). -/
def State.liveBits (s : State) (x : Nat) : Nat :=
  match s.running x with
  | none => (s.ctx x).live
  | some t =>
    match t.group with
    | some g =>
      let last := (groupScore t.prog.ops g.first).getD g.first + 4
      (t.prog.ops.zipIdx).foldl (fun m e => if g.first ≤ e.2 && e.2 ≤ last then m ||| e.1.live else m) 0
    | none => if t.waiting then t.opNow.elim 0 (·.live) else (s.ctx x).live

/-- A slot as a park saves it: with the accumulators of the segments whose INIT is set; a poisoned read poisons it
(R217, R221). -/
def State.saveSlot (s : State) (n : Nat) (p : Slot) : SavedSlot :=
  let is := (p.segs.zipIdx.filter (·.1.init)).map (·.2)
  { slot := { p with poison := p.poison || is.any (fun i => s.stkPoisoned (s.accAt n i) 320) }
    accs := is.map (fun i => (i, s.stkRead (s.accAt n i) 320)) }

/-- Bytes of a slot's record: tag, count, choice table, tallies and flags, and the accumulators it holds; each record
starts at a multiple of 64 bytes (R221, R513). -/
def SavedSlot.bytes (q : SavedSlot) : Nat := (128 + q.slot.d / 32 + 320 * q.accs.length + 63) / 64 * 64

/-- Bytes of accumulators that a save reads from the stack, or a restore writes there. -/
def accTraffic (slots : List SavedSlot) : Nat := slots.foldl (fun n q => n + 320 * q.accs.length) 0

/-- Bytes that the live state classes of a context take, header included (R513). -/
def State.liveBytes (s : State) (x : Nat) (slots : List SavedSlot) : Nat :=
  let g := (s.running x).bind (·.group)
  let waits := g.elim 0 (fun g => g.shadowQ.foldl (fun n e => n + e.2.length) 0)
  let has := fun (k n : Nat) => if bitAt (s.liveBits x) k then n else 0
  4096 + has 0 (g.elim 0 (fun g => if g.bounded && !g.closed then 64 + 4 * g.loads.length else 0)) +
    has 1 (slots.foldl (fun n q => n + q.bytes) 0) +
    has 2 (g.elim 0 (fun g => 32 * (g.lanes.filter (fun r => r.expert.isSome)).length)) + has 3 (8 * waits)

/-- Free bytes: the save area's layout is private to the engine (R515). -/
def saveBytes (from_ n : Nat) : Bytes := (List.range n).map (fun i => Config.freeByte (from_ + i))

/-- PARK_SAVE_DONE: the save has ended. Written, the context is PARKED and its router and shadow buffers go (R512, R515);
not written, it is torn down (R516). -/
def execParkSaveDone (x : Nat) (written : Bool) (s : State) : Out :=
  if x ≥ 4096 || s.ctxState x != 3 || !(s.ctx x).parkCut || s.arrayHolds x || !s.lanesQuiet x || s.halted then .next s
  else if !written then .next (s.faultCtx x 6)
  else
    let slots := (s.slotsOf x).map (fun e => s.saveSlot e.1 e.2)
    let n := s.liveBytes x slots
    let s := ((s.hbmWrite (s.f (aCtxSave x) 47 0) (saveBytes s.freeCtr n)).chargeHbm x n).chargeStk x (accTraffic slots)
    let s := { s with freeCtr := s.freeCtr + n }
    let s := s.abandon (fun p => p.ctx == x)
    let s := s.freeAll (s.ctx x).weightBufs
    let s := s.setCtx x { s.ctx x with
      weightBufs := [], shadows := [], routers := [], weightsOf := none, parkAt := none, parkCut := false
      saved := some slots }
    .next (s.setF (aCtxCmd x) 2 0 4)

/-! ## Unparking (R514) -/

/-- The program version a parked context goes on with. -/
def State.versionOf (s : State) (x : Nat) : Option Program :=
  match s.running x with
  | some t => some t.prog
  | none => s.newest (s.f (aCtxCfg x) 15 8)

/-- CTX_UNPARK: CTX_CMD with CMD 3. -/
def execCtxUnpark (x : Nat) (s : State) : Out :=
  if x ≥ 4096 then .next s
  else if s.tenantShut || s.ctxState x != 4 then .next s.refuse
  else
    match (s.versionOf x).bind (s.bringWeights x) with
    | none => .next s.refuse
    | some s1 => .next ((s1.setF (aCtxCmd x) 2 0 5).ctxDelta x).done

/-- Binds a saved slot to a free slot and reloads its accumulators (R221, R226, R427). -/
def State.rebind (s : State) (n : Nat) (q : SavedSlot) : State :=
  let s := { s with car := { s.car with
      slots := tabPut s.car.slots n q.slot
      gens := tabSet 0 s.car.gens n ((tabGet 0 s.car.gens n + 1) % 65536) } }
  (q.accs.foldl (fun s a => s.stkWrite (s.accAt n a.1) a.2) s).notePeak

/-- Waiting shadow choices name the slots their tokens are bound to now. -/
def State.renumberWaits (s : State) (x : Nat) : State :=
  match s.running x with
  | none => s
  | some t => s.setStep { t with group := t.group.map (fun g => { g with
      shadowQ := g.shadowQ.map (fun (e : Nat × List ShadowWait) => (e.1, e.2.map (fun w =>
        match (s.slotsOf x).find? (fun b => b.2.index == w.index && b.2.layer == g.layer) with
        | some b => { w with slot := b.1 }
        | none => w))) }) }

/-- Slots a restore may take: in service, free, and each named once. -/
def State.slotsFree (s : State) (p : Nat) (ns : List Nat) : Bool :=
  ns.eraseDups.length == ns.length && ns.all (fun n => s.slotIn p n && (tabFind s.car.slots n).isNone)

/-- UNPARK_DONE: the weights and the saved state are back (R221, R514 to R516). `intact` says that the save area passes its
check and could be written back; what reads poisoned fails too. The time that the step was parked does not count towards
a stall (R219). `slots` are the free slots taken, one for each saved slot, lowest saved number first. -/
def execUnparkDone (x : Nat) (intact : Bool) (slots : List Nat) (s : State) : Out :=
  if x ≥ 4096 || s.ctxState x != 5 || s.halted then .next s
  else
    let saved := (s.ctx x).saved.getD []
    let n := s.liveBytes x saved
    if !intact || s.hbmPoisoned (s.f (aCtxSave x) 47 0) n then .next (s.faultCtx x 5)
    else if slots.length != saved.length || !s.slotsFree (s.ctxPart x) slots then .next s
    else
      let s := (slots.zip saved).foldl (fun s b => s.rebind b.1 b.2) s
      let s := ((s.renumberWaits x).chargeHbm x n).chargeStk x (accTraffic saved)
      let s := { s with rgm := { s.rgm with steps := s.rgm.steps.map (fun (t : Step) =>
        if t.desc.ctx == x then { t with lastProgress := word s.tclk } else t) } }
      let s := s.setCtx x { s.ctx x with saved := none, parkAt := none, parkCut := false }
      .next ((s.setF (aCtxCmd x) 2 0 2).raiseVtime x)

/-! ## Unloading and teardown (R499, R517, R518) -/

/-- CTX_UNLOAD: CTX_CMD with CMD 4; the context passes through UNLOADING to FREE (R494, R499). -/
def execCtxUnload (x : Nat) (s : State) : Out :=
  if x ≥ 4096 then .next s
  else if s.tenantShut || !(s.ctxState x == 2 || s.ctxState x == 4) || s.stepsOf x != 0 ||
      s.col.groups.any (fun e => e.2.ctx == x) then .next s.refuse
  else
    let s := ((s.clearSeqs x).clearRing x).releaseCtx x
    let s := s.setCtx x { ctx0 with chain := (s.ctx x).chain }
    .next ((s.setF (aCtxCmd x) 2 0 0).ctxDelta x).done

/-- CTX_TEARDOWN: CTX_CMD with CMD 5. -/
def execCtxTeardown (x : Nat) (s : State) : Out :=
  if x ≥ 4096 then .next s
  else if s.tenantShut || s.ctxState x == 0 then .next s.refuse
  else .next (s.faultCtx x 1).done

/-- Something of a FAULTED context is still outstanding: a return, a tag, a collective or a step (R518). -/
def State.tearing (s : State) (x : Nat) : Bool :=
  s.lanes.any (fun e => e.2.owed.any (fun o => o.ctx == x)) || s.fab.reqs.any (fun e => e.2.ctx == x) ||
    s.col.groups.any (fun e => e.2.ctx == x) || s.stepsOf x != 0

/-- TEARDOWN_DONE: every owed return and every tag is in; the context is FREE. -/
def execTeardownDone (x : Nat) (s : State) : Out :=
  if x ≥ 4096 || s.ctxState x != 7 || s.tearing x then .next s
  else
    let s := (s.setF (aCtxCmd x) 2 0 0).setCtx x { ctx0 with chain := (s.ctx x).chain }
    .next (s.ctxDelta x)

/-! ## Register writes (R491, R492, R500, R520, R521) -/

/-- A write of CTX_CFG (R500, R521). -/
def State.ctxCfg (s : State) (x : Nat) (v : Word) : State :=
  let old := s.reg (aCtxCfg x)
  let new := mergeMask old v (fm 16 0 + fm 63 32)
  let fixed := fld old.toNat 16 0 != fld new.toNat 16 0
  if fld new.toNat 1 0 == 3 || fld new.toNat 47 32 == 0 || (fixed && s.ctxState x != 0) then s.refuse
  else if new == old then s.done
  else ((s.setReg (aCtxCfg x) new).ctxDelta x).done

/-- CTX_CFG_WRITE. -/
def execCtxCfgWrite (x : Nat) (v : Word) (s : State) : Out :=
  if x ≥ 4096 then .next s
  else if s.portShut then .next s.refuse
  else .next (s.ctxCfg x v)

/-- Contexts of a partition that are not FREE. -/
def State.ctxsOfPart (s : State) (p : Nat) : List Nat := s.loadedCtxs.filter (fun x => s.ctxPart x == p)

/-- A context of the partition is in a transitional state, or ACTIVE with a step that is not COMPLETE (R491). -/
def State.partBusy (s : State) (p : Nat) : Bool :=
  (s.ctxsOfPart p).any (fun x => [1, 3, 5, 6, 7].contains (s.ctxState x) || (s.ctxState x == 2 && s.stepsOf x != 0))

/-- Slots that the steps of a partition's parked contexts reserve (R491). -/
def State.parkedSlots (s : State) (p : Nat) : Nat :=
  (s.rgm.steps.filter (fun t => t.part == p && s.ctxState t.desc.ctx == 4)).foldl (fun n t => n + t.slotRes) 0

/-- Two ranges of slots, as (first, count), share a slot. -/
def rangesMeet (a b : Nat × Nat) : Bool :=
  a.2 != 0 && b.2 != 0 && decide (a.1 < b.1 + b.2) && decide (b.1 < a.1 + a.2)

/-- Another partition holds a resource that a value of a PAR register would give this one (R491). -/
def State.parTaken (s : State) (p reg : Nat) (v : Word) : Bool :=
  (List.range 64).any (fun q =>
    q != p &&
      (if reg == 0 then v &&& s.reg (aParLaneLo q) != 0
       else if reg == 1 then v &&& s.reg (aParLaneHi q) != 0
       else if reg == 2 then fld v.toNat 31 0 &&& s.f (aParGroup q) 31 0 != 0
       else rangesMeet (fld v.toNat 14 0, fld v.toNat 31 16) (s.f (aParSlot q) 14 0, s.f (aParSlot q) 31 16)))

/-- R491 refuses a value of PAR_LANE_LO, PAR_LANE_HI, PAR_GROUP or PAR_SLOT (registers 0 to 3). -/
def State.parRefused (s : State) (p reg : Nat) (v : Word) : Bool :=
  let base := fld v.toNat 14 0
  let count := fld v.toNat 31 16
  s.parTaken p reg v || s.partBusy p ||
    (reg == 3 && (decide (32768 < base + count) || decide (count < s.parkedSlots p)))

/-- Bits of register `reg` of a PAR block that software writes (R520). -/
def parMask (reg : Nat) : Nat :=
  if reg ≤ 1 then fm 63 0 else if reg == 2 then fm 31 0 else if reg == 3 then fm 14 0 + fm 31 16
  else if reg == 4 then fm 18 0 + fm 20 20 else fm 20 0

/-- A lane that the image placed in service waits for its partition's next step boundary (R179). -/
def State.awaitEntry (s : State) (n : Nat) : State :=
  let l := s.lane n
  if l.placed && s.islState n == 1 then s.setLane n { l with due := true } else s

/-- A value that a register of a PAR block does not take (R491, R520). -/
def State.parBad (s : State) (p reg : Nat) (new : Word) : Bool :=
  (reg ≤ 3 && s.parRefused p reg new) || (reg == 4 && fld new.toNat 15 0 == 0)

/-- Stores a register of a PAR block; lanes it gives the partition may wait to enter service (R179). -/
def State.parStore (s : State) (p reg : Nat) (new : Word) : State :=
  let a := aParLaneLo p + 8 * reg
  let given := if reg ≤ 1 then (bitsOf 64 (new &&& ~~~(s.reg a)).toNat).map (· + 64 * reg) else []
  given.foldl (fun s n => s.awaitEntry n) (s.setReg a new)

/-- A write of register `reg` of partition p, at offset 8 · reg: 0 PAR_LANE_LO, 1 PAR_LANE_HI, 2 PAR_GROUP, 3 PAR_SLOT,
4 PAR_SHARE, 5 to 10 PAR_CEIL. -/
def State.parReg (s : State) (p reg : Nat) (v : Word) : State :=
  let a := aParLaneLo p + 8 * reg
  let new := mergeMask (s.reg a) v (parMask reg)
  if 11 ≤ reg || s.parBad p reg new then s.refuse else (s.parStore p reg new).done

/-- PAR_WRITE. -/
def execParWrite (p reg : Nat) (v : Word) (s : State) : Out :=
  if p ≥ 64 then .next s
  else if s.portShut || s.applying 7 then .next s.refuse
  else .next (s.parReg p reg v)

/-! ## Energy (R509, R632, R633) -/

/-- The kind of an island: its row in the table of R614. -/
def islKind (i : Nat) : Nat :=
  if i < 128 then 0 else if i < 160 then 1 else if i < 176 then 2 else if i < 240 then 3 else if i < 248 then 4
  else if i < 256 then 5 else if i < 260 then 6 else i - 253

/-- The largest y below 2^96 with y^20 · den ≤ num. -/
def root20 (num den : Nat) : Nat :=
  (List.range 96).foldl (fun y i =>
    let z := y + 2 ^ (95 - i)
    if z ^ 20 * den ≤ num then z else y) 0

/-- Leakage over a number of CCLK cycles at temperature T of an island that leaks `mw` milliwatts at 85 °C, in units of
2^−32 nJ rounded down (R633): mw · cycles / 1800 · 2^((T − 85) / 20). -/
def leakage (mw cycles temp : Nat) : Nat :=
  let n := mw * cycles * 2 ^ 32
  root20 (n ^ 20 * 2 ^ (temp - 85)) (1800 ^ 20 * 2 ^ (85 - temp))

/-- ACCOUNTING_WINDOW: a window of 4,096 CCLK cycles ends for a context (R509). `events` are its counted events of each
kind; `occupied` lists islands it occupied: number, cycles, and temperature of the nearest sensor in °C. A FREE context's ACC
registers keep their values (R510). -/
def execAccountingWindow (x : Nat) (events : List Nat) (occupied : List (Nat × Nat × Nat)) (s : State) : Out :=
  if x ≥ 4096 || s.ctxState x == 0 then .next s
  else
    let ev := (List.range 10).foldl (fun n k => n + events.getD k 0 * s.f (aPwrCoef k) 15 0 * 2 ^ 20) 0
    let lk := occupied.foldl (fun n e =>
      if e.1 < 264 then n + leakage (s.pwr.leak.getD (islKind e.1) 0) (min e.2.1 4096) e.2.2 else n) 0
    let e := tabGet 0 s.pwr.frac x + ev + lk
    let s := { s with pwr := { s.pwr with frac := tabSet 0 s.pwr.frac x (e % 2 ^ 32) } }
    .next (s.accAdd aAccEnergy x (e / 2 ^ 32))

end Sys2Proof.Machine
end

