-- ==== Sys2Proof/Machine/InService.lean ====
section
/-! DEFINITION. Islands in service (R600, R601, R607, R615, R618, R619, R727 to R729): taken out, tested and returned, and
clock stretching. -/

namespace Sys2Proof.Machine

/-! ## Taking out and testing (R599, R600, R607, R727, R729) -/

/-- An island in service leaves it because software asks: a lane, slice or adder with what it holds, a port once its
requests are answered, a cube group at its tile boundary (R77, R181, R216, R378, R476). -/
def State.islOut (s : State) (i : Nat) : State :=
  if islGroup i && s.tileUses (i - 128) then
    { s with mgt := { s.mgt with leaving := setInsert s.mgt.leaving (i - 128) } }
  else if islPort i && s.link (i - 160) == 2 then s.portOut (i - 160)
  else (s.islandLoss i).depart i true

/-- CMD 2 of MGT_ISL_SEL (R599, R607); an island that is not in service has no effect to take. -/
def State.islTakeOut (s : State) (i : Nat) : State :=
  if 264 ≤ i || islFatal i then s.refuse
  else
    let s := s.setF aMgtIslSel 8 0 i
    (if s.islState i == 0 then s.islOut i else if s.islState i == 3 then s.depart i true else s).done

/-- ISLAND_TAKE_OUT. -/
def execIslandTakeOut (i : Nat) (s : State) : Out := s.early (fun s => s.islTakeOut i)

/-- CMD 1 of MGT_ISL_SEL (R600, R601, R607, R729). -/
def State.islTestReturn (s : State) (i : Nat) : State :=
  if 264 ≤ i || s.islState i == 2 then s.refuse
  else
    let s := s.setF aMgtIslSel 8 0 i
    (if (s.islState i == 1 || (s.islState i == 0 && islStack i)) && !s.mgt.testQ.contains i then
      { s with mgt := { s.mgt with testQ := s.mgt.testQ ++ [i] } }
    else s).done

/-- ISLAND_TEST_RETURN. -/
def execIslandTestReturn (i : Nat) (s : State) : Out := s.early (fun s => s.islTestReturn i)

/-- ISLAND_TEST_START: the oldest test that waits starts while fewer than 4 run (R727). -/
def execIslandTestStart (s : State) : Out :=
  match s.mgt.testQ with
  | [] => .next s
  | i :: rest =>
    if 4 ≤ s.mgt.tests.length then .next s
    else .next ({ s with mgt := { s.mgt with testQ := rest, tests := s.mgt.tests ++ [i] } }.setIsl i 3)

/-- The partition whose step boundary a cube group waits for, if one owns it. -/
def State.groupOwner (s : State) (g : Nat) : Option Nat := (List.range 64).find? (fun p => s.flag (aParGroup p) g)

/-- An island whose test has passed returns: a lane and a port through their own units, a stack island stays where it
was, any other is in service (R600, R729). -/
def State.islReturn (s : State) (i : Nat) : State :=
  if islLane i then (s.setIsl i 1).setF (aLanCtrl i) 9 9 1
  else if islPort i then (s.setIsl i 1).portBack (i - 160)
  else s.setIsl i 0

/-- A cube group that has passed its test may return: under a live repair at its partition's next tile boundary, else at
its next step boundary (R590, R600). -/
def State.groupMayReturn (s : State) (g : Nat) : Bool :=
  (s.groupOwner g).all (fun p => if s.mgt.repairing.contains g then !s.tileRuns p else s.atBoundary p)

/-- ISLAND_TEST_DONE (R600, R727, R728). A cube group that passes waits until it may return. -/
def execIslandTestDone (i : Nat) (pass : Bool) (s : State) : Out :=
  if !s.mgt.tests.contains i then .next s
  else if !pass then
    .next (if islStack i then ({ s with mgt := { s.mgt with tests := s.mgt.tests.filter (· != i) } }.setIsl i 0).halt
      else s.depart i false)
  else if islGroup i && !s.groupMayReturn (i - 128) then .next s
  else .next ({ s with mgt := { s.mgt with
    tests := s.mgt.tests.filter (· != i), repairing := s.mgt.repairing.filter (128 + · != i) } }.islReturn i)

/-- Every test ends as failed: a reset, a restart, a move to Retain or Off (R728). -/
def State.failTests (s : State) : State :=
  let l := s.mgt.tests
  let s := l.foldl (fun s i => if islStack i then s.setIsl i 0 else s.depart i false) s
  { s with mgt := { s.mgt with tests := [], testQ := [] } }

/-! ## Gating and stretching (R615, R618, R619) -/

/-- ISLAND_CLOCK_GATE: an island in service gates its clock; it keeps all state (R615, R640). -/
def execIslandClockGate (i : Nat) (s : State) : Out :=
  .next (if i < 264 && s.islState i == 0 then s.bump aClkGate else s)

/-- A step uses an island: a mapped lane, a group of its partition, a slice, or one that serves every step. -/
def State.stepHolds (s : State) (t : Step) (i : Nat) : Bool :=
  if islLane i then t.lanes.contains i
  else if islGroup i then s.flag (aParGroup t.part) (i - 128)
  else if islSlice i then t.slices.contains (i - 248)
  else if islAdder i then s.col.groups.any (fun e => e.2.run.any (fun r =>
    r.req.ctx == t.desc.ctx && r.req.step == some t.desc.step && r.islands.contains (i - 240)))
  else !(i == 261 || i == 262)

/-- DROOP_DETECT: the onset of a stretch is counted (R618, R619). -/
def execDroopDetect (i : Nat) (s : State) : Out :=
  if 264 ≤ i || s.islState i == 1 || s.islState i == 2 || s.mgt.stretched.contains i then .next s
  else
    let n := min (tabGet 0 s.mgt.stretches i + 1) (2 ^ 32 - 1)
    let s := { s with mgt := { s.mgt with
      stretches := tabPut s.mgt.stretches i n, stretched := setInsert s.mgt.stretched i } }
    let s := s.bump aClkCntStretch
    .next { s with rgm := { s.rgm with steps := s.rgm.steps.map (fun t =>
      if t.phase != .queued && s.stepHolds t i then { t with stretches := t.stretches + 1 } else t) } }

/-- DROOP_RECOVER: the normal period returns (R618). -/
def execDroopRecover (i : Nat) (s : State) : Out :=
  .next { s with mgt := { s.mgt with stretched := setErase s.mgt.stretched i } }

end Sys2Proof.Machine
end

