-- ==== Sys2Proof/Machine/Images.lean ====
section
/-! DEFINITION. Configuration images (R642 to R652, R760): banks, headers, sections, the checks an image must pass, and
what its sections put into registers. The layout inside the sections is this model's (DESIGN CHOICE, log 40). -/

namespace Sys2Proof.Machine

/-! ## Headers (R646 to R648) -/

/-- Flash address of image bank b (R643). -/
def bankBase (b : Nat) : Nat := 0x2000000 * b

/-- A header block of 4,096 bytes and the body that goes with it. -/
structure Image where
  hdr : Bytes
  body : Bytes
  deriving DecidableEq, Repr, Inhabited

def Image.slot (i : Image) : Nat := fieldAt i.hdr 6 1
def Image.svn (i : Image) : Nat := fieldAt i.hdr 7 1
def Image.seq (i : Image) : Nat := fieldAt i.hdr 8 4
def Image.nsect (i : Image) : Nat := fieldAt i.hdr 0x15 1
def Image.flags (i : Image) : Nat := fieldAt i.hdr 0x16 2
def Image.key (i : Image) : Bytes := sliceBytes i.hdr 0x220 97

/-- Body length of a header. -/
def hdrLen (hdr : Bytes) : Nat := fieldAt hdr 0xC 4

/-- A header is valid (R647). -/
def hdrValid (hdr : Bytes) : Bool :=
  let n := hdrLen hdr
  let k := fieldAt hdr 0x15 1
  fieldAt hdr 0 4 == 0x53494D47 && fieldAt hdr 4 2 == 1 && n % 4096 == 0 && decide (4096 ≤ n) && decide (n ≤ 33550336) &&
    decide (1 ≤ k) && decide (k ≤ 32) && decide (fieldAt hdr 6 1 ≤ 1) && fieldAt hdr 0x2E8 4 == crcN (sliceBytes hdr 0 0x2E8)

/-- The header block of a bank. -/
def State.bankHdr (s : State) (b : Nat) : Bytes := s.flashRead (bankBase b) 4096

/-- The image of a bank, its body as long as its header says. -/
def State.bankImage (s : State) (b : Nat) : Image :=
  let h := s.bankHdr b
  { hdr := h, body := s.flashRead (bankBase b + 0x1000) (hdrLen h) }

/-- The header-valid bank to boot first, if there is one (R648). -/
def State.firstBank (s : State) : Option Nat :=
  let a := s.bankHdr 0
  let b := s.bankHdr 1
  if hdrValid a && hdrValid b then some (if serialAfter 32 (fieldAt b 8 4) (fieldAt a 8 4) then 1 else 0)
  else if hdrValid a then some 0 else if hdrValid b then some 1 else none

/-! ## Sections (R650, R651, R760) -/

/-- A directory entry: TYPE, OFFSET, LENGTH, SCRC (R650). -/
structure DirEnt where
  type : Nat
  ofs : Nat
  len : Nat
  crc : Nat
  deriving DecidableEq, Repr, Inhabited

/-- The directory. -/
def Image.dir (i : Image) : List DirEnt :=
  (List.range i.nsect).map (fun k =>
    let a := 0x20 + 16 * k
    { type := fieldAt i.hdr a 2, ofs := fieldAt i.hdr (a + 4) 4, len := fieldAt i.hdr (a + 8) 4
      crc := fieldAt i.hdr (a + 12) 4 })

/-- The bytes of a section; none where the image has no such section. -/
def Image.section? (i : Image) (type : Nat) : Option Bytes :=
  (i.dir.find? (fun d => d.type == type)).map (fun d => sliceBytes i.body d.ofs d.len)

/-- Islands an ISLAND section names, with the state each takes (R760). -/
def islandEntries (bs : Bytes) : List (Nat × Nat) :=
  (chunksOf 4 (bs.length / 4) bs).map (fun e => (fieldAt e 0 2, fieldAt e 2 1))

/-- An ISLAND section keeps the rules of R760. -/
def islandSectionOk (bs : Bytes) : Bool :=
  let es := islandEntries bs
  es.all (fun e => e.1 < 264 && (e.2 == 1 || e.2 == 2) && !islFatal e.1) && decide ((es.map (fun (e : Nat × Nat) => e.1)).Nodup)

/-- Two sections overlap. -/
def DirEnt.meets (a b : DirEnt) : Bool := a.ofs < b.ofs + b.len && b.ofs < a.ofs + a.len

/-- The directory is accepted (R651). -/
def Image.dirOk (i : Image) : Bool :=
  let ds := i.dir
  let types : List Nat := ds.map (·.type)
  ds.all (fun d => d.ofs + d.len ≤ hdrLen i.hdr && 1 ≤ d.type && d.type ≤ 11 && d.crc == crcN (sliceBytes i.body d.ofs d.len)) &&
    decide types.Nodup && decide (ds.Pairwise (fun (a b : DirEnt) => a.meets b = false)) &&
    [1, 3, 5, 10, 11].all types.contains && ((i.section? 2).elim true islandSectionOk)

/-- A coefficient of n bits of two's complement as k bytes. -/
def coefBytes (k : Nat) (c : Int) : Bytes := natLe k (c % (2 ^ (8 * k) : Int)).toNat

/-- Entry k of the built-in tables as the SFU section holds it: EXP2, RCP, RSQ, SIN in order (R46, R47, R70). -/
def sfuEntry (k : Nat) : Bytes :=
  let c := if k < 256 then sfuSegment .exp2 k else if k < 512 then sfuSegment .rcp (k - 256)
    else if k < 1024 then sfuSegment .rsq (k - 512) else sfuSegment .sin (k - 1024)
  coefBytes 5 c.1 ++ coefBytes 4 c.2.1 ++ coefBytes 3 c.2.2

/-- The SFU section equals the built-in revision 3 tables (R70). -/
def Image.sfuOk (i : Image) : Bool :=
  match i.section? 10 with
  | some bs => bs.length == 15360 && (List.range 1280).all (fun k => sliceBytes bs (12 * k) 12 == sfuEntry k)
  | none => false

/-! ## Acceptance (R649, R679) -/

/-- The SHA-384 that the signature covers. -/
def Image.digest (i : Image) : Nat := sha384 (sliceBytes i.hdr 0 0x288 ++ i.body)

/-- Why an image with a valid header is rejected, as R679 codes it; 0 where R649 accepts it. -/
def State.imageErr (s : State) (i : Image) : Nat :=
  let f := s.cfg.fuses
  if crcN i.body != fieldAt i.hdr 0x10 4 then 0x10
  else if f.slot i.slot != 1 then 0x12
  else if !f.owns i.slot i.key then 0x13
  else if !ecdsaOk i.key (sliceBytes i.hdr 0x288 96) i.digest then 0x14
  else if decide (i.svn < f.arb) then 0x15
  else if fieldAt i.hdr 0x14 1 != s.f aGlbVer 7 0 then 0x17
  else if !i.dirOk then 0x10
  else 0

/-- Why a bank cannot boot; 0 where it can. -/
def State.bankErr (s : State) (b : Nat) : Nat := if hdrValid (s.bankHdr b) then s.imageErr (s.bankImage b) else 0x20

/-- The running image. -/
def State.running_image (s : State) : Image := s.bankImage (s.f aCfgStat 0 0)

/-- The bank an update writes (R660). -/
def State.inactive (s : State) : Nat := 1 - s.f aCfgStat 0 0

/-! ## Register values in sections (R652, R737; the 16-byte entries are log 40) -/

/-- Address a belongs to an array of n registers. -/
def inArray (a base stride n : Nat) : Bool := base ≤ a && a < base + stride * n && (a - base) % stride == 0

/-- Bits of the register at an address that a section supplies; 0 for none (R652). -/
def sectionMask (type a : Nat) : Nat :=
  if type == 1 then
    if a == aClkDroop || inArray a (aPwrCoef 0) 8 16 then fm 15 0
    else if inArray a (aGlbHmreg 0) 8 8 then fm 7 0 + fm 31 16 else if a == aGlbHmil then fm 4 0 else 0
  else if type == 3 then
    if inArray a (aPolExt 0) 64 6 then fm 20 0 + fm 52 32 else if inArray a (aPolThr 0) 64 6 then fm 62 0
    else if inArray a (aPolHyst 0) 64 6 then fm 20 0 else if a == aStkCtrl then fm 7 0 else 0
  else if type == 4 then (if a == aScaSpareMap then fm 31 0 else 0)
  else if type == 5 then
    if a == aMsfChip then fm 13 0 else if a == aMsfCtrl then fm 7 0 + fm 31 16 + fm 46 32
    else if inArray a (aFabVcw 0) 4096 16 then fm 63 8 else 0
  else if type == 6 then
    if a == aTwnCtrl then fm 13 0 + fm 31 24 + fm 47 32 else if a == aTwnMirBase then fm 47 0
    else if a == aTwnMirLen then fm 15 0 else 0
  else if type == 7 then
    if 0x20000 ≤ a && a < 0x30000 && a % 1024 < 0x58 && a % 8 == 0 then parMask (a % 1024 / 8)
    else if inArray a (aLanBack 0) 1024 128 then fm 6 0 + fm 14 8
    else if inArray a (aLanCt 0) 1024 128 then fm 12 0
    else if inArray a (aLanDqWm 0) 1024 128 || inArray a (aLanRqWm 0) 1024 128 then fm 19 0 + fm 51 32 else 0
  else if type == 9 then
    if a == aDlmCtrl then fm 1 0 + fm 63 16 else if inArray a (aDlmThr 0) 8 64 then fm 63 0 else 0
  else if type == 11 then
    if a == aMgtRetire then fm 19 0 + fm 31 24 + fm 39 32 else if a == aWayCtrl then fm 1 0
    else if a == aMgtI3c then fm 6 0 else 0
  else 0

/-- The (address, value) entries of a section. -/
def sectionValues (bs : Bytes) : List (Nat × Nat) :=
  (chunksOf 16 (bs.length / 16) bs).map (fun e => (fieldAt e 0 8, fieldAt e 8 8))

/-- Entries of a section of an image; none where it is absent. -/
def Image.values (i : Image) (type : Nat) : List (Nat × Nat) := ((i.section? type).map sectionValues).getD []

/-- A value that a section gives under an address of its own outside the register window. -/
def Image.extra (i : Image) (type a : Nat) : Option Nat := ((i.values type).reverse.find? (fun e => e.1 == a)).map (·.2)

/-- Writes one entry of a section into the register it names. -/
def State.putEntry (s : State) (type : Nat) (e : Nat × Nat) : State :=
  let m := sectionMask type e.1
  if m == 0 then s else s.setReg e.1 (mergeMask (s.reg e.1) (word e.2) m)

/-- Writes every register value of a section. -/
def State.putSection (s : State) (i : Image) (type : Nat) : State :=
  (i.values type).foldl (fun s e => s.putEntry type e) s

/-- An image supplies bits of a register, in some section (R737). -/
def imageSupplies (a : Nat) : Bool := (List.range 12).any (fun t => sectionMask t a != 0)

/-- The register belongs to a section that a live apply under way names (R738). -/
def State.applyHolds (s : State) (a : Nat) : Bool :=
  (List.range 12).any (fun t => s.applying t && sectionMask t a != 0)

/-! ## Programs (R652) -/

/-- The programs of a PROGRAMS section: ID and image, each behind an 8-byte header, padded to 16 bytes; fuel bounds the
count. -/
def programsOf : Nat → Bytes → List (Nat × Bytes)
  | 0, _ => []
  | k + 1, bs =>
    let n := fieldAt bs 4 4
    if bs.length < 8 || n == 0 then [] else (fieldAt bs 0 1, sliceBytes bs 8 n) :: programsOf k (bs.drop (8 + (n + 15) / 16 * 16))

/-- Loads the programs of a section in order; a refused one stops the load, and those loaded stay (R664). Whether all
were loaded, and the state. -/
def State.loadAll (s : State) (l : List (Nat × Bytes)) : Bool × State :=
  l.foldl (fun (r : Bool × State) e =>
    if !r.1 then r
    else match r.2.loadImage e.1 e.2 with
      | .inl s' => (true, s')
      | .inr _ => (false, r.2)) (true, s)

/-- Programs of an image. -/
def Image.programs (i : Image) : List (Nat × Bytes) := ((i.section? 8).map (programsOf 512)).getD []

/-! ## Repairs (R74, R331, R332, R666) -/

/-- Row repairs of a REPAIR section: bank, row, spare. -/
def Image.rowRepairs (i : Image) : List (Nat × Nat × Nat) :=
  ((i.values 4).filter (fun e => e.1 == 0x1000200)).map (fun e => (fld e.2 8 0, fld e.2 24 16, fld e.2 37 32))

/-- The spare map that a REPAIR section gives. -/
def Image.spareMap (i : Image) : Nat := ((i.values 4).filter (fun e => e.1 == aScaSpareMap)).foldl (fun _ e => e.2) 0

/-- A repair section carries a repair for a cube group: a spare of its quarter serves it. -/
def Image.repairs (i : Image) (g : Nat) : Bool :=
  let m := quarterByte i.spareMap g
  bitAt m 7 && fld m 6 2 == g

end Sys2Proof.Machine
end

