-- ==== Sys2Proof/Machine/Twin.lean ====
section
/-! DEFINITION. Trapeze (R551 to R586): attach and detach, heartbeats, suspicion and takeover, transfers to the twin and
the mirror of the twin, checkpoints, adoption, and the time base. -/

namespace Sys2Proof.Machine

/-! ## READY (R634, R673) -/

/-- READY is published: phase 9 of start-up, with what waits for it: placed lanes, pool states, notices, ATTEST (R179,
R317, R343, R634, R649, R673). The state reached is Run (DEDUCED, log 35). -/
def State.publishReady (s : State) : State :=
  let s := { s with twn := { s.twn with discovering := none } }
  let s := (s.setF aPwrBoot 4 4 1).setF aPwrBoot 3 0 9
  let s := (List.range 128).foldl (fun s n => s.awaitEntry n) s
  let s := s.setF aPwrState 1 0 3
  let s := s.event (eventWord 4 0 0 0 0 0) 3
  let s := (List.range 6).foldl (fun s c => s.polSettle c) s
  let s := if s.flag aStkCtrl 8 then s.raise cStkKeyfix else s
  let s := if s.flag aCfgStat 1 then s.raise cCfgFallback else s
  s.attest

/-! ## Receipt -/

/-- Receipt of a TCTL packet of one KIND (R565, R566). -/
def State.receiveCtl (s : State) (n : Nat) (p : Packet) (kind : Nat) (k : State → State) : Out :=
  s.receiveIf n p (pOp p == 0x39 && pAddr p % 16 == kind) k

/-- The packet comes from the twin. -/
def State.fromTwin (s : State) (p : Packet) : Bool := pSrc p == s.twin

/-- Transfers and heartbeats run: ATTACHING, PAIRED or SUSPECT. -/
def State.twinUp (s : State) : Bool := 1 ≤ s.twinState && s.twinState ≤ 3

/-! ## Attach (R553 to R556, R583) -/

/-- The payload of ATTREQ and ATTACK (R566). -/
def State.attachBody (s : State) : Bytes :=
  padLine (natLe 2 (s.f aTwnCap 15 0) ++ natLe 1 (s.f aGlbVer 7 0) ++ [0] ++ natLe 4 (s.f aTwnMirLen 15 0))

/-- Sends an ATTREQ to the twin. -/
def State.sendAttreq (s : State) : State :=
  ({ s with twn := { s.twn with attreq := some s.tb } }).tctl s.twin 1 0 0 s.attachBody

/-- An attempt to attach is over, and with it the ATTACH that software set (R553, R585; DESIGN CHOICE, log 108). -/
def State.attachOver (s : State) : State :=
  { s.setF aTwnCtrl 14 14 0 with twn := { s.twn with attreq := none } }

/-- The attach is agreed: ATTACHING, snapshots of every context that is not FREE, heartbeats; start-up goes on to READY
(R553, R556, R583). -/
def State.agreed (s : State) (lvl : Nat) : State :=
  let s := s.attachOver
  let s := { s with twn := { s.twn with
    hbCount := 0, hbLeast := 0, hbSeen := [], hbNext := 0, hbSent := s.tb / 10000, hbLast := s.tclk
    peerLvl := lvl } }
  let s := (s.setF aTwnState 2 0 1).setF aTwnState 15 8 0
  let s := s.setF aTwnState 47 32 (min lvl (s.f aTwnCap 15 0))
  let s := s.loadedCtxs.foldl (fun s x => s.snapshot x) s
  if s.twn.discovering.isSome then s.publishReady else s

/-- ATTREQ_RETRY (R553). -/
def execAttreqRetry (s : State) : Out :=
  match s.twn.attreq with
  | some t => if s.twinState == 0 && decide (t + 1000000 ≤ s.tb) then .next s.sendAttreq else .next s
  | none => .next s

/-- Why an ATTREQ is turned down; 0 for no reason (R554). -/
def State.attachRefusal (s : State) (p : Packet) : Nat :=
  if !s.fromTwin p then 1 else if fieldAt p.data 2 1 != s.f aGlbVer 7 0 then 2
  else if pSrc p / 128 != s.chip / 128 then 3 else if s.twinState > 1 then 4 else 0

/-- ATTREQ (R553, R554). -/
def execAttreq (port : Nat) (pkt : Packet) (s : State) : Out :=
  s.receiveCtl port pkt 1 (fun s =>
    let why := s.attachRefusal pkt
    if why != 0 then (s.tctl (pSrc pkt) 8 0 0 (padLine [BitVec.ofNat 8 why])).errBit aTwnErr 4 cTwnAttach
    else
      let s := s.tctl s.twin 2 0 0 s.attachBody
      if s.twinState == 0 then s.agreed (fieldAt pkt.data 0 2) else s)

/-- ATTACK: the answer to an outstanding ATTREQ (R553). -/
def execAttack (port : Nat) (pkt : Packet) (s : State) : Out :=
  s.receiveCtl port pkt 2 (fun s =>
    if s.fromTwin pkt && s.twinState == 0 && s.twn.attreq.isSome then s.agreed (fieldAt pkt.data 0 2) else s)

/-- ATTNAK ends the attempt (R553). -/
def execAttnak (port : Nat) (pkt : Packet) (s : State) : Out :=
  s.receiveCtl port pkt 8 (fun s =>
    if s.fromTwin pkt then s.attachOver else s)

/-! ## Detach (R557) -/

/-- A checkpoint that fails releases its context (R571). -/
def State.ckptFailed (s : State) (x : Nat) : State :=
  (s.setCtx x { s.ctx x with ckpt := none }).errBit aTwnErr 6 cTwnCkpt

/-- Outgoing transfers are abandoned; the checkpoints among them fail (R557, R571, R577). -/
def State.abandonOut (s : State) : State :=
  let cks := s.twn.out.filter (·.ckpt)
  let s := { s with twn := { s.twn with out := [] } }
  cks.foldl (fun s t => s.ckptFailed t.ctx) s

/-- Every completion record that waited for the twin's acknowledgement alone is written (R557, R577). -/
def State.releaseWaits (s : State) : State :=
  let held := s.rgm.steps.filter (fun t => t.phase == .draining && !t.record.isEmpty && t.xid.isSome)
  let s := { s with rgm := { s.rgm with steps := s.rgm.steps.map (fun (t : Step) => { t with xid := none }) } }
  held.foldl (fun s t =>
    match s.stepOf t.desc.ctx t.desc.step with
    | some u => if s.mayComplete u then s.endStep u else s
    | none => s) s

/-- Detaches (R543, R557). -/
def State.detach (s : State) : State :=
  let s := (List.range 16).foldl (fun s i => s.lsStop i 6 true) s
  let s := s.tctl s.twin 3 0 0 []
  let s := s.abandonOut.attachOver
  let s := { s with twn := { s.twn with inc := [] } }
  let s := s.releaseWaits
  ((s.setF aTwnState 2 0 0).setF aTwnState 15 8 0).errBit aTwnErr 3 cTwnUnprot

/-- A field of bytes of HBM goes to 0, poison marks with it. -/
def State.hbmZero (s : State) (a n : Nat) : State :=
  { s with
    hbm := s.hbm.filter (fun c => c.1 < a || a + n ≤ c.1)
    hbmPoison := s.hbmPoison.filter (fun l => l * 128 < a || a + n < l * 128 + 128) }

/-- Every directory entry is cleared, and what the mirror holds with it. -/
def State.clearMirror (s : State) : State :=
  { s.hbmZero (s.f aTwnMirBase 47 0) (64 * 4096) with twn := { s.twn with mirror := [] } }

/-- DETACH from the twin: its mirror is discarded (R557). -/
def execDetach (port : Nat) (pkt : Packet) (s : State) : Out :=
  s.receiveCtl port pkt 3 (fun s => if s.fromTwin pkt && s.twinUp then s.clearMirror.detach else s)

/-- A write of TWN_CTRL (R12, R553, R557, R585). ATTACH is set whatever the state, and starts an attach in UNPROTECTED
(DESIGN CHOICE, log 108). -/
def State.twnCtrl (s : State) (v : Word) : State :=
  let st := s.twinState
  let n := v.toNat
  if bitAt n 16 && !(st == 0 || st == 4) then s.refuse
  else
    let s := s.setReg aTwnCtrl (mergeMask (s.reg aTwnCtrl) v (fm 13 0 + fm 31 24 + fm 47 32))
    let s := if bitAt n 16 then s.clearMirror else s
    let s := if bitAt n 15 && st != 5 then s.detach else s
    let s := s.setF aTwnCtrl 14 14 (bit (s.flag aTwnCtrl 14 || bitAt n 14))
    let s := if bitAt n 14 && s.twinState == 0 then s.sendAttreq else s
    s.done

/-- TWN_ATTACH: a write of TWN_CTRL that sets ATTACH. -/
def execTwnAttach (v : Word) (s : State) : Out := .next (if s.portShut then s.refuse else s.twnCtrl (v ||| 0x4000))

/-- TWN_DETACH: a write of TWN_CTRL that sets DETACH. -/
def execTwnDetach (v : Word) (s : State) : Out := .next (if s.portShut then s.refuse else s.twnCtrl (v ||| 0x8000))

/-- MCLR: a write of TWN_CTRL that sets MCLR and changes no other field. -/
def execMclr (s : State) : Out := .next (if s.portShut then s.refuse else s.twnCtrl ((s.reg aTwnCtrl &&& 0xFFFFFFFFFFFF3FFF) ||| 0x10000))

/-- TWIN_DISCOVERY_EXPIRE: DISC ms have passed without an ATTACK; READY is published anyway (R556). -/
def execTwinDiscoveryExpire (s : State) : Out :=
  match s.twn.discovering with
  | some t => if decide (t + s.f aTwnCtrl 31 24 * 100000 ≤ s.tclk) then .next s.publishReady else .next s
  | none => .next s

/-! ## The mirror (R569, R572, R573) -/

def mirror0 : Mirror := { entry := [], seqs := [], joins := [], table := [], pend := none, units := (0, 0) }

def State.mirrorOf (s : State) (c : Nat) : Mirror := tabGet mirror0 s.twn.mirror c
def State.setMirror (s : State) (c : Nat) (m : Mirror) : State :=
  { s with twn := { s.twn with mirror := tabSet mirror0 s.twn.mirror c m } }

/-- Address of a directory entry (R572). -/
def State.dirAt (s : State) (c : Nat) : Nat := s.f aTwnMirBase 47 0 + 64 * c

/-- A word of a directory entry. -/
def State.dir (s : State) (c ofs : Nat) : Nat := s.hbmNat (s.dirAt c + ofs) 8
def State.setDir (s : State) (c ofs v : Nat) : State := s.hbmWrite (s.dirAt c + ofs) (natLe 8 v)

/-- A field of the first word of a directory entry. -/
def State.setDirF (s : State) (c hi lo v : Nat) : State := s.setDir c 0 (withFld (s.dir c 0) hi lo v)

/-- Flags of a delta (R569). -/
def deltaFlag (d : Bytes) (n : Nat) : Bool := bitAt (fieldAt d 0x16 1) n

/-- A mirror after a delta's edits (R294): leavers go, updates change, and of the joins, oldest first, JOINED take
effect. A snapshot starts from nothing. -/
def Mirror.apply (m : Mirror) (d : Bytes) : Mirror :=
  let c := fieldAt d 4 2
  let n := fieldAt d 6 2
  let m := if deltaFlag d 3 then { m with seqs := [], joins := [] } else m
  let es := (List.range n).filterMap (fun i => parseEdit c (sliceBytes d (0x100 + 32 * i) 32))
  let gone := (es.filter (·.kind == 2)).map (·.seq)
  let upd := es.filter (·.kind == 3)
  let stay := m.seqs.filter (fun e => !gone.contains e.1)
  let seqs := upd.foldl (fun (t : Tab SeqEntry) e => if (tabFind t e.seq).isSome then tabPut t e.seq e.entry else t) stay
  let joins := (m.joins.filter (fun j => !gone.contains j.seq)).map (fun j =>
    (upd.filter (fun e => e.seq == j.seq)).foldl (fun (k : Join) e => { k with entry := e.entry }) j)
  let joins := joins ++ (es.filter (·.kind == 1)).map (fun e => ⟨e.seq, e.entry⟩)
  let k := fieldAt d 0x10 2
  { m with
    entry := sliceBytes d 0x40 64
    seqs := (joins.take k).foldl (fun (t : Tab SeqEntry) j => tabPut t j.seq j.entry) seqs
    joins := joins.drop k
    table := if deltaFlag d 0 then sliceBytes d (0x100 + 32 * n) (fieldAt d 0x18 4) else m.table }

/-- The base state of a context takes a delta; a step's delta moves STEP, CHAIN and PCRC with it (R572, R573). -/
def State.applyBase (s : State) (c : Nat) (d : Bytes) : State :=
  let s := s.setMirror c ((s.mirrorOf c).apply d)
  let w := fieldAt d 0x40 8
  let s := ((s.setDirF c 0 0 1).setDirF c 4 3 (fld w 1 0)).setDirF c 15 8 (fld w 15 8)
  if deltaFlag d 1 then s
  else ((s.setDirF c 63 32 (fieldAt d 0x84 4)).setDir c 8 (fieldAt d 8 8)).setDir c 0x30 (fieldAt d (0x80 + 0x68) 8)

/-- Holds a step's delta as pending (R573). -/
def State.holdDelta (s : State) (c : Nat) (d : Bytes) : State :=
  ((s.setMirror c { s.mirrorOf c with pend := some d }).setDirF c 1 1 1).setDir c 0x10 (fieldAt d 8 8)

/-- A committed delta (R573). -/
def State.commitDelta (s : State) (d : Bytes) : State :=
  let c := fieldAt d 4 2 % 4096
  let m := s.mirrorOf c
  if deltaFlag d 2 then
    ({ s with twn := { s.twn with mirror := tabErase s.twn.mirror c } }).hbmWrite (s.dirAt c) (List.replicate 64 0)
  else
    let s := if bitAt (s.dir c 0) 0 then s else s.hbmWrite (s.dirAt c) (List.replicate 64 0)
    if deltaFlag d 1 || m.units.2 == 0 then s.applyBase c d
    else
      match m.pend with
      | none => s.holdDelta c d
      | some old => ((s.applyBase c old).setDirF c 2 2 0).holdDelta c d

/-- Units of 2 MiB of the mirror in use; unit 0 holds the directory. -/
def State.unitsUsed (s : State) (u n : Nat) : Bool :=
  s.twn.mirror.any (fun e => decide (u < e.2.units.1 + e.2.units.2) && decide (e.2.units.1 < u + n))

/-- The first place of n units that are free (DESIGN CHOICE, log 36). -/
def State.mirrorRoom (s : State) (n : Nat) : Option Nat :=
  (List.range (s.f aTwnMirLen 15 0)).find? (fun u =>
    decide (1 ≤ u) && decide (u + n ≤ s.f aTwnMirLen 15 0) && !s.unitsUsed u n)

/-- A committed checkpoint replaces the one before it; the delta it matches is applied (R573). -/
def State.commitCkpt (s : State) (t : XferIn) (data : Bytes) (u : Nat) : State :=
  let c := t.ctx % 4096
  let a := s.f aTwnMirBase 47 0 + u * 2097152
  let s := s.hbmWrite a data
  let s := s.setMirror c { s.mirrorOf c with units := (u, buffersFor data.length) }
  let step := t.step.toNat
  let s := match (s.mirrorOf c).pend with
    | some d =>
      if fieldAt d 8 8 == step then
        let s := (s.applyBase c d).setDirF c 1 1 0
        s.setMirror c { s.mirrorOf c with pend := none }
      else s
    | none => s
  let s := ((s.setDir c 0x18 step).setDir c 0x20 a).setDir c 0x28 data.length
  s.setDirF c 2 2 (bit (s.dir c 8 == step))

/-! ## Transfers (R567) -/

/-- BEGIN opens a transfer. -/
def execBegin (port : Nat) (pkt : Packet) (s : State) : Out :=
  s.receiveCtl port pkt 4 (fun s =>
    if !(s.fromTwin pkt && s.twinUp) then s
    else
      let t : XferIn := {
        xid := pTag pkt, ckpt := fieldAt pkt.data 0 1 == 1, ctx := fieldAt pkt.data 2 2, step := word (fieldAt pkt.data 16 8)
        len := fieldAt pkt.data 4 4, crc := fieldAt pkt.data 8 4, lines := [], poison := false }
      { s with twn := { s.twn with inc := s.twn.inc.filter (fun u => u.xid != t.xid) ++ [t] } })

/-- TMIR carries lines (R565, R598). -/
def execTmir (port : Nat) (pkt : Packet) (s : State) : Out :=
  s.receive port pkt (· == 0x38) (fun s =>
    if !(s.fromTwin pkt && s.twinUp) then s
    else
      { s with twn := { s.twn with inc := s.twn.inc.map (fun (t : XferIn) =>
          if t.xid == pTag pkt then { t with
            lines := (List.range (pLen pkt)).foldl (fun (m : Tab Bytes) i =>
              tabPut m (pAddr pkt / 128 + i) (sliceBytes pkt.data (128 * i) 128)) t.lines
            poison := t.poison || pPoison pkt } else t) } })

/-- The data of a whole transfer whose length and CRC match; none otherwise. -/
def XferIn.whole (t : XferIn) : Option Bytes :=
  let n := (t.len + 127) / 128
  let data := ((List.range n).flatMap (fun i => tabGet [] t.lines i)).take t.len
  if t.poison || data.length != t.len || t.lines.length != n || crcN data != t.crc then none else some data

/-- END: the transfer is committed and acknowledged, or refused (R567, R573). -/
def execEndDelta (port : Nat) (pkt : Packet) (s : State) : Out :=
  s.receiveCtl port pkt 5 (fun s =>
    match s.twn.inc.find? (fun t => t.xid == pTag pkt) with
    | none => s
    | some t =>
      if !(s.fromTwin pkt && s.twinUp) then s
      else
        let s := { s with twn := { s.twn with inc := s.twn.inc.filter (fun u => u.xid != t.xid) } }
        let nak := fun (why : Nat) => s.tctl s.twin 7 t.xid t.ctx (padLine [BitVec.ofNat 8 why])
        match t.whole with
        | none => nak 1
        | some data =>
          if t.ckpt then
            match s.mirrorRoom (buffersFor data.length) with
            | none => nak 2
            | some u => (s.commitCkpt t data u).tctl s.twin 6 t.xid t.ctx []
          else (s.commitDelta data).tctl s.twin 6 t.xid t.ctx [])

/-- An ATTACHING engine whose snapshots are acknowledged and whose L is fixed becomes PAIRED (R555). -/
def State.pairedEnter (s : State) : State :=
  if s.twinState == 1 && decide (64 ≤ s.twn.hbCount) && !(s.twn.out.any (fun t => !t.ckpt)) then s.setF aTwnState 2 0 2
  else s

/-- The outgoing transfer a reply names. -/
def State.outOf (s : State) (p : Packet) : Option XferOut := s.twn.out.find? (fun t => t.sent && t.xid == pTag p)

/-- A transfer is over. -/
def State.dropOut (s : State) (t : XferOut) : State :=
  { s with twn := { s.twn with out := s.twn.out.filter (fun u => u.xid != t.xid) } }

/-- ACK completes a transfer (R567, R571). -/
def execAck (port : Nat) (pkt : Packet) (s : State) : Out :=
  s.receiveCtl port pkt 6 (fun s =>
    match s.outOf pkt with
    | none => s
    | some t =>
      if !s.fromTwin pkt then s
      else
        let s := s.dropOut t
        let s := if t.ckpt then
            let s := (s.setCtx t.ctx { s.ctx t.ctx with ckpt := none }).bump aTwnCntCkpt
            t.cctr.elim s (fun c => s.countUp c 1)
          else s.bump aTwnCntDelta
        s.pumpTwin.pairedEnter)

/-- NAK: reason 1 resends up to 3 times and then detaches; a checkpoint with reason 2 fails (R567, R571). A delta can
draw reason 2 from no engine that follows R573; it detaches (DESIGN CHOICE, log 37). -/
def execNak (port : Nat) (pkt : Packet) (s : State) : Out :=
  s.receiveCtl port pkt 7 (fun s =>
    match s.outOf pkt with
    | none => s
    | some t =>
      if !s.fromTwin pkt then s
      else
        let s := (s.bump aTwnCntNak).setBit aTwnErr 5
        let why := fieldAt pkt.data 0 1
        if why == 1 && decide (t.resent < 3) then
          let u := { t with resent := t.resent + 1 }
          let s := { s with twn := { s.twn with
            out := s.twn.out.map (fun (v : XferOut) => if v.xid == t.xid then u else v) } }
          s.sendTransfer u
        else if why == 2 && t.ckpt then ((s.dropOut t).ckptFailed t.ctx).pumpTwin
        else s.detach)

/-! ## Heartbeats (R560 to R564) -/

def State.tbLock (s : State) : Bool := s.flag aTwnState 3

/-- HEARTBEAT_SLOT: the slot of the time base begins in this TCLK cycle (R560, R563). -/
def execHeartbeatSlot (s : State) : Out :=
  let n := s.tb / 10000
  if !s.twinUp || s.halted || s.twn.hbSent == n || decide (10 < s.tb % 10000) then .next s
  else
    let tag := bit (!s.tbLock) + 2 * bit (s.twinState == 3) + 4 * bit (s.twinState == 4)
    let s := { s with twn := { s.twn with hbSent := n } }
    .next ((s.sendKept ⟨nalHdr 0 0x3A s.chip s.twin 0 0 0 0 n tag 0, []⟩).bump aTwnCntHbtx)

/-- A heartbeat is accepted: the miss run is 0, and a SUSPECT engine retracts (R562, R575). -/
def State.hbAccept (s : State) : State :=
  let s := s.setF aTwnState 15 8 0
  if s.twinState == 3 then (s.fmSend 0x11 s.twin 0 0 []).setF aTwnState 2 0 2 else s

/-- Sends SUSPECT to the fabric manager, unless a DENY holds it off (R575). -/
def State.sendSuspect (s : State) : State :=
  if s.tclk < s.twn.holdoff then s
  else ({ s with twn := { s.twn with lastSuspect := s.tclk } }).fmSend 0x10 s.twin 0 0 []

/-- The miss run grows by 1; at 5 a PAIRED engine becomes SUSPECT (R562, R564). -/
def State.missOne (s : State) : State :=
  let s := s.satAdd aTwnState 15 8 1
  if s.twinState == 2 && decide (5 ≤ s.f aTwnState 15 8) then
    ((s.setF aTwnState 2 0 3).errBit aTwnErr 0 cTwnSuspect).sendSuspect
  else s

/-- Counts a slot as missed. -/
def State.missSlot (s : State) (n : Nat) : State :=
  (({ s with twn := { s.twn with hbSeen := (2 * n + 1) :: s.twn.hbSeen } }).bump aTwnCntMiss).missOne

/-- The first 64 heartbeats fix L (R561). -/
def State.hbMeasure (s : State) (lat : Int) : State :=
  if s.twn.hbCount ≥ 64 then s
  else
    let least := if s.twn.hbCount == 0 then lat else min s.twn.hbLeast lat
    let k := s.twn.hbCount + 1
    let s := { s with twn := { s.twn with hbCount := k, hbLeast := least } }
    if k == 64 then
      let s := { s with twn := { s.twn with hbNext := s.tb / 10000 + 1 } }
      (s.setReg aTwnHblat (word (least.toNat % 65536))).pairedEnter
    else s

/-- THB (R561 to R563, R575). -/
def execThb (port : Nat) (pkt : Packet) (s : State) : Out :=
  s.receive port pkt (· == 0x3A) (fun s =>
    let n := pAddr pkt
    if !(s.fromTwin pkt && s.twinUp) || s.twn.hbSeen.contains (2 * n) then s
    else
      let lat : Int := (s.tb : Int) - n * 10000
      let fixed := decide (64 ≤ s.twn.hbCount)
      let s := { s with twn := { s.twn with hbSeen := (2 * n) :: s.twn.hbSeen, hbLast := s.tclk } }
      let s := s.hbMeasure lat
      if !s.tbLock || bitAt (pTag pkt) 0 then (s.bump aTwnCntEdge).hbAccept
      else if !fixed then s
      else
        let d := lat - s.f aTwnHblat 15 0
        let far := d.natAbs
        if far ≤ 1000 then (s.bump aTwnCntOntime).hbAccept
        else if far ≤ 2000 then (s.bump aTwnCntEdge).hbAccept
        else
          let s := s.bump aTwnCntOow
          if s.twn.hbSeen.contains (2 * n + 1) then s else s.missSlot n)

/-- The first slot whose window has closed and that is neither accepted nor counted. -/
def State.closedSlot (s : State) : Option Nat :=
  let last := (s.tb - s.f aTwnHblat 15 0 - 2001) / 10000
  if s.tb < s.f aTwnHblat 15 0 + 2001 then none
  else ((List.range (last + 1 - s.twn.hbNext)).map (· + s.twn.hbNext)).find? (fun n =>
    !s.twn.hbSeen.contains (2 * n) && !s.twn.hbSeen.contains (2 * n + 1))

/-- HEARTBEAT_MISS: a window has closed without an accepted heartbeat, or, without lock, 10 µs have passed without one
(R562 to R564). -/
def execHeartbeatMiss (s : State) : Out :=
  if !s.twinUp || s.halted then .next s
  else if !s.tbLock then
    if decide (s.twn.hbLast + 1000 ≤ s.tclk) then
      let s := { s with twn := { s.twn with
        hbLast := s.twn.hbLast + 1000, hbNext := max s.twn.hbNext (s.tb / 10000 + 1) } }
      .next s.missOne
    else .next s
  else if s.twn.hbCount < 64 then .next s
  else
    match s.closedSlot with
    | none => .next s
    | some n => .next (({ s with twn := { s.twn with hbNext := n + 1 } }).missSlot n)

/-! ## Suspicion and takeover (R574 to R579) -/

/-- SUSPECT_RESEND (R575). -/
def execSuspectResend (s : State) : Out :=
  if s.twinState == 3 && decide (s.twn.lastSuspect + 100000 ≤ s.tclk) then .next s.sendSuspect else .next s

/-- CONFIRM (R577). -/
def execConfirm (port : Nat) (pkt : Packet) (s : State) : Out :=
  s.receiveFm port pkt 0x12 (fun s =>
    if !(s.twinState == 2 || s.twinState == 3) then s
    else
      let s := ((s.setF aTwnState 2 0 4).setF aTwnState 29 16 (fld (pAddr pkt) 21 8)).setF aTwnState 30 30 1
      let s := { s with twn := { s.twn with inc := [] } }
      (s.abandonOut.releaseWaits).errBit aTwnErr 2 cTwnTakeover)

/-- DENY (R575). -/
def execDeny (port : Nat) (pkt : Packet) (s : State) : Out :=
  s.receiveFm port pkt 0x13 (fun s =>
    if s.twinState != 3 then s
    else
      let s := (s.setF aTwnState 2 0 2).setF aTwnState 15 8 0
      let s := s.errBit aTwnErr 1 cTwnDeny
      { s with twn := { s.twn with holdoff := s.tclk + s.f aTwnCtrl 47 32 * 100000 } })

/-- Every context is torn down as TEARDOWN does. -/
def State.teardownAll (s : State) : State := s.loadedCtxs.foldl (fun s x => s.faultCtx x 1) s

/-- FENCED (R579). -/
def execFenced (port : Nat) (pkt : Packet) (s : State) : Out :=
  s.receiveFm port pkt 0x14 (fun s => (s.teardownAll.setF aTwnState 2 0 5).errBit aTwnErr 8 cTwnFenced)

/-- ASSUMED: the rack routes a chip ID to its survivor; this engine sends by chip ID as before (R574, R576). -/
def execAssumed (port : Nat) (pkt : Packet) (s : State) : Out := s.receiveFm port pkt 0x16 (fun s => s)

/-! ## Checkpoints (R570, R571) -/

/-- Reserved fields and ranges of a checkpoint descriptor. -/
def ckptDescOk (b : Bytes) : Bool :=
  let w := fieldAt b 0 8
  let n := fieldAt b 0x18 8
  fld w 15 12 == 0 && fld w 63 33 == 0 && fieldAt b 0x10 8 % 128 == 0 && n % 128 == 0 && decide (128 ≤ n) &&
    decide (n ≤ 2 ^ 30)

/-- A write of TWN_CKPT. -/
def State.twnCkpt (s : State) (v : Word) : State :=
  let a := fld v.toNat 47 0
  let b := s.hbmRead a 32
  let w := fieldAt b 0 8
  let x := fld w 11 0
  let step := word (fieldAt b 8 8)
  let src := fieldAt b 0x10 8
  let n := fieldAt b 0x18 8
  if s.tenantShut || a % 32 != 0 || s.hbmPoisoned a 32 || !ckptDescOk b || x != fld v.toNat 59 48 ||
      s.twinState != 2 || (s.ctx x).lastStep != some step || (s.ctx x).ckpt.isSome then s.refuse
  else
    match s.checkLocal x src n permCsrc false with
    | some e => (s.checkRefused e).refuse
    | none =>
      let bad := (List.range (n / 128)).filter (fun i => s.hbmPoisoned (src + 128 * i) 128)
      let data := s.hbmRead src n
      let s := (s.setCtx x { s.ctx x with ckpt := some s.twn.xid }).chargeHbm x n
      (s.queueTransfer true x step data bad (if bitAt w 32 then some (fld w 31 16) else none)).done

/-- TWN_CKPT. -/
def execTwnCkpt (v : Word) (s : State) : Out := .next (s.twnCkpt v)

/-! ## Adoption (R580) -/

/-- The program ID whose newest version has a CRC. -/
def State.progOf (s : State) (crc : Nat) : Option (Nat × Program) :=
  s.rgm.store.findSome? (fun e => (e.2.head?).bind (fun q => if q.crc.toNat == crc then some (e.1, q) else none))

/-- A sequence of the mirror is in use here (log 38). -/
def State.seqClash (s : State) (m : Mirror) : Bool :=
  let used := fun (id : Nat) =>
    s.rgm.seqs.any (fun e => e.1 == id) || s.rgm.pending.any (fun e => e.2.any (fun j => j.seq == id))
  m.seqs.any (fun e => used e.1) || m.joins.any (fun j => used j.seq)

/-- The mirrored placement table goes into a buffer of the context (R419, R580). -/
def State.adoptTable (s : State) (x : Nat) (raw : Bytes) : Option State :=
  if raw.isEmpty then some s else s.takeTable x (.adopt (parseTable raw) raw)

/-- A write of TWN_ADOPT. -/
def State.twnAdopt (s : State) (v : Word) : State :=
  let c := fld v.toNat 11 0
  let x := fld v.toNat 27 16
  let p := fld v.toNat 37 32
  let m := s.mirrorOf c
  let w := s.dir c 0
  if s.tenantShut || s.twinState != 4 || s.hbmPoisoned (s.dirAt c) 64 || !bitAt w 0 || s.ctxState x != 0 ||
      s.seqClash m then s.refuse
  else
    match s.progOf (fld w 63 32) with
    | none => s.refuse
    | some (id, q) =>
      let chain := word (s.dir c 0x30)
      let e := fieldAt m.entry 0 8
      let cfg := withFld (withFld (withFld (s.regN (aCtxCfg x)) 1 0 (fld w 4 3)) 7 2 p) 15 8 id
      let s1 := s.setReg (aCtxCfg x) (word (withFld cfg 47 32 (fld e 47 32)))
      let s1 := s1.setReg (aCtxQuotaA x) (word (fieldAt m.entry 0x10 8))
      let s1 := s1.setReg (aCtxQuotaB x) (word (fieldAt m.entry 0x18 8))
      match (s1.loadCtx x q).bind (fun t => t.adoptTable x m.table) with
      | none => s.refuse
      | some t =>
        let t := { t with rgm := { t.rgm with
          seqs := m.seqs.foldl (fun (k : Tab SeqEntry) (e : Nat × SeqEntry) => tabPut k e.1 { e.2 with ctx := x }) t.rgm.seqs
          pending := tabSet [] t.rgm.pending x (m.joins.map (fun (j : Join) => { j with entry := { j.entry with ctx := x } })) } }
        (t.setCtx x { t.ctx x with chain := chain, assumed := true }).done

/-- TWN_ADOPT. -/
def execTwnAdopt (v : Word) (s : State) : Out := .next (s.twnAdopt v)

/-! ## The time base (R558, R559) -/

/-- The time base loses its lock. -/
def State.tbUnlock (s : State) : State :=
  if s.tbLock then (s.setF aTwnState 3 3 0).errBit aTwnErr 7 cTbUnlock else s

/-- The packets of a TSYNC exchange: one each way, on the lowest port in service (R368, R410; DEDUCED, log 103). -/
def State.tsyncPackets (s : State) : State :=
  match s.portsIn.head? with
  | none => s
  | some n =>
    let p : Packet := ⟨nalHdr 0 0x3D s.chip 0 0 0 0 0 0 0 0, []⟩
    (s.sendOn n p).countRx n p

/-- TSYNC: an exchange of four timestamps: sent by the source (t1), received here (t2), sent here (t3), received by the
source (t4) (R559). The offset is this engine's time less the source's. Without a port in service, or in a fenced engine,
which sends nothing (R579), no exchange completes. -/
def execTsync (t1 t2 t3 t4 : Nat) (s : State) : Out :=
  if s.pwr.inReset || s.portsIn.isEmpty || s.twinState == 5 then .next s else
  let ofs : Int := (((t2 : Int) - t1) - ((t4 : Int) - t3)) / 2
  let s := s.tsyncPackets
  let s := s.setReg aTwnTbofs (word (wrapN 32 ofs))
  let offs := (ofs :: s.twn.offs).take 8
  let first := !s.twn.synced
  let s := { s with twn := { s.twn with offs := offs, lastSync := s.tclk, synced := true } }
  let s := if first then { s with tb := max s.tb ((s.tb : Int) - ofs).toNat, tbPend := 0 } else { s with tbPend := -ofs }
  if 500 < ofs.natAbs then .next s.tbUnlock
  else if offs.length == 8 && offs.all (fun o => o.natAbs ≤ 50) then .next (s.setF aTwnState 3 3 1)
  else .next s

/-- TSYNC_TIMEOUT: no exchange has completed for 100 ms (R559). -/
def execTsyncTimeout (s : State) : Out :=
  if decide (s.twn.lastSync + 10000000 ≤ s.tclk) then .next s.tbUnlock else .next s

/-- One TCLK cycle: 10 ns of the time base, and once every 500 cycles 1 ns of the offset still to slew, which is 200
parts per million (R558, R559). Nothing counts while reset is asserted (R639). -/
def State.tick (s : State) : State :=
  if s.pwr.inReset then s
  else
    let n := s.tclk + 1
    let slew := n % 500 == 0 && s.tbPend != 0
    { s with
      tclk := n
      tb := if !slew then s.tb + 10 else if 0 < s.tbPend then s.tb + 11 else s.tb + 9
      tbPend := if !slew then s.tbPend else if 0 < s.tbPend then s.tbPend - 1 else s.tbPend + 1 }

end Sys2Proof.Machine
end

