-- ==== Sys2Proof/Machine/StartUp.lean ====
section
/-! DEFINITION. Reset, start-up, restart and the power states (R613, R622 to R639, R737). -/

namespace Sys2Proof.Machine

/-! ## Reset (R639) -/

/-- What a reset leaves: everything at its reset value but the queue, what stands outside the engine, the fuses, and
which islands are retired: those stay so until a start with a repair (R75, R601; DEDUCED, log 107). -/
def State.afterReset (s : State) : State :=
  { State.reset with
    pending := s.pending, hbm := s.hbm, hbmPoison := s.hbmPoison, flash := s.flash, freeCtr := s.freeCtr
    cfg := { State.reset.cfg with fuses := s.cfg.fuses }
    mgt := { State.reset.mgt with worn := s.mgt.worn, repairMap := s.mgt.repairMap, wornMap := s.mgt.wornMap } }

/-- RESET_ASSERT. -/
def execResetAssert (s : State) : Out := .next s.afterReset

/-! ## The phases of start-up (R634 to R637) -/

/-- The sequence stops at a phase (R636). -/
def State.bootFail (s : State) (phase cause : Nat) : State :=
  ((s.setF aPwrBoot 3 0 phase).setF aPwrBoot 5 5 1).raise cause

/-- SEC_FUSE shows the fuse values that the always-on island holds (R614, R680). -/
def State.showFuses (s : State) : State :=
  let f := s.cfg.fuses
  s.setReg aSecFuse (word (f.slot 0 + f.slot 1 <<< 2 + f.arb <<< 8))

/-- Phase 1: the fuses are read (R653, R680). -/
def State.boot1 (s : State) : State :=
  let s := { s with pwr := { s.pwr with inReset := false, booting := false } }
  ((s.setF aPwrBoot 3 0 1).setReg aPwrCtrl 0).showFuses

/-- SEQ of a log bank, where its header is valid (R668). -/
def State.logSeq (s : State) (b : Nat) : Option Nat :=
  let h := s.flashRead (logBase b) 12
  if fieldAt h 0 4 == 0x4C474F4C && fieldAt h 8 4 == crcN (h.take 8) then some (fieldAt h 4 4) else none

/-- Entries of a log bank: the places before the first that is all 0xFF (R668). -/
def State.logUsed (s : State) (b : Nat) : Nat :=
  let a := logBase b + 64
  ((List.range 8191).find? (fun i =>
    !s.flash.any (fun c => a + 128 * i ≤ c.1 && c.1 < a + 128 * i + 128))).getD 8191

/-- The active log bank is chosen; where no header is valid, bank 0 is opened (R668; DESIGN CHOICE, log 41). -/
def State.chooseLog (s : State) : State :=
  let pick := match s.logSeq 0, s.logSeq 1 with
    | some a, some b => some (if serialAfter 32 b a then (1, b) else (0, a))
    | some a, none => some (0, a)
    | none, some b => some (1, b)
    | none, none => none
  match pick with
  | some (b, q) => s.setReg aCfgLog (word (b + s.logUsed b <<< 1 + q <<< 32))
  | none => s.openLog 0 0

/-- Shows why a bank was rejected (R678). -/
def State.bankReason (s : State) (b e : Nat) : State := s.setF aCfgStat (15 + 8 * b) (8 + 8 * b) e

/-- The image of a bank is accepted (R649, R673, R680, R745). -/
def State.acceptImage (s : State) (b : Nat) (i : Image) (fallback : Bool) : State :=
  let committed := s.flag aCfgStat 2 && s.f aCfgStat 0 0 == b
  let s := (((s.setF aCfgStat 0 0 b).setF aCfgStat 1 1 (bit fallback)).setF aCfgStat 2 2 (bit committed)).setF
    aCfgStat 63 32 i.seq
  let s := ((s.setF aSecStat 1 0 (1 + 2 * i.slot)).setF aSecStat 5 4 (i.flags % 4)).setF aSecStat 14 8 i.svn
  let s := { s with cfg := { s.cfg with sha := i.digest } }
  s.setF aScaSfu 63 32 (((i.dir.find? (fun d => d.type == 10)).map (·.crc)).getD 0)

/-- Chooses a bank and authenticates it, the other one where the first fails (R648, R649). -/
def State.bootImage (s : State) : Option Image × State :=
  let s := (s.bankReason 0 0).bankReason 1 0
  match s.firstBank with
  | none => (none, (s.bankReason 0 0x20).bankReason 1 0x20)
  | some b =>
    let e := s.bankErr b
    let o := 1 - b
    let eo := if e == 0 && hdrValid (s.bankHdr o) then 0 else s.bankErr o
    let s := (s.bankReason b e).bankReason o eo
    if e == 0 then (some (s.bankImage b), s.acceptImage b (s.bankImage b) false)
    else if eo == 0 then (some (s.bankImage o), s.acceptImage o (s.bankImage o) true)
    else (none, s)

/-- Islands at start: those the image names take their state, and a lane it names is not placed; those the engine has
retired stay so unless the image carries a repair that is not the one they were retired with (R75, R179, R601, R760). -/
def State.bootIslands (s : State) (i : Image) : State :=
  let named := ((i.section? 2).map islandEntries).getD []
  let s := (List.range 128).foldl (fun s n =>
    s.setLane n { lane0 with placed := !named.any (fun e => e.1 == n) }) s
  let s := named.foldl (fun s e => s.setIsl e.1 e.2) s
  let worn := s.mgt.worn.filter (fun k => !(islGroup k && i.repairs (k - 128) &&
    tabFind s.mgt.wornMap k != some (quarterByte i.spareMap (k - 128))))
  let s := { s with mgt := { s.mgt with
    worn := worn, repairMap := i.spareMap, wornMap := s.mgt.wornMap.filter (fun e => worn.contains e.1) } }
  worn.foldl (fun s k => s.setIsl k 2) s

/-- A region starts at a multiple of 2 MiB (R314). -/
def region (a : Nat) : Nat := a / 2097152 * 2097152

/-- Every value the image supplies goes into its register or its place (R331, R633, R652, R737). -/
def State.putImage (s : State) (i : Image) (resume : Bool) : State :=
  let s := [1, 3, 4, 5, 6, 7, 9, 11].foldl (fun s t => s.putSection i t) s
  let x := fun (t a : Nat) => (i.extra t a).getD 0
  let s := { s with
    pwr := { s.pwr with leak := (List.range 11).map (fun k => x 1 (0x1000000 + 8 * k)) }
    stack := { s.stack with
      frame := x 3 0x1000100, carousel := (region (x 3 0x1000108), x 3 0x1000110)
      staging := (region (x 3 0x1000108) + x 3 0x1000110, x 3 0x1000130), programs := (region (x 3 0x1000118), 16777216)
      metadata := (region (x 3 0x1000138), 16 * (List.range 6).foldl (fun n c => n + s.poolCount c) 0)
      repairs := if resume then s.stack.repairs
        else i.rowRepairs.foldl (fun (t : Tab Nat) (r : Nat × Nat × Nat) => tabPut t (r.1 * 512 + r.2.1) r.2.2) [] } }
  let s := s.setF aStkCtrl 8 8 (x 3 0x1000128 % 2)
  s.bootIslands i

/-- Phase 2: the image is chosen, authenticated, compared and loaded. -/
def State.boot2 (s : State) (resume : Bool) : Option Image × State :=
  let s := (s.setF aPwrBoot 3 0 2).chooseLog
  match s.bootImage with
  | (none, s) => (none, s.bootFail 2 cCfgAuth)
  | (some i, s) => if i.sfuOk then (some i, s.putImage i resume) else (none, s.bootFail 2 cCfgSfu)

/-- Interface lanes that fail training, at the limits that SCREEN of the STACK section selects (R330, R726). -/
def lanesBad (screen : Bool) (margins : List (Nat × Nat × Nat)) : List Nat :=
  ((margins.filter (fun m => decide (m.1 < 65536) &&
    (decide (m.2.1 < if screen then 35 else 25) || decide (m.2.2 < if screen then 45 else 30)))).map (·.1)).eraseDups

/-- Phase 4: each failing lane takes a spare of its group of 1,024; none where a group has more than 32 (R330). -/
def State.boot4 (s : State) (i : Image) (margins : List (Nat × Nat × Nat)) : Option State :=
  let bad := lanesBad ((i.extra 3 0x1000140).getD 0 % 2 == 1) margins
  let group := fun l => bad.filter (fun k => k / 1024 == l / 1024)
  if bad.any (fun l => decide (32 < (group l).length)) then none
  else some { s with stack := { s.stack with
    spareLanes := bad.foldl (fun (t : Tab Nat) l => tabPut t l ((group l).idxOf l)) [] } }

/-- Phase 5: failing rows take spare rows; none where a bank has no more (R331, R634). -/
def State.boot5 (s : State) (rows : List (Nat × Nat)) : Option State :=
  rows.foldl (fun (o : Option State) (r : Nat × Nat) =>
    match o with
    | none => none
    | some s =>
      match (List.range 64).find? (fun k => !(s.sparesUsed r.1).contains k) with
      | some k => some { s with stack := { s.stack with repairs := tabPut s.stack.repairs (r.1 * 512 + r.2) k } }
      | none => none) (some s)

/-- Phase 6: hash and path keys, pools, the program store (R317, R376, R634, R637). -/
def State.boot6 (s : State) (i : Image) (resume : Bool) : State :=
  let s := s.setF aPwrBoot 3 0 6
  let seed := word ((i.extra 3 0x1000120).getD 0)
  let rnd := Config.entropy s.freeCtr
  let key := if s.flag aStkCtrl 8 then seed else mix (seed ^^^ rnd)
  let s := { s with
    freeCtr := s.freeCtr + 1
    fab := { s.fab with pkey := mix (seed ^^^ rnd ^^^ 0x50415448#64) }
    stack := { s.stack with hashKey := if resume then s.stack.hashKey else key }
    stk := if resume then s.stk else []
    stkPoison := if resume then s.stkPoison else [] }
  let s := (List.range 6).foldl (fun s c => s.fillPool c) s
  (s.loadAll i.programs).2

/-- Phase 7: a port comes up with the generation its peer offers, or stays out of service (R364, R634). -/
def State.boot7 (s : State) (links : List Nat) : State :=
  (List.range 16).foldl (fun s n =>
    let g := links.getD n 0
    if s.islState (160 + n) != 0 then s
    else if 1 ≤ g && g ≤ 3 then s.linkUpOp n g
    else (s.setIsl (160 + n) 1).raiseAt cFabLinkDown (160 + n)) (s.setF aPwrBoot 3 0 7)

/-- Phases 8 and 9: the attach starts where the image names a twin, and READY waits for it; else READY follows (R551,
R553, R556). -/
def State.boot8 (s : State) (i : Image) : State :=
  let s := s.setF aPwrBoot 3 0 8
  if (i.section? 6).isSome then
    let s := { s with twn := { s.twn with discovering := some s.tclk } }
    let s := s.sendAttreq
    if s.f aTwnCtrl 31 24 == 0 then s.publishReady else s
  else s.publishReady

/-- The sequence from phase 2 on (R634, R637). -/
def State.bootRest (s : State) (env : BootEnv) (resume : Bool) : State :=
  match { s with fab := { s.fab with vacant := env.vacant } }.boot2 resume with
  | (none, s) => s
  | (some i, s) =>
    let s := s.setF aPwrBoot 3 0 3
    if !env.pllLocks then s.bootFail 3 cClkNolock
    else
      let s := s.setF aClkPll 0 0 1
      match (if resume then some s else (s.setF aPwrBoot 3 0 4).boot4 i env.margins) with
      | none => s.bootFail 4 cStkLanes
      | some s =>
        match (if resume then some s else (s.setF aPwrBoot 3 0 5).boot5 env.badRows) with
        | none => s.bootFail 5 cStkTest
        | some s => ((s.boot6 i resume).boot7 env.links).boot8 i

/-- START_UP: after reset is released, after an accepted restart, or on leaving Retain. -/
def execStartUp (env : BootEnv) (s : State) : Out :=
  if s.pwr.inReset || s.pwr.booting then .next (s.boot1.bootRest env false)
  else if s.retains && s.pwr.target == some 3 then
    .next ((({ s with pwr := { s.pwr with target := none } }).setF aPwrBoot 6 6 1).bootRest env true)
  else .next s

/-! ## Restart (R638, R663) -/

/-- PWR_CTRL.RESTART: every numbered island is reset; the time base, what the always-on island holds and retirements
stay. -/
def State.restartOp (s : State) : State :=
  if s.halted || !s.loadedCtxs.isEmpty || s.f aCfgUpdCtrl 9 8 != 0 || s.pwr.booting then s.refuse
  else
    let s := s.failTests
    let keep := s.afterReset
    let t : State := { keep with
      tclk := s.tclk, tb := s.tb, tbPend := s.tbPend
      twn := { keep.twn with synced := s.twn.synced, lastSync := s.twn.lastSync }
      pwr := { keep.pwr with inReset := false, booting := true } }
    let t := (t.setF aPwrState 3 2 (s.f aPwrState 3 2)).setF aPwrCap 7 0 (s.f aPwrCap 7 0)
    let t := (t.setReg aCfgStat (word (s.f aCfgStat 2 0))).setF aPwrBoot 3 0 1
    (t.setF aPwrCtrl 0 0 1).done

/-- RESTART. -/
def execRestart (s : State) : Out := .next (if s.dark then s else s.restartOp)

/-! ## The clock (R613) -/

/-- PLL_UNLOCK. -/
def execPllUnlock (s : State) : Out :=
  if s.flag aClkPll 0 && (s.ready || s.f aPwrBoot 3 0 == 9) then .next ((s.setF aClkPll 0 0 0).raise cClkNolock).halt else .next s

/-! ## Power states (R622 to R626) -/

/-- Every context is FREE and the Trapeze state is UNPROTECTED (R623). -/
def State.mayRetain (s : State) : Bool := s.loadedCtxs.isEmpty && s.twinState == 0

/-- The twin is detached, where there is one (R557). -/
def State.leaveTwin (s : State) : State :=
  if s.twinState == 0 || s.twinState == 5 then s.attachOver else s.detach

/-- Every port stops. -/
def State.stopPorts (s : State) : State :=
  let s := (List.range 16).foldl (fun s n => s.setF (aFabState n) 9 0 0) s
  { s with fab := { s.fab with map := [], remap := false } }.keyFollows.colPortless

/-- Acts on the latest request when no transition is in progress; a start-up and a resume are one (R623, R626). -/
def State.beginMove (s : State) : State :=
  let now := s.f aPwrState 1 0
  let want := s.f aPwrState 3 2
  let go := fun (s : State) => { s with pwr := { s.pwr with target := some want } }
  if now == want || s.pwr.target.isSome || now == 0 || (now == 1 && !s.retains) then s
  else if want == 0 then go (if now == 1 then s else s.teardownAll.leaveTwin.stopPorts)
  else if now == 1 then (if want == 3 then go s else s)
  else if want == 1 then (if s.mayRetain then go s else s.errBit aPwrErr 2 cPwrDeny)
  else go s

/-- POWER_STATE_REQUEST: PS_REQ in bits [1:0] of the operand, PS_CAP in bits [9:2]; a cap of 0 means 190 (R622). -/
def execPowerStateRequest (r : Nat) (s : State) : Out :=
  if s.pwr.inReset then .next s
  else
    let cap := r / 4 % 256
    let same := s.f aPwrState 3 2 == r % 4
    let s := (s.setF aPwrState 3 2 (r % 4)).setF aPwrCap 7 0 (if cap == 0 then 190 else cap)
    .next (if same then s else s.beginMove)

/-- What Retain keeps: the stack, its key and repairs, and the always-on island (R614, R625). -/
def State.retained (s : State) : State :=
  let keep := s.afterReset.showFuses
  { keep with
    tclk := s.tclk, tb := s.tb, tbPend := s.tbPend, stk := s.stk, stkPoison := s.stkPoison
    twn := { keep.twn with synced := s.twn.synced, lastSync := s.twn.lastSync }
    stack := { keep.stack with
      hashKey := s.stack.hashKey, spareLanes := s.stack.spareLanes, repairs := s.stack.repairs, nextRow := s.stack.nextRow }
    pwr := { keep.pwr with inReset := false } }

/-- The state the engine is in once a transition has completed, before PS_ACK shows it. -/
def State.arrive (s : State) (dest : Nat) : State :=
  if dest == 1 then s.failTests.retained
  else if dest == 0 then { s.afterReset with tclk := s.tclk, tb := s.tb }
  else s.event (eventWord 4 0 0 0 0 0) (word dest)

/-- POWER_STATE_REACHED: the transition completes (R622, R623, R626). A move to Run out of Retain is START_UP's. -/
def execPowerStateReached (s : State) : Out :=
  match s.pwr.target with
  | none => .next s
  | some dest =>
    if (dest == 3 && s.f aPwrState 1 0 == 1) || (dest == 2 && s.rgm.steps.any (fun t => t.phase != .queued)) ||
        (dest == 1 && !s.mayRetain) then .next s
    else
      let (req, cap) := (s.f aPwrState 3 2, s.f aPwrCap 7 0)
      let s := ({ s with pwr := { s.pwr with target := none } }).arrive dest
      .next ((((s.setF aPwrState 1 0 dest).setF aPwrState 3 2 req).setF aPwrCap 7 0 cap).beginMove)

/-! ## The power cap (R627, R628) -/

/-- POWER_CAP_WINDOW: a window of 4,096 CCLK cycles ends with an estimate in tenths of a watt (R627, R628, R641). -/
def execPowerCapWindow (est : Nat) (s : State) : Out :=
  if s.dark || s.f aPwrBoot 3 0 < 3 then .next s
  else
    let cap := 10 * s.f aPwrCap 7 0
    let duty := s.f aPwrCap 12 8
    let tooFar := decide (cap < est + 200)
    let nj := tabGet 0 s.pwr.frac 4096 + est * 4096
    let s := (s.setF aPwrCap 31 16 (min est 65535)).addCtr aPwrCntEnergy (nj / 18)
    let s := { s with pwr := { s.pwr with frac := tabSet 0 s.pwr.frac 4096 (nj % 18) } }
    let n := if duty == 1 then s.pwr.capWindows + 1 else 0
    let tell := decide (16 ≤ n) && tooFar && decide (s.pwr.capWindows < 17)
    let held := if tell || (s.pwr.capWindows == 17 && n != 0) then 17 else min n 16
    let s := { s with pwr := { s.pwr with capWindows := held } }
    let s := if tell then s.errBit aPwrErr 1 cPwrCap else s
    .next (s.setF aPwrCap 12 8 (if s.pwr.thermal then 1 else if tooFar then max 1 (duty - 1)
      else if decide (est + 240 < cap) then min 16 (duty + 1) else duty))

end Sys2Proof.Machine
end

