-- ==== Sys2Proof/Machine/Update.lean ====
section
/-! DEFINITION. Update sessions, live application of sections, and read-out of the flash (R660 to R666, R678). -/

namespace Sys2Proof.Machine

/-! ## Sessions (R660, R663) -/

/-- Ends an operation of a session: its outcome in RESULT, and a reason in ERR where it failed (R678). -/
def State.updEnd (s : State) (result err : Nat) : Nat × State :=
  let s := s.setF aCfgUpdCtrl 11 10 result
  (result, if err == 0 then s else s.setF aCfgUpdCtrl 23 16 err)

/-- A session is open. -/
def State.updIsOpen (s : State) : Bool := s.f aCfgUpdCtrl 9 8 != 0

/-- Closes the session (R663). -/
def State.updClose (s : State) : State :=
  let s := (s.setF aCfgUpdCtrl 6 5 0).setF aCfgUpdCtrl 9 8 0
  { s with cfg := { s.cfg with erased := [], pieces := [] } }

/-- Bytes of a sector (R642). -/
def sectorSize : Nat := 65536

/-- OPEN from a port: 1 register port, 2 I3C (R660). -/
def State.updOpen (s : State) (port : Nat) : Nat × State :=
  if s.updIsOpen then s.updEnd 2 0x01
  else
    let s := s.flashErase (bankBase s.inactive) sectorSize
    let s := (s.setF aCfgUpdCtrl 6 5 port).setF aCfgUpdCtrl 9 8 1
    ({ s with cfg := { s.cfg with erased := [0], pieces := [], lastOp := s.tclk } }).updEnd 0 0

/-- An operation of a session from a port: refused where the port has not opened it (R660); else the idle time of R663
starts again. -/
def State.updOp (s : State) (port : Nat) (k : State → Nat × State) : Nat × State :=
  if !s.updIsOpen then s.updEnd 2 0
  else if s.f aCfgUpdCtrl 6 5 != port then s.updEnd 2 0x01
  else k { s with cfg := { s.cfg with lastOp := s.tclk } }

/-- Erases a sector of the inactive bank the first time the session reaches it (R661). -/
def State.updErase (s : State) (ofs : Nat) : State :=
  let k := ofs / sectorSize
  if s.cfg.erased.contains k then s
  else
    let s := s.flashErase (bankBase s.inactive + k * sectorSize) sectorSize
    { s with cfg := { s.cfg with erased := setInsert s.cfg.erased k } }

/-- n fresh free bytes. -/
def State.freeBytes (s : State) (n : Nat) : Bytes := (List.range n).map (fun i => Config.freeByte (s.freeCtr + i))

/-- Programs bytes at an address: bits only go from 1 to 0 (PRESUMED, log 42), and a page that the flash programs
badly holds free bytes. Whether the read-back agrees, and the state. -/
def State.program (s : State) (a : Nat) (bs : Bytes) (good : Bool) : Bool × State :=
  if good then
    let new := List.zipWith (· &&& ·) (s.flashRead a bs.length) bs
    (new == bs, s.flashWrite a new)
  else (false, { s.flashWrite a (s.freeBytes bs.length) with freeCtr := s.freeCtr + bs.length })

/-- Programs pages in order until one does not read back (R661). -/
def State.programPages (s : State) (ofs : Nat) (pages : List Bytes) (bad : Option Nat) : Bool × State :=
  (pages.foldl (fun (r : Nat × Bool × State) page =>
    if !r.2.1 then r
    else
      let at_ := ofs + 256 * r.1
      let s := r.2.2.updErase at_
      let q := s.program (bankBase s.inactive + at_) page (bad != some r.1)
      (r.1 + 1, q.1, q.2)) (0, true, s)).2

/-- WRITE of bytes at a bank offset (R661). -/
def State.updWrite (s : State) (port ofs : Nat) (data : Bytes) (bad : Option Nat) : Nat × State :=
  s.updOp port (fun s =>
    let n := data.length
    if ofs % 256 != 0 || n % 256 != 0 || ofs < 0x1000 || 0x2000000 < ofs + n then s.updEnd 2 0x02
    else
      let r := s.programPages ofs (chunksOf 256 (n / 256) data) bad
      if r.1 then r.2.updEnd 0 0 else r.2.updEnd 3 0x03)

/-- Why a new image may not be committed; 0 where it may (R662). -/
def State.commitErr (s : State) (i : Image) : Nat :=
  if !hdrValid i.hdr then 0x11
  else
    let e := s.imageErr i
    if e != 0 then e
    else if !i.sfuOk then 0x18
    else if !serialAfter 32 i.seq (s.f aCfgStat 63 32) then 0x16 else 0

/-- COMMIT of a header block (R662, R663, R694). `good` is false where the block does not read back. -/
def State.updCommit (s : State) (port : Nat) (hdr : Bytes) (good : Bool) : Nat × State :=
  s.updOp port (fun s =>
    let base := bankBase s.inactive
    let e := s.commitErr { hdr := hdr, body := s.flashRead (base + 0x1000) (hdrLen hdr) }
    if e != 0 then s.updEnd 3 e
    else
      let r := s.program base hdr good
      if !r.1 then r.2.updEnd 3 0x03
      else
        let s := (r.2.setF aCfgStat 2 2 1).bump aCfgCntUpd
        let s := s.event (eventWord 5 0 port 0 0 0) (word (fieldAt hdr 8 4))
        s.updClose.updEnd 0 0)

/-- ABORT (R663). -/
def State.updAbort (s : State) (port : Nat) : Nat × State := s.updOp port (fun s => s.updClose.updEnd 0 0)

/-- The reply of the register port to an operation. -/
def portReply (r : Nat × State) : State := r.2.setReply 0 r.1

/-- UPD_OPEN (R660). -/
def execUpdOpen (s : State) : Out := s.early (fun s => portReply (s.updOpen 1))

/-- OP 2 of CFG_UPD_CTRL: bytes from CFG_UPD_SRC. -/
def State.updWritePort (s : State) (bad : Option Nat) : State :=
  let a := s.f aCfgUpdSrc 47 0
  let n := s.f aCfgUpdOfs 57 32
  if a % 256 != 0 || 0x2000000 < n then portReply (s.updOp 1 (fun s => s.updEnd 2 0x02))
  else portReply (s.updWrite 1 (s.f aCfgUpdOfs 25 0) (s.hbmRead a n) bad)

/-- UPD_WRITE: `badPage` is the first page of the WRITE that the flash programs badly, if any (R661). -/
def execUpdWrite (badPage : Option Nat) (s : State) : Out := s.early (fun s => s.updWritePort badPage)

/-- OP 3 of CFG_UPD_CTRL: the header block stands at CFG_UPD_SRC. -/
def State.updCommitPort (s : State) (good : Bool) : State :=
  portReply (s.updCommit 1 (s.hbmRead (s.f aCfgUpdSrc 47 0) 4096) good)

/-- UPD_COMMIT (R662). -/
def execUpdCommit (good : Bool) (s : State) : Out := s.early (fun s => s.updCommitPort good)

/-- UPD_ABORT (R663). -/
def execUpdAbort (s : State) : Out := s.early (fun s => portReply (s.updAbort 1))

/-- UPDATE_SESSION_TIMEOUT: 10 s without an operation (R663). -/
def execUpdateSessionTimeout (s : State) : Out :=
  .next (if s.updIsOpen && decide (s.cfg.lastOp + 1000000000 ≤ s.tclk) then s.updClose.setF aCfgUpdCtrl 23 16 0x19 else s)

/-- A write of CFG_UPD_CTRL (R678). -/
def State.updCtrl (s : State) (v : Word) : State :=
  match fld v.toNat 2 0 with
  | 0 => s.done
  | 1 => portReply (s.updOpen 1)
  | 2 => s.updWritePort none
  | 3 => s.updCommitPort true
  | 4 => portReply (s.updAbort 1)
  | _ => s.refuse

/-! ## Live sections (R664 to R666) -/

/-- Partitions that have an entry whose value changes; a lane's registers belong to the partition that owns it. -/
def State.changedParts (s : State) (l : List (Nat × Nat)) : List Nat :=
  l.foldl (fun (ps : List Nat) e =>
    let m := sectionMask 7 e.1
    if m == 0 || mergeMask (s.reg e.1) (word e.2) m == s.reg e.1 then ps
    else if e.1 < 0x30000 then setInsert ps ((e.1 - 0x20000) / 1024)
    else (s.laneOwner ((e.1 - 0xC0000) / 1024)).elim ps (setInsert ps)) []

/-- Makes the writes of a PARTITION section in order; none where R491 or R520 refuses one (R664). -/
def State.writeParts (s : State) (l : List (Nat × Nat)) : Option State :=
  l.foldl (fun (o : Option State) e =>
    match o with
    | none => none
    | some s =>
      let m := sectionMask 7 e.1
      if m == 0 then some s
      else if 0x30000 ≤ e.1 then some (s.putEntry 7 e)
      else
        let p := (e.1 - 0x20000) / 1024
        let reg := e.1 % 1024 / 8
        let new := mergeMask (s.reg e.1) (word e.2) m
        if new == s.reg e.1 then some s
        else if s.parBad p reg new then none else some (s.parStore p reg new)) (some s)

/-- The committed image, which the inactive bank holds. -/
def State.committed (s : State) : Image := s.bankImage s.inactive

/-- The end of an apply: RESULT, with GO and BUSY cleared (R678). -/
def State.applyEnd (s : State) (result : Nat) : State :=
  let s := (s.setF aCfgApply 17 16 0).setF aCfgApply 19 18 result
  { s with cfg := { s.cfg with applyFrom := none } }

/-- REPAIR live: spares of quarters whose spare is free, for groups out of service (R74, R666). Rows belong to islands
that never leave service and wait for the restart. -/
def State.applyRepair (s : State) (i : Image) : State :=
  (List.range 4).foldl (fun s q =>
    let m := fld i.spareMap (8 * q + 7) (8 * q)
    if bitAt m 7 && fld m 6 2 / 8 == q && !s.flag aScaSpareMap (8 * q + 7) && s.islState (128 + fld m 6 2) == 1 then
      s.setF aScaSpareMap (8 * q + 7) (8 * q) m
    else s) s

/-- PARTITION: all its writes are made, or none (R664, R665). -/
def State.applyParts (s : State) (i : Image) : State :=
  match s.writeParts (i.values 7) with
  | some s' => s'.applyEnd 0
  | none => s.applyEnd 2

/-- The named sections but PARTITION are applied: PROGRAMS, DEADLINE, REPAIR. Whether none was refused. -/
def State.applyNow (s : State) (i : Image) (mask : Nat) : Bool × State :=
  let r := if bitAt mask 8 then s.loadAll i.programs else (true, s)
  if !r.1 then r
  else
    let s := if bitAt mask 9 then r.2.putSection i 9 else r.2
    (true, if bitAt mask 4 then s.applyRepair i else s)

/-- A write of CFG_APPLY (R13, R664, R665, R678). Without GO, or while an apply has GO set already, it stores MASK alone;
the apply under way keeps the sections it was started with. -/
def State.cfgApplyOp (s : State) (v : Word) : State :=
  let mask := fld v.toNat 15 0
  if s.flag aCfgApply 17 || !bitAt v.toNat 16 then (s.setF aCfgApply 15 0 mask).done
  else if fld mask 3 0 != 0 || fld mask 6 5 != 0 || fld mask 15 10 != 0 || !s.ready || !s.flag aCfgStat 2 ||
      !hdrValid (s.bankHdr s.inactive) then s.refuse
  else
    let i := s.committed
    let s := s.setF aCfgApply 15 0 mask
    let r := s.applyNow i mask
    if !r.1 then (r.2.applyEnd 2).done
    else
      let s := r.2
      let ps := if bitAt mask 7 then s.changedParts (i.values 7) else []
      if !bitAt mask 7 then (s.applyEnd 0).done
      else if ps.isEmpty then (s.applyParts i).done
      else ({ s.setF aCfgApply 19 16 3 with
        cfg := { s.cfg with applyFrom := some (s.tclk, ps), applyMask := mask } }).done

/-- CFG_APPLY. -/
def execCfgApply (v : Word) (s : State) : Out := s.early (fun s => s.cfgApplyOp v)

/-- A partition has a step that is not COMPLETE, or a context in a transitional state (R664). -/
def State.partMoving (s : State) (p : Nat) : Bool :=
  s.rgm.steps.any (fun t => t.part == p) ||
    s.loadedCtxs.any (fun x => s.ctxPart x == p && s.ctxState x != 2 && s.ctxState x != 4)

/-- CFG_APPLY_PARTITION: no partition that changes is busy, so all writes are made or none (R664, R665). -/
def execCfgApplyPartition (s : State) : Out :=
  match s.cfg.applyFrom with
  | none => .next s
  | some (_, ps) =>
    if ps.any s.partMoving then .next s
    else .next (s.applyParts s.committed)

/-- CFG_APPLY_TIMEOUT: the wait lasts more than 1 s (R665). -/
def execCfgApplyTimeout (s : State) : Out :=
  match s.cfg.applyFrom with
  | none => .next s
  | some (t, _) => .next (if t + 100000000 < s.tclk then s.applyEnd 2 else s)

/-! ## Reading the flash (R678) -/

/-- A write of CFG_RD (R678). -/
def State.cfgRdOp (s : State) (v : Word) : State :=
  let n := v.toNat
  let a := fld n 31 0
  let len := fld n 56 32
  let dst := s.f aCfgRdDst 47 0
  if bitAt n 63 && (a % 128 != 0 || len % 128 != 0 || dst % 128 != 0 || 16777216 < len || 134217728 < a + len) then s.refuse
  else
    let s := s.setReg aCfgRd (mergeMask (s.reg aCfgRd) v (fm 31 0 + fm 56 32))
    (if bitAt n 63 then s.hbmWrite dst (s.flashRead a len) else s).done

/-- CFG_RD. -/
def execCfgRd (v : Word) (s : State) : Out := s.early (fun s => s.cfgRdOp v)

end Sys2Proof.Machine
end

