-- ==== Sys2Proof/Machine/Security.lean ====
section
/-! DEFINITION. Nonces, signed commands, the fuses and the debug lock (R653 to R659, R673 to R677, R680). -/

namespace Sys2Proof.Machine

/-! ## Nonces (R654) -/

/-- A new nonce stands in SEC_NONCE0 to SEC_NONCE3; no earlier one is accepted any more (R654). -/
def State.drawNonce (s : State) : State :=
  let s := (List.range 4).foldl (fun s i => s.setReg (aSecNonce i) (Config.entropy (s.freeCtr + i))) s
  { s with freeCtr := s.freeCtr + 4, cfg := { s.cfg with nonceAt := some s.tb } }

/-- A read of SEC_NONCE0. -/
def State.readNonce (s : State) : State := (s.drawNonce).setReply (s.drawNonce.reg (aSecNonce 0)) 0

/-- NONCE_DRAW. -/
def execNonceDraw (s : State) : Out := s.early State.readNonce

/-- The nonce shown, as bytes. -/
def State.nonceBytes (s : State) : Bytes := (List.range 4).flatMap (fun i => natLe 8 (s.regN (aSecNonce i)))

/-! ## Command blocks (R655, R656) -/

def cmdOf (b : Bytes) : Nat := fieldAt b 0 1
def cmdSlot (b : Bytes) : Nat := fieldAt b 1 1
def cmdArg (b : Bytes) : Nat := fieldAt b 2 1
def cmdKey (b : Bytes) : Bytes := sliceBytes b 0x58 97

/-- A block is well formed (R655). -/
def cmdFormed (b : Bytes) : Bool :=
  let c := cmdOf b
  1 ≤ c && c ≤ 4 && cmdSlot b ≤ 1 && fieldAt b 3 5 == 0 && (c == 4 || fieldAt b 0x28 48 == 0) && fieldAt b 0xB9 7 == 0 &&
    fieldAt b 0x120 32 == 0 && (if c == 1 then cmdArg b == 0 else c == 3 || cmdArg b ≤ 1)

/-- The nonce of a block is accepted: the newest drawn, not yet used, within 60 s (R654). -/
def State.nonceOk (s : State) (b : Bytes) : Bool :=
  match s.cfg.nonceAt with
  | some t => decide (s.tb ≤ t + 60000000000) && sliceBytes b 8 32 == s.nonceBytes
  | none => false

/-- The inactive bank holds an image that passes R649 under a slot (R657). -/
def State.otherBoots (s : State) (slot : Nat) : Bool :=
  s.bankErr s.inactive == 0 && (s.bankImage s.inactive).slot == slot

/-- A command's own rule forbids it (R657 to R659). -/
def State.ruleForbids (s : State) (b : Bytes) : Bool :=
  let f := s.cfg.fuses
  let a := cmdArg b
  match cmdOf b with
  | 2 => f.slot a == 0 || f.slot a == 2 ||
      (s.flag aSecStat 0 && s.f aSecStat 1 1 == a && !s.otherBoots (1 - a))
  | 3 => decide (a < f.arb) || decide (s.f aSecStat 14 8 < a)
  | 4 => f.slot a != 0 || cmdSlot b == a
  | _ => false

/-- Why a command is refused, as CMDERR codes it; 0 where it is performed (R656, R676, R680). -/
def State.cmdErr (s : State) (b : Bytes) : Nat :=
  let f := s.cfg.fuses
  let k := cmdSlot b
  if !cmdFormed b then 1
  else if !s.nonceOk b then 2
  else if f.slot k != 1 then 3
  else if !f.owns k (cmdKey b) then 4
  else if !ecdsaOk (cmdKey b) (sliceBytes b 0xC0 96) (sha384 (sliceBytes b 0 0xC0)) then 5
  else if cmdOf b == 1 && s.flag aSecStat 5 then 7
  else if s.ruleForbids b then 6 else 0

/-! ## What the commands do -/

/-- Zeros over the program store, the Carousel extent, every pool extent, and every SRAM that holds queue, slot, context,
sequence or program state (R675). -/
def State.wipe (s : State) : State :=
  let s := (s.stkZero s.stack.programs.1 s.stack.programs.2).stkZero s.stack.carousel.1 s.stack.carousel.2
  let s := (List.range 6).foldl (fun s c => (s.stkZero (s.bufAddr c 0) (s.poolCount c * classSize c)).setF (aPolFree c) 52 0 0) s
  let z := State.reset
  let lanes := s.lanes.map (fun (e : Nat × Lane) => (e.1, { lane0 with placed := e.2.placed }))
  { s with
    regs := s.regs.filter (fun e => !(0x40000 ≤ e.1 && e.1 < 0x80000))
    rgm := z.rgm, car := { z.car with bad := s.car.bad }, lanes := lanes.filter (fun e => e.2 != lane0), sca := z.sca
    shd := z.shd, dlm := z.dlm, pol := z.pol, ring := z.ring, ctxs := [], col := z.col, slices := []
    fab := { s.fab with reqs := [], copies := [], held := [], owns := [] } }

/-- DEBUG_UNLOCK (R675). -/
def State.openLock (s : State) : State :=
  let s := s.teardownAll.leaveTwin
  let s := (s.setF aPwrBoot 4 4 0).attest
  let s := ((s.wipe.setF aSecStat 2 2 0).setF aSecStat 3 3 1).attest
  s.errBit aSecErr 1 cSecDebug

/-- Fuses with the bit of a slot's hash, PROG or revocation blown. -/
def Fuses.revoke (f : Fuses) (k : Nat) : Fuses := if k == 0 then { f with revoked0 := true } else { f with revoked1 := true }
def Fuses.burn (f : Fuses) (k hash : Nat) : Fuses :=
  if k == 0 then { f with hash0 := f.hash0 ||| hash } else { f with hash1 := f.hash1 ||| hash }
def Fuses.setProg (f : Fuses) (k : Nat) : Fuses := if k == 0 then { f with prog0 := true } else { f with prog1 := true }

def State.setFuses (s : State) (f : Fuses) : State := { s with cfg := { s.cfg with fuses := f } }

/-- A fuse command writes a fault entry (R670), under the code of SEC_CMD (DESIGN CHOICE, log 43). -/
def State.fuseDone (s : State) : State := s.noteFault cSecCmd 0 0xFFFF

/-- Performs an accepted command: its outcome and the state. `good` is false where a fuse read-back differs (R659). -/
def State.perform (s : State) (b : Bytes) (good : Bool) : Nat × State :=
  let a := cmdArg b
  let f := s.cfg.fuses
  match cmdOf b with
  | 1 => (0, s.openLock)
  | 2 => (0, (s.setFuses (f.revoke a)).fuseDone)
  | 3 => (0, (s.setFuses { f with arb := a }).fuseDone)
  | _ =>
    if good then (0, (s.setFuses ((f.burn a (beNat (sliceBytes b 0x28 48))).setProg a)).fuseDone)
    else
      let h := beNat (s.freeBytes 48)
      let s := { s with freeCtr := s.freeCtr + 48 }
      (3, (s.setFuses (f.burn a h)).setBit aSecErr 2)

/-- A signed command (R656): refused with its reason, or performed and counted. -/
def State.signed (s : State) (b : Bytes) (good : Bool) : Nat × State :=
  let e := s.cmdErr b
  let own := sliceBytes b 8 32 == s.nonceBytes
  let s := if own then { s with cfg := { s.cfg with nonceAt := none } } else s
  let s := s.setF aSecStat 23 16 e
  if e != 0 then (2, s.errBit aSecErr 0 cSecCmd)
  else
    let r := s.perform b good
    if r.1 == 0 then (0, r.2.bump aSecCntCmd) else r

/-- A write of SEC_CMD; a misaligned address names no well-formed block, and a block read poisoned is malformed (R762;
DEDUCED, log 110). -/
def State.secCmd (s : State) (v : Word) (good : Bool) : State :=
  let a := fld v.toNat 47 0
  portReply (s.signed (if a % 64 == 0 && !s.hbmPoisoned a 320 then s.hbmRead a 320 else []) good)

/-- The row of one CMD: a block that names another command is that command's row. -/
def State.secRow (s : State) (v : Word) (cmd : Nat) (good : Bool) : Out :=
  let c := cmdOf (s.hbmRead (fld v.toNat 47 0) 320)
  if fld v.toNat 47 0 % 64 == 0 && 1 ≤ c && c ≤ 4 && c != cmd then .next s else s.early (fun s => s.secCmd v good)

/-- DEBUG_UNLOCK. -/
def execDebugUnlock (v : Word) (s : State) : Out := s.secRow v 1 true

/-- REVOKE (R657). -/
def execRevoke (v : Word) (s : State) : Out := s.secRow v 2 true

/-- ARB_COMMIT (R658). -/
def execArbCommit (v : Word) (s : State) : Out := s.secRow v 3 true

/-- PROGRAM_SLOT (R659). -/
def execProgramSlot (v : Word) (good : Bool) (s : State) : Out := s.secRow v 4 good

/-- SEC_CTRL.RELOCK: the lock closes; READY stays away until a restart (R677). -/
def State.relockOp (s : State) : State :=
  (if s.flag aSecStat 2 then s else (s.setF aSecStat 2 2 1).attest).done

/-- RELOCK. -/
def execRelock (s : State) : Out := s.early State.relockOp

end Sys2Proof.Machine
end

