-- ==== Sys2Proof/Machine/ReadBack.lean ====
section
/-! DEFINITION. What a register reads as (R11, R12, R683): the stored value, with the RO fields that other state gives laid
over it, and what a read does beside. -/

namespace Sys2Proof.Machine

/-! ## Fields that other state gives -/

/-- MGT_ISL_FLT of the selected island (R608). -/
def State.readIslFlt (s : State) : Nat :=
  let i := s.f aMgtIslSel 8 0
  s.islState i + (min 255 (s.departCount i)) <<< 8 +
    (min 255 (s.recent (tabGet [] s.mgt.ues i) hourNs).length) <<< 16 +
    (min (2 ^ 32 - 1) (s.recent (tabGet [] s.mgt.ces i) hourNs).length) <<< 32

/-- Steps of a partition that are not COMPLETE. -/
def State.partSteps (s : State) (p : Nat) : List Step := s.rgm.steps.filter (fun t => t.part == p)

/-- Pending joins of the contexts of a partition (R312). -/
def State.partJoins (s : State) (p : Nat) : Nat :=
  (s.rgm.pending.filter (fun e => s.ctxPart e.1 == p)).foldl (fun n e => n + e.2.length) 0

/-- LAN_HEAD (R161, R189). EXPERT and CONTEXT read 0 while nothing is a batch of the lane (DESIGN CHOICE, log 90). -/
def State.readHead (s : State) (n : Nat) : Nat :=
  let l := s.lane n
  let h := (s.headOf n).getD (0, 0)
  h.1 + (bit l.dqClosed) <<< 11 + (bit l.go) <<< 12 + h.2 <<< 16 + l.headTok <<< 32

/-- Word k of SCA_PGMAP: word k % 4 of partition k / 4 (R747). -/
def State.readPgmap (s : State) (k : Nat) : Nat :=
  let gs := s.groupsIn (k / 4)
  (List.range 8).foldl (fun w j => w + (gs.getD (8 * (k % 4) + j) 0xFF) <<< (8 * j)) 0

/-- Physical cube groups that are not retired (R101). -/
def State.groupsLeft (s : State) : Nat := ((List.range 32).filter (fun g => s.islState (128 + g) != 2)).length

/-- Quarters whose spare is unused (R101). -/
def State.sparesFree (s : State) : Nat := ((List.range 4).filter (fun q => !s.flag aScaSpareMap (8 * q + 7))).length

/-- Buffers of a frame handle that are HELD (R752). -/
def State.heldOf (s : State) (fh : Nat) : Nat :=
  (List.range 6).foldl (fun n c =>
    n + ((s.pool c).entries.filter (fun e => e.2.framed && e.2.held && e.2.fh == fh)).length) 0

/-- Lays fields over a stored value: (high bit, low bit, value). -/
def overlay (w : Nat) (l : List (Nat × Nat × Nat)) : Nat := l.foldl (fun w e => withFld w e.1 e.2.1 e.2.2) w

/-- Fields of single registers that other state gives. -/
def State.liveSingle (s : State) (a : Nat) : List (Nat × Nat × Nat) :=
  if a == aGlbId then [(30, 20, Config.jedecId), (45, 32, s.f aMsfChip 13 0)]
  else if a == aMgtI3c then [(30, 16, Config.mipiId)]
  else if a == aMgtIslFlt then [(63, 0, s.readIslFlt)]
  else if a == aClkIslStretch then
    let i := s.f aMgtIslSel 8 0
    [(31, 0, tabGet 0 s.mgt.stretches i), (63, 63, bit (s.mgt.stretched.contains i))]
  else if a == aTwnTb then [(63, 0, s.tb)]
  else if a == aScaCap then [(15, 8, 4 * s.groupsLeft), (21, 16, s.groupsLeft), (26, 24, s.sparesFree)]
  else if a == aCarCap then [(23, 20, s.slicesIn.length), (47, 32, s.car.bad.length)]
  else if a == aCarSlotUse then [(15, 0, s.car.slots.length)]
  else if a == aColCap then [(23, 20, s.addersIn.length)]
  else if a == aMsfInflt then [(17, 0, s.linesInFlight), (46, 32, s.fab.copies.length)]
  else if a == aPolFq then
    let fh := s.f aPolFq 11 0
    [(16, 16, bit (s.pol.marks.contains fh)), (52, 32, s.heldOf fh)]
  else []

/-- Fields of register arrays that other state gives. -/
def State.liveArray (s : State) (a : Nat) : List (Nat × Nat × Nat) :=
  if inArray a (aDbStat 0) 0x200 64 then
    let p := (a - aDbStat 0) / 0x200
    [(4, 0, (s.partSteps p).length), (28, 16, s.partJoins p)]
  else if inArray a (aParUse 0) 1024 64 then
    let p := (a - aParUse 0) / 1024
    [(15, 0, (s.car.slots.filter (fun e => e.2.part == p)).length),
     (31, 16, (s.partSteps p).foldl (fun n t => n + t.slotRes) 0)]
  else if inArray a (aCtxCmd 0) 64 4096 then
    let x := (a - aCtxCmd 0) / 64
    [(20, 16, (s.rgm.steps.filter (fun t => t.desc.ctx == x)).length)]
  else if inArray a (aCtxSavelen 0) 64 4096 then [(55, 32, s.saveNeed ((a - aCtxSavelen 0) / 64))]
  else if inArray a (aLanDqStat 0) 1024 128 then
    let l := s.lane ((a - aLanDqStat 0) / 1024)
    [(19, 0, l.pkts), (51, 32, l.occ), (63, 63, bit l.lpress)]
  else if inArray a (aLanRqStat 0) 1024 128 then
    let l := s.lane ((a - aLanRqStat 0) / 1024)
    [(19, 0, l.rqPkts), (51, 32, l.rqOcc)]
  else if inArray a (aLanHead 0) 1024 128 then [(63, 0, s.readHead ((a - aLanHead 0) / 1024))]
  else if inArray a (aScaPgmap 0) 8 256 then [(63, 0, s.readPgmap ((a - aScaPgmap 0) / 8))]
  else []

/-- The value a register reads as. -/
def State.value (s : State) (a : Nat) : Word :=
  word (overlay (overlay (s.regN a) (s.liveSingle a)) (s.liveArray a))

/-! ## A read (R10, R11, R635, R654, R698) -/

/-- The blocks that answer before READY: GLB, ATN, CLK, PWR, CFG, SEC and MGT (R635). -/
def earlyBlock (a : Nat) : Bool := a < 0x007000

/-- A read of the register port, its reply in the state; an access the port does not accept is refused. -/
def State.readReg (s : State) (addr : Nat) : State :=
  let a := aliasTarget addr
  if addr % 8 != 0 || 0x1000000 ≤ addr then s.refuse
  else if (regRow a).isNone then s.setReply 0 0
  else if s.portShut && !earlyBlock a then s.refuse
  else if a == aAtnEseq then s.eseqRead
  else if a == aSecNonce 0 then s.readNonce
  else s.setReply (s.value a) 0

end Sys2Proof.Machine
end

