-- ==== Sys2Proof/Machine/Management.lean ====
section
/-! DEFINITION. Acknowledgement, island commands and the I3C target (R607, R689, R698 to R705). -/

namespace Sys2Proof.Machine

/-! ## Attention on the register port (R689, R698) -/

/-- ATN_ACK. -/
def execAtnAck (v : Word) (s : State) : Out := s.early (fun s => s.ackTo (fld v.toNat 15 0) 1)

/-- ATN_ESEQ_READ. -/
def execAtnEseqRead (s : State) : Out := s.early State.eseqRead

/-- A write of MGT_ISL_SEL (R607). -/
def State.islSel (s : State) (v : Word) : State :=
  let i := fld v.toNat 8 0
  match fld v.toNat 13 12 with
  | 1 => s.islTestReturn i
  | 2 => s.islTakeOut i
  | _ => (s.setF aMgtIslSel 8 0 i).done

/-! ## Addresses (R700, R701) -/

/-- The target holds a dynamic address. -/
def State.hasDa (s : State) : Bool := s.flag aMgtI3c 15

/-- Holds a dynamic address of 7 bits, or withdraws from the assignment (R701). -/
def State.assign (s : State) (addr : Nat) (held : Bool) : State :=
  if held then (s.setF aMgtI3c 14 8 addr).setF aMgtI3c 15 15 1 else s.bump aMgtCntDaaWd

/-- ENTDAA: a target that holds no dynamic address takes part (R701). -/
def execEntdaa (addr : Nat) (held : Bool) (s : State) : Out :=
  s.early (fun s => if s.hasDa then s else s.assign addr held)

/-- SETDASA: sent to the static address, at which a target with a dynamic address no longer answers (R701). -/
def execSetdasa (addr : Nat) (held : Bool) (s : State) : Out :=
  s.early (fun s => if s.hasDa then s else s.assign addr held)

/-- SETNEWDA replaces the dynamic address (R701). -/
def execSetnewda (addr : Nat) (s : State) : Out :=
  s.early (fun s => if s.hasDa then s.setF aMgtI3c 14 8 addr else s)

/-- RSTDAA gives the dynamic address up (R701). -/
def execRstdaa (s : State) : Out := s.early (fun s => s.setF aMgtI3c 15 8 0)

/-- The target drives bytes on the bus. -/
def State.drive (s : State) (bs : Bytes) : State := { s with i3cOut := bs }

/-- The provisioned ID (R700). -/
def State.pid (s : State) : Nat := (Config.mipiId % 2 ^ 15) <<< 33 + 0x5331 <<< 16 + s.f aMsfChip 13 0

/-- GETPID: the 48-bit ID, most significant byte first (the byte order of MIPI I3C; PRESUMED, log 44). -/
def execGetpid (s : State) : Out := s.early (fun s => s.drive (natBe 6 s.pid))

/-- GETBCR (R699). -/
def execGetbcr (s : State) : Out := s.early (fun s => s.drive [0])

/-- GETDCR (R699). -/
def execGetdcr (s : State) : Out := s.early (fun s => s.drive [0])

/-- GETSTATUS: no pending interrupt and no protocol error (PRESUMED, log 44). -/
def execGetstatus (s : State) : Out := s.early (fun s => s.drive [0, 0])

/-- GETMRL: 4,104 bytes (R699), most significant byte first. -/
def execGetmrl (s : State) : Out := s.early (fun s => s.drive (natBe 2 4104))

/-- GETMWL: 4,104 bytes (R699), most significant byte first. -/
def execGetmwl (s : State) : Out := s.early (fun s => s.drive (natBe 2 4104))

/-! ## Private commands (R702) -/

/-- A private write's command: its outcome and reply data wait for the read; one that is performed is counted. -/
def State.i3cEnd (s : State) (outcome : Nat) (data : Bytes) : State :=
  let s := { s with i3cReply := some (outcome, data) }
  if outcome == 2 then s else s.bump aMgtCntI3c

/-- Runs an access of the register port for the I3C target, leaving the port's own reply alone: state, data, outcome. -/
def State.viaPort (s : State) (k : State → State) : State × Word × Nat :=
  let t := k s
  ({ t with reply := s.reply }, t.reply.1, t.reply.2.toNat % 4)

/-- RDREG (R702). -/
def execRdreg (addr : Nat) (s : State) : Out :=
  s.early (fun s =>
    let r := s.viaPort (fun s => s.readReg addr)
    r.1.i3cEnd r.2.2 (natLe 8 r.2.1.toNat))

/-- WRREG: ATN_ACK and MGT_ISL_SEL only (R702). -/
def execWrreg (addr : Nat) (v : Word) (s : State) : Out :=
  s.early (fun s =>
    let a := aliasTarget addr
    if a == aAtnAck then
      let r := s.viaPort (fun s => s.ackTo (fld v.toNat 15 0) 2)
      r.1.i3cEnd r.2.2 []
    else if a == aMgtIslSel then
      let r := s.viaPort (fun s => s.islSel v)
      r.1.i3cEnd r.2.2 []
    else s.i3cEnd 2 [])

/-- TELEM: the telemetry block (R703). -/
def execTelem (s : State) : Out :=
  s.early (fun s => s.i3cEnd 0
    ([aPwrTemp, aStkTemp, aPwrCap, aPwrBoot, aTwnState, aAtnCause].flatMap (fun a => natLe 8 (s.value a).toNat)))

/-- LOGRD: bytes of the log banks (R702). -/
def execLogrd (addr len : Nat) (s : State) : Out :=
  s.early (fun s =>
    if addr < 0x4000000 || 0x4200000 < addr + len || len == 0 || 4096 < len then s.i3cEnd 2 []
    else s.i3cEnd 0 (s.flashRead addr len))

/-- An update operation of the I3C target. -/
def State.i3cUpd (r : Nat × State) : State := r.2.i3cEnd r.1 []

/-- I3C_UPD_OPEN (R660). -/
def execI3cUpdOpen (s : State) : Out := s.early (fun s => State.i3cUpd (s.updOpen 2))

/-- I3C_UPD_WRITE: one page (R661, R702). -/
def execI3cUpdWrite (ofs : Nat) (page : Bytes) (good : Bool) (s : State) : Out :=
  s.early (fun s =>
    if page.length != 256 then s.i3cEnd 2 []
    else State.i3cUpd (s.updWrite 2 ofs page (if good then none else some 0)))

/-- UPD_HDR: a piece of the header block (R702). -/
def execUpdHdr (piece : Nat) (data : Bytes) (s : State) : Out :=
  s.early (fun s =>
    if 16 ≤ piece || data.length != 256 then s.i3cEnd 2 []
    else State.i3cUpd (s.updOp 2 (fun s =>
      (0, { s with cfg := { s.cfg with pieces := tabPut s.cfg.pieces piece data } }))))

/-- I3C_UPD_COMMIT: the header block of the 16 pieces, refused while one is missing (R662, R702). -/
def execI3cUpdCommit (good : Bool) (s : State) : Out :=
  s.early (fun s =>
    if s.cfg.pieces.length != 16 then State.i3cUpd (s.updOp 2 (fun s => s.updEnd 2 0))
    else State.i3cUpd (s.updCommit 2 (s.cfg.pieces.flatMap (·.2)) good))

/-- I3C_UPD_ABORT. -/
def execI3cUpdAbort (s : State) : Out := s.early (fun s => State.i3cUpd (s.updAbort 2))

/-- I3C_READ_REPLY: STAT, length and data of the pending command; length 0 where none is pending (R702). -/
def execI3cReadReply (s : State) : Out :=
  s.early (fun s =>
    let r := s.i3cReply.getD (0, [])
    { s.drive (natLe 1 (r.1 + 4 * s.f aAtnCause 35 34) ++ natLe 2 r.2.length ++ r.2) with i3cReply := none })

end Sys2Proof.Machine
end

