-- ==== Sys2Proof/Machine/PoolPort.lean ====
section
/-! DEFINITION. The pool manager's register commands and its partial writes (R328, R349, R351, R359). -/

namespace Sys2Proof.Machine

/-- Granules of a buffer's free-list header and of its state entry: what a pool operation writes in part (R328). -/
def State.poolGranules (s : State) (c i : Nat) (header : Bool) : List Nat :=
  let e := s.entryAddr c i
  (if header then [s.bufAddr c i / 32] else []) ++
    (if e + 16 ≤ s.stack.metadata.1 + s.stack.metadata.2 then [e / 32] else [])

/-- POL_OP with OP 1 (R328, R359): `reads` is what the reads of the popped buffer's header and of its state entry find. -/
def execPolOpAlloc (v : Word) (reads : EccReads) (s : State) : Out :=
  if s.unitShut then .next s.refuse
  else
    let s := s.polOpFields v
    let c := s.f aPolOp 14 12
    let x := s.f aPolOp 11 0
    if c ≥ 6 then .next s.refuse
    else
      let g := (s.pool c).head.elim 0 (fun i => s.bufAddr c i / 32)
      let s := if (s.pool c).head.isSome then s.readError g (findingOf reads g) else s
      match s.allocN c 1 (chargeOf x (s.ctxPart x)) 1 with
      | (some [h], s') =>
        let r := s'.rmwErrors (s'.poolGranules c (handleIndex h) false) reads
        .next ((r.2.setReg aPolOpHandle (word h)).setReply 0 r.1)
      | (_, s') => .next s'.refuse

/-- POL_OP with OP 2 (R328, R349, R359). -/
def execPolOpFree (v : Word) (reads : EccReads) (s : State) : Out :=
  if s.unitShut then .next s.refuse
  else
    let s := s.polOpFields v
    let h := s.regN aPolOpHandle
    let x := s.f aPolOp 11 0
    if s.badFree h x false then
      let r := s.freeBuf h x false
      .next (r.2.setReply 0 r.1)
    else
      let c := handleClass h
      let i := handleIndex h
      let e := s.entry c i
      let back := !e.quar && (!e.framed || (e.use == 1 && !s.pol.marks.contains e.fh))
      let w := s.rmwErrors (s.poolGranules c i back) reads
      let r := w.2.freeBuf h x false
      .next (r.2.setReply 0 (max w.1 r.1))

/-- POL_OP with OP 3 (R351, R359). -/
def execPolOpQrel (v : Word) (clean : Bool) (s : State) : Out :=
  if s.unitShut then .next s.refuse
  else
    let s := s.polOpFields v
    let r := s.qrel (s.regN aPolOpHandle) clean
    .next (r.2.setReply 0 r.1)

end Sys2Proof.Machine
end

