-- ==== Sys2Proof/Machine/RegisterPort.lean ====
section
/-! DEFINITION. A write of the register port (R10 to R14, R635, R736 to R738, R755): what is refused, the registers whose
write is an operation of its own, and the plain ones. -/

namespace Sys2Proof.Machine

/-! ## What a register does not take -/

/-- Every context is FREE (R671). -/
def State.allFree (s : State) : Bool := s.loadedCtxs.isEmpty

/-- A register of context x, at an offset below 0x40, that is not written while x is parking, parked or coming back
(R500). -/
def State.saveFixed (s : State) (a : Nat) : Bool :=
  let x := (a - aCtxCfg 0) / 64
  (inArray a (aCtxSave 0) 64 4096 || inArray a (aCtxSavelen 0) 64 4096) && [3, 4, 5].contains (s.ctxState x)

/-- Values of the blocks below RGM that are refused (R609, R640, R721). -/
def State.lowBad (s : State) (a n : Nat) : Bool :=
  if a == aClkDroop then decide (fld n 7 0 < 80) || decide (98 < fld n 7 0) || decide (fld n 15 8 < 8)
  else if a == aMgtRetire then fld n 19 16 == 0 || fld n 31 24 == 0
  else if inArray a (aGlbHmreg 0) 8 8 then fld n 7 0 == 0 || fld n 31 16 == 0 || decide (128 < fld n 7 0)
  else if a == aGlbHmil then
    decide (fld n 4 0 < 7) || decide (16 < fld n 4 0) || s.rgm.steps.any (fun t => t.phase == .running)
  else false

/-- Values of the other blocks that are refused (R223, R262, R267, R360, R406, R408, R411, R412, R500, R585, R671). -/
def State.highBad (s : State) (a n : Nat) : Bool :=
  if a == aCarStall then decide (fld n 15 0 < 10)
  else if a == aShdCfg then decide (fld n 12 0 < 8) || decide (4096 < fld n 12 0)
  else if inArray a (aDlmThr 0) 8 64 then
    decide (fld n 15 0 < fld n 31 16) || decide (fld n 31 16 < fld n 47 32) || decide (fld n 47 32 < fld n 63 48)
  else if inArray a (aPolThr 0) 64 6 then decide (fld n 20 0 < fld n 41 21) || decide (fld n 41 21 < fld n 62 42)
  else if inArray a (aFabVcw 0) 4096 16 then fld n 23 16 == 0 || fld n 39 32 == 0
  else if a == aMsfCtrl then
    decide (fld n 6 0 < 2) || decide (64 < fld n 6 0) || (!bitAt n 7 && decide (1024 < s.f aMsfCtrl 46 32))
  else if a == aMsfWinBase || a == aMsfOwnBase then !s.allFree
  else if a == aMsfOwnCount then !s.allFree || decide (1048576 < fld n 20 0)
  else if a == aTwnMirBase then s.twinState != 0
  else if a == aTwnMirLen then s.twinState != 0 || decide (fld n 15 0 < 2)
  else s.saveFixed a

/-! ## Plain registers (R12 to R14) -/

/-- What a write leaves besides the register: a pool's state follows its thresholds (R343), a cleared nomination makes
way for the next row (R603), the twin hears of a context's new quotas or placement (R569), and a table that software
installs empties the ownership cache (R396, R398; DESIGN CHOICE, log 105). -/
def State.afterWrite (s : State) (a : Nat) : State :=
  if inArray a (aPolThr 0) 64 6 || inArray a (aPolHyst 0) 64 6 then
    (if s.ready then s.polSettle ((a - aPolExt 0) / 64) else s)
  else if a == aMgtRownom then s.nominate
  else if inArray a (aCtxQuotaA 0) 64 4096 || inArray a (aCtxQuotaB 0) 64 4096 || inArray a (aCtxPlace 0) 64 4096 then
    s.ctxDelta ((a - aCtxCfg 0) / 64)
  else if a == aMsfOwnBase || a == aMsfOwnCount then { s with fab := { s.fab with ownCache := [] } }
  else s

/-- A write of a register whose fields are stored or cleared: RW fields take the value, a 1 clears a W1C bit. -/
def State.plainWrite (s : State) (r : RegRow) (a : Nat) (v : Word) : State :=
  let old := s.reg a
  let new := mergeMask old v r.rw &&& ~~~(v &&& word r.w1c)
  if s.lowBad a new.toNat || s.highBad a new.toNat then s.refuse
  else if new == old then s.done
  else ((s.setReg a new).afterWrite a).done

/-! ## Registers with an operation -/

/-- A write of LAN_CTRL: the requests that are set, in the order of their bits (R184). -/
def State.lanCtrl (s : State) (n : Nat) (v : Word) : State :=
  let s := if bitAt v.toNat 8 then s.laneOos n else s.done
  let s := if bitAt v.toNat 9 then s.laneRts n else s
  if bitAt v.toNat 10 then s.laneAbort n else s

/-- A write of FAB_STATE: the requests that are set, in the order of their bits (R407). -/
def State.fabState (s : State) (n : Nat) (v : Word) : Out :=
  if bitAt v.toNat 9 then
    (if bitAt v.toNat 8 && s.islState (160 + n) != 2 then execPortRtsReq n (s.portOut n) else execPortRtsReq n s)
  else if bitAt v.toNat 8 then execPortOosReq n s
  else .next s.done

/-- A write of CTX_CMD (R494): CMD 0 does nothing, 6 and 7 name no command. -/
def State.ctxCmd (s : State) (x : Nat) (v : Word) : Out :=
  match fld v.toNat 6 4 with
  | 0 => .next s.done
  | 1 => execCtxLoad x s
  | 2 => execCtxPark x s
  | 3 => execCtxUnpark x s
  | 4 => execCtxUnload x s
  | 5 => execCtxTeardown x s
  | _ => .next s.refuse

/-- A write of POL_OP (R359). -/
def State.polOp (s : State) (v : Word) : Out :=
  match fld v.toNat 17 16 with
  | 0 => .next (s.polOpFields v).done
  | 1 => execPolOpAlloc v [] s
  | 2 => execPolOpFree v [] s
  | _ => execPolOpQrel v true s

/-- A write of COL_GRP (R487): OP 0 does nothing, 3 names no operation. -/
def State.colGrp (s : State) (v : Word) : Out :=
  match fld v.toNat 61 60 with
  | 0 => .next s.done
  | 1 => execColGrpCreate v s
  | 2 => execColGrpDelete v s
  | _ => .next s.refuse

/-- Registers of the blocks that answer before READY whose write is an operation. -/
def State.earlyWrite (s : State) (a : Nat) (v : Word) : Option Out :=
  if a == aAtnAck then some (.next (s.ackTo (fld v.toNat 15 0) 1))
  else if a == aPwrCtrl then some (.next (if bitAt v.toNat 0 then s.restartOp else s.done))
  else if a == aCfgUpdCtrl then some (.next (s.updCtrl v))
  else if a == aCfgApply then some (.next (s.cfgApplyOp v))
  else if a == aCfgRd then some (.next (s.cfgRdOp v))
  else if a == aSecCmd then some (.next (s.secCmd v true))
  else if a == aSecCtrl then some (.next (if bitAt v.toNat 0 then s.relockOp else s.done))
  else if a == aMgtIslSel then some (.next (s.islSel v))
  else none

/-- Registers of the Ringmaster, of partitions, contexts and lanes whose write is an operation. -/
def State.arrayWrite (s : State) (a : Nat) (v : Word) (viaAlias : Bool) : Option Out :=
  if viaAlias then some (execDb1Ring ((a - aDb1Ring 0) / 256) v true s)
  else if inArray a (aDbRing 0) 512 64 then some (execDbRing ((a - aDbRing 0) / 512) v s)
  else if inArray a (aDbAbort 0) 512 64 then some (execDbAbort ((a - aDbAbort 0) / 512) v s)
  else if inArray a (aDb1Ring 0) 256 64 then some (execDb1Ring ((a - aDb1Ring 0) / 256) v false s)
  else if aParLaneLo 0 ≤ a && a < aParLaneLo 64 then some (.next (s.parReg ((a - aParLaneLo 0) / 1024) (a % 1024 / 8) v))
  else if inArray a (aCtxCfg 0) 64 4096 then some (.next (s.ctxCfg ((a - aCtxCfg 0) / 64) v))
  else if inArray a (aCtxCmd 0) 64 4096 then some (s.ctxCmd ((a - aCtxCmd 0) / 64) v)
  else if inArray a (aLanCtrl 0) 1024 128 then some (.next (s.lanCtrl ((a - aLanCtrl 0) / 1024) v))
  else if inArray a (aLanCt 0) 1024 128 then some (.next (s.lanCt ((a - aLanCt 0) / 1024) v))
  else if inArray a (aLanDqWm 0) 1024 128 then some (.next (s.lanWm ((a - aLanDqWm 0) / 1024) false v))
  else if inArray a (aLanRqWm 0) 1024 128 then some (.next (s.lanWm ((a - aLanRqWm 0) / 1024) true v))
  else if inArray a (aLanBack 0) 1024 128 then some (.next (s.lanBack ((a - aLanBack 0) / 1024) v))
  else if inArray a (aFabState 0) 4096 16 then some (s.fabState ((a - aFabState 0) / 4096) v)
  else if inArray a (aWayLsCfg 0) 32 16 then some (.next (s.lsCfg ((a - aWayLsCfg 0) / 32) v))
  else none

/-- Other registers whose write is an operation. -/
def State.unitWrite (s : State) (a : Nat) (v : Word) : Option Out :=
  if a == aRgmPloadCtrl then some (.next (s.pload v))
  else if a == aCarSlotUse then some (.next (if bitAt v.toNat 63 then s.peakReset else s.done))
  else if a == aPolOp then some (s.polOp v)
  else if a == aMsfCpy then some (execMsfCpy v s)
  else if a == aColGrp then some (s.colGrp v)
  else if a == aColSubmit then some (execColSubmit v s)
  else if a == aTwnCtrl then some (.next (s.twnCtrl v))
  else if a == aTwnCkpt then some (.next (s.twnCkpt v))
  else if a == aTwnAdopt then some (.next (s.twnAdopt v))
  else if a == aWayRing then some (.next (s.wayRing v))
  else if a == aWayRptr then some (.next (s.wayRptr v))
  else none

/-! ## The write -/

/-- A write that the port refuses before the register's own rules: an access it does not accept (R10), a block that does
not answer yet (R635), a value the image has still to supply (R737), or a section under apply (R738). -/
def State.portRefuses (s : State) (addr size a : Nat) : Bool :=
  size != 8 || addr % 8 != 0 || decide (0x1000000 ≤ addr) || (s.portShut && !earlyBlock a) ||
    (imageSupplies a && decide (s.f aPwrBoot 3 0 < 3)) || s.applyHolds a

/-- A write of the register at an address after the port has accepted it; one that occupies no address (R11) or holds
only RO fields (R13) is refused. -/
def State.writeReg (s : State) (a : Nat) (v : Word) (viaAlias : Bool) : Out :=
  match regRow a with
  | none => .next s.refuse
  | some r =>
    if r.rw + r.w1c + r.act == 0 then .next s.refuse
    else
      match s.earlyWrite a v with
      | some o => o
      | none =>
        match s.arrayWrite a v viaAlias with
        | some o => o
        | none => (s.unitWrite a v).getD (.next (s.plainWrite r a v))

/-- REGISTER_WRITE: a write through the register port (R10 to R16, R698, R735 to R738, R756). -/
def execRegisterWrite (addr size : Nat) (v : Word) (s : State) : Out :=
  let a := aliasTarget addr
  if s.dark then .next s
  else if s.portRefuses addr size a then .next s.refuse
  else s.writeReg a v (decide (0xF00100 ≤ addr) && decide (addr < 0xF00300))

/-- ARRIVAL_COUNTER_WRITE: a write of an arrival counter (R392, R753, R754). -/
def execArrivalCounterWrite (c : Nat) (v : Word) (s : State) : Out :=
  .next (if s.portShut || decide (65536 ≤ c) then s.refuse else (s.setReg (aCtr c) v).done)

end Sys2Proof.Machine
end

