-- ==== Sys2Proof/Machine/SlicePort.lean ====
section
/-! DEFINITION. The slice input port (R344, R348, R722, R723) and the test access port (R674, R732 to R734). -/

namespace Sys2Proof.Machine

/-! ## Slice packets (R722) -/

def slKind (h : BitVec 256) : Nat := fld h.toNat 3 0
def slFh (h : BitVec 256) : Nat := fld h.toNat 43 32
def slCtx (h : BitVec 256) : Nat := fld h.toNat 59 48
def slAddr (h : BitVec 256) : Nat := fld h.toNat 111 64
def slCount (h : BitVec 256) : Nat := fld h.toNat 175 160
/-- Bytes of one row. -/
def slRow (h : BitVec 256) : Nat := rowBytes (fld h.toNat 179 176) (64 * fld h.toNat 188 180)
/-- Bytes of all rows. -/
def slLen (h : BitVec 256) : Nat := slCount h * slRow h

/-- Reserved values, and a context that is not ACTIVE, refuse a packet of any KIND (R722). -/
def State.slBad (s : State) (h : BitVec 256) : Bool :=
  let n := h.toNat
  let f := fun hi lo => fld n hi lo != 0
  f 63 60 || f 159 150 || f 191 189 || f 255 216 || decide (6 ≤ fld n 47 45) || s.ctxState (slCtx h) != 2

/-- What else a SLICE packet itself gets wrong: its format, counts, address and length (R722). -/
def sliceBad (h : BitVec 256) (rows : Bytes) : Bool :=
  let n := h.toNat
  decide (6 < fld n 179 176) || fld n 188 180 == 0 || slCount h == 0 || slAddr h % 128 != 0 ||
    rows.length != slLen h

/-- The window check of a SLICE packet's rows (R393, R722). -/
def State.sliceWindow (s : State) (h : BitVec 256) : Option CheckFail :=
  s.checkLocal (slCtx h) (slAddr h) (slLen h) permCdst false

/-- Shows the status of a packet on SL_STAT (R684, R722). -/
def State.slReply (s : State) (outcome : Nat) : State :=
  { s with slStat := BitVec.ofNat 4 (outcome + 4 * s.f aAtnCause 35 34) }

/-- Binds the rows of a packet to its frame handle: one buffer of the smallest fitting class, kind load, charged to the
context, USE 1; none where R339, R340 or R348 forbids it (R344, R722). -/
def State.bindFrame (s : State) (h : BitVec 256) (rows : Bytes) : Option State :=
  match classFor (slLen h) with
  | none => none
  | some c =>
    if !(s.heldFrames (slFh h)).isEmpty then none
    else
      match s.allocN c 1 (chargeOf (slCtx h) (s.ctxPart (slCtx h))) 1 with
      | (some [b], s) =>
        let i := handleIndex b
        let s := s.setEntry c i { s.entry c i with framed := true, use := 1, fh := slFh h }
        some ((s.stkWrite (s.bufAddr c i) rows).chargeStk (slCtx h) rows.length)
      | _ => none

/-- The slice-table entry of a packet (R723). -/
def sliceEnt (h : BitVec 256) : SliceEnt :=
  let n := h.toNat
  { ctx := slCtx h, stream := fld n 15 4, slice := fld n 31 16, base := fld n 149 128, count := slCount h
    orient := fld n 47 45, hs := fld n 203 192, ws := fld n 215 204 }

/-- SLICE (R399, R722, R723). -/
def execSlice (hdr : BitVec 256) (rows : Bytes) (s : State) : Out :=
  if s.dark || slKind hdr == 2 || slKind hdr == 3 then .next s
  else if slKind hdr != 1 || s.slBad hdr || sliceBad hdr rows then .next (s.slReply 2)
  else match s.sliceWindow hdr with
  | some e => .next ((s.checkRefused e).slReply 2)
  | none =>
    match (if fld hdr.toNat 44 44 == 1 then s.bindFrame hdr rows else some s) with
    | none => .next (s.slReply 2)
    | some s =>
      let s := (s.hbmWrite (slAddr hdr) rows).chargeHbm (slCtx hdr) rows.length
      let s := s.countUp (fld hdr.toNat 127 112) 1
      .next ({ s with slices := (sliceEnt hdr :: s.slices).take 4096 }.slReply 0)

/-- MARK and UNMARK (R346, R722). -/
def State.slMark (s : State) (h : BitVec 256) (kind : Nat) (on : Bool) : Out :=
  if s.dark || slKind h != kind then .next s
  else if s.slBad h then .next (s.slReply 2) else .next ((s.setMark (slFh h) on).slReply 0)

/-- MARK. -/
def execMark (hdr : BitVec 256) (s : State) : Out := s.slMark hdr 2 true

/-- UNMARK. -/
def execUnmark (hdr : BitVec 256) (s : State) : Out := s.slMark hdr 3 false

/-! ## The test access port (R732 to R734) -/

/-- The lock is closed: every instruction but BYPASS, IDCODE and SECCHAL acts as BYPASS (R674, R732). -/
def State.tapShut (s : State) : Bool := s.flag aSecStat 2

/-- BYPASS: one bit of delay between TDI and TDO. -/
def State.tapBypass (s : State) (ir tdi : Nat) : State :=
  { s with tap := { s.tap with ir := ir, tdo := s.tap.bypassBit, bypassBit := tdi % 2, driving := false } }

/-- BYPASS. -/
def execBypass (tdi : Nat) (s : State) : Out := .next (s.tapBypass 0xFF tdi)

/-- The IDCODE register (R733). -/
def idcodeValue : Nat := 1 <<< 28 + 0x5331 <<< 12 + (Config.jedecId % 2 ^ 11) <<< 1 + 1

/-- IDCODE. -/
def execIdcode (s : State) : Out :=
  .next { s with tap := { s.tap with ir := 0x01, tdo := idcodeValue, driving := false } }

/-- SECCHAL: a nonce is drawn and shifted out, and a command block shifted in is handled as if written to SEC_CMD; an
empty block only draws (R674). The outcome is the low two bits of the reply. -/
def execSecchal (block : Bytes) (s : State) : Out :=
  let s := { s with tap := { s.tap with ir := 0x0F, driving := false } }
  s.early (fun s =>
    if block.isEmpty then
      let s := s.drawNonce
      { s with tap := { s.tap with tdo := leNat s.nonceBytes } }
    else
      let r := s.signed block true
      { r.2 with tap := { r.2.tap with tdo := r.1 } })

/-- SAMPLE/PRELOAD: samples the pins and loads the preload latch. -/
def execSamplePreload (pins tdi : Nat) (s : State) : Out :=
  .next (if s.tapShut then s.tapBypass 0x02 tdi
    else { s with tap := { s.tap with ir := 0x02, tdo := pins, preload := tdi, driving := false } })

/-- EXTEST: the latch drives the boundary, which captures the pins. -/
def execExtest (pins tdi : Nat) (s : State) : Out :=
  .next (if s.tapShut then s.tapBypass 0x03 tdi
    else { s with tap := { s.tap with ir := 0x03, tdo := pins, preload := tdi, driving := true } })

/-- WSEL selects an island's wrapper by 9 bits. -/
def execWsel (i : Nat) (s : State) : Out :=
  .next (if s.tapShut then s.tapBypass 0x10 i
    else { s with tap := { s.tap with ir := 0x10, tdo := s.tap.sel, sel := i % 512, driving := false } })

/-- WIR loads the selected wrapper's instruction, 0 for WBY; any other first takes an island in service out of service,
and is not loaded where R607 refuses that (R734). -/
def execWir (code : Nat) (s : State) : Out :=
  if s.tapShut then .next (s.tapBypass 0x11 code)
  else
    let i := s.tap.sel
    let s := { s with tap := { s.tap with ir := 0x11, tdo := tabGet 0 s.tap.wir i, driving := false } }
    let load := fun (s : State) => { s with tap := { s.tap with wir := tabSet 0 s.tap.wir i code } }
    if code == 0 || (i < 264 && s.islState i != 0) then .next (load s)
    else if 264 ≤ i || islFatal i then .next s
    else .next (load (s.islOut i))

/-- WDR shifts the selected wrapper's data register. -/
def execWdr (tdi : Nat) (s : State) : Out :=
  .next (if s.tapShut then s.tapBypass 0x12 tdi
    else { s with tap := { s.tap with
      ir := 0x12, tdo := tabGet 0 s.tap.wdr s.tap.sel, wdr := tabSet 0 s.tap.wdr s.tap.sel tdi, driving := false } })

end Sys2Proof.Machine
end

