-- ==== Sys2Proof/Machine/Dispatch.lean ====
section
/-! DEFINITION. The meaning of each command: one arm per constructor of Instr. -/

namespace Sys2Proof.Machine

/-- What a command does to everything but the queue of waiting commands. -/
def exec (i : Instr) (s : State) : Host.Outcome State Fault Refusal :=
  match i with
  | .registerWrite addr size v => Sys2Proof.Machine.execRegisterWrite addr size v s
  | .arrivalCounterWrite c v => Sys2Proof.Machine.execArrivalCounterWrite c v s
  | .dbRing p v => Sys2Proof.Machine.execDbRing p v s
  | .db1Ring p v viaAlias => Sys2Proof.Machine.execDb1Ring p v viaAlias s
  | .dbAbort p v => Sys2Proof.Machine.execDbAbort p v s
  | .stepAdmit p => Sys2Proof.Machine.execStepAdmit p s
  | .stepStart x => Sys2Proof.Machine.execStepStart x s
  | .layerGroupStart x => Sys2Proof.Machine.execLayerGroupStart x s
  | .layerGroupDone x => Sys2Proof.Machine.execLayerGroupDone x s
  | .opScoreBackward x faults => Sys2Proof.Machine.execOpScoreBackward x faults s
  | .opAwait x => Sys2Proof.Machine.execOpAwait x s
  | .awaitMet x => Sys2Proof.Machine.execAwaitMet x s
  | .opExit x => Sys2Proof.Machine.execOpExit x s
  | .opReduce x => Sys2Proof.Machine.execOpReduce x s
  | .opFetch x => Sys2Proof.Machine.execOpFetch x s
  | .opCopy x => Sys2Proof.Machine.execOpCopy x s
  | .opMark x => Sys2Proof.Machine.execOpMark x s
  | .opFence x => Sys2Proof.Machine.execOpFence x s
  | .fenceDone x => Sys2Proof.Machine.execFenceDone x s
  | .opLoop x => Sys2Proof.Machine.execOpLoop x s
  | .stepComplete x => Sys2Proof.Machine.execStepComplete x s
  | .scoreTileStart p box errors => Sys2Proof.Machine.execScoreTileStart p box errors s
  | .scoreTileDone x faults => Sys2Proof.Machine.execScoreTileDone x faults s
  | .selectTile x differ => Sys2Proof.Machine.execSelectTile x differ s
  | .admissionRound x => Sys2Proof.Machine.execAdmissionRound x s
  | .selectionClose x => Sys2Proof.Machine.execSelectionClose x s
  | .exitCount x index => Sys2Proof.Machine.execExitCount x index s
  | .slotBind x slot => Sys2Proof.Machine.execSlotBind x slot s
  | .tokenPacketWrite lane => Sys2Proof.Machine.execTokenPacketWrite lane s
  | .closePacketWrite lane x => Sys2Proof.Machine.execClosePacketWrite lane x s
  | .dqCountUpdate lane => Sys2Proof.Machine.execDqCountUpdate lane s
  | .packetTake lane flits => Sys2Proof.Machine.execPacketTake lane flits s
  | .laneDrop lane atEnd => Sys2Proof.Machine.execLaneDrop lane atEnd s
  | .lcmdUndefined lane cmd => Sys2Proof.Machine.execLcmdUndefined lane cmd s
  | .store lane hdr data endAt faults flow => Sys2Proof.Machine.execStore lane hdr data endAt faults flow s
  | .withdraw lane hdr endMark flow => Sys2Proof.Machine.execWithdraw lane hdr endMark flow s
  | .fault lane hdr endMark flow => Sys2Proof.Machine.execFault lane hdr endMark flow s
  | .mixTermEnter slot faults => Sys2Proof.Machine.execMixTermEnter slot faults s
  | .tokenRelease slot => Sys2Proof.Machine.execTokenRelease slot s
  | .tokenCount slot => Sys2Proof.Machine.execTokenCount slot s
  | .stepStall x => Sys2Proof.Machine.execStepStall x s
  | .peakRst => Sys2Proof.Machine.execPeakRst s
  | .shadowBatchForm x e => Sys2Proof.Machine.execShadowBatchForm x e s
  | .shadowWaitExpire x e => Sys2Proof.Machine.execShadowWaitExpire x e s
  | .shadowBatchRun p => Sys2Proof.Machine.execShadowBatchRun p s
  | .shadowBatchDone p cubes reads faults => Sys2Proof.Machine.execShadowBatchDone p cubes reads faults s
  | .codecStatusWord w => Sys2Proof.Machine.execCodecStatusWord w s
  | .codecSilence stream => Sys2Proof.Machine.execCodecSilence stream s
  | .deadlineEval => Sys2Proof.Machine.execDeadlineEval s
  | .programLoad v => Sys2Proof.Machine.execProgramLoad v s
  | .programLoadDone => Sys2Proof.Machine.execProgramLoadDone s
  | .refresh bank => Sys2Proof.Machine.execRefresh bank s
  | .tempSample layers logic => Sys2Proof.Machine.execTempSample layers logic s
  | .bandCool => Sys2Proof.Machine.execBandCool s
  | .scrubRead granule finding copies => Sys2Proof.Machine.execScrubRead granule finding copies s
  | .rowRepair bank row => Sys2Proof.Machine.execRowRepair bank row s
  | .poolAlloc cls x p kind => Sys2Proof.Machine.execPoolAlloc cls x p kind s
  | .freeListRebuildDone cls => Sys2Proof.Machine.execFreeListRebuildDone cls s
  | .inflightAllocRetry cls => Sys2Proof.Machine.execInflightAllocRetry cls s
  | .polOpAlloc v reads => Sys2Proof.Machine.execPolOpAlloc v reads s
  | .polOpFree v reads => Sys2Proof.Machine.execPolOpFree v reads s
  | .polOpQrel v clean => Sys2Proof.Machine.execPolOpQrel v clean s
  | .linkUp port gen => Sys2Proof.Machine.execLinkUp port gen s
  | .linkDown port => Sys2Proof.Machine.execLinkDown port s
  | .linkRetry port pkt => Sys2Proof.Machine.execLinkRetry port pkt s
  | .portRemap => Sys2Proof.Machine.execPortRemap s
  | .portOosReq port => Sys2Proof.Machine.execPortOosReq port s
  | .portRtsReq port => Sys2Proof.Machine.execPortRtsReq port s
  | .msRequest x pkt => Sys2Proof.Machine.execMsRequest x pkt s
  | .rd port pkt => Sys2Proof.Machine.execRd port pkt s
  | .wr port pkt => Sys2Proof.Machine.execWr port pkt s
  | .wrm port pkt => Sys2Proof.Machine.execWrm port pkt s
  | .add32 port pkt => Sys2Proof.Machine.execAdd32 port pkt s
  | .add64 port pkt => Sys2Proof.Machine.execAdd64 port pkt s
  | .fadd32 port pkt => Sys2Proof.Machine.execFadd32 port pkt s
  | .fadd64 port pkt => Sys2Proof.Machine.execFadd64 port pkt s
  | .swap32 port pkt => Sys2Proof.Machine.execSwap32 port pkt s
  | .swap64 port pkt => Sys2Proof.Machine.execSwap64 port pkt s
  | .cas64 port pkt => Sys2Proof.Machine.execCas64 port pkt s
  | .xadd80 port pkt => Sys2Proof.Machine.execXadd80 port pkt s
  | .xadd128 port pkt => Sys2Proof.Machine.execXadd128 port pkt s
  | .cpy port pkt => Sys2Proof.Machine.execCpy port pkt s
  | .cpyrd port pkt => Sys2Proof.Machine.execCpyrd port pkt s
  | .dataReply port pkt => Sys2Proof.Machine.execDataReply port pkt s
  | .ackReply port pkt => Sys2Proof.Machine.execAckReply port pkt s
  | .requestTimeout tag => Sys2Proof.Machine.execRequestTimeout tag s
  | .tagFreeExpire tag => Sys2Proof.Machine.execTagFreeExpire tag s
  | .msfCpy v => Sys2Proof.Machine.execMsfCpy v s
  | .copyEnd cid => Sys2Proof.Machine.execCopyEnd cid s
  | .own port pkt => Sys2Proof.Machine.execOwn port pkt s
  | .ownApply => Sys2Proof.Machine.execOwnApply s
  | .fmTeardown port pkt => Sys2Proof.Machine.execFmTeardown port pkt s
  | .rhdr port pkt => Sys2Proof.Machine.execRhdr port pkt s
  | .rrow port pkt => Sys2Proof.Machine.execRrow port pkt s
  | .rclose port pkt => Sys2Proof.Machine.execRclose port pkt s
  | .rstore port pkt faults => Sys2Proof.Machine.execRstore port pkt faults s
  | .rwdraw port pkt => Sys2Proof.Machine.execRwdraw port pkt s
  | .colGrpCreate v => Sys2Proof.Machine.execColGrpCreate v s
  | .colGrpDelete v => Sys2Proof.Machine.execColGrpDelete v s
  | .cjoin port pkt => Sys2Proof.Machine.execCjoin port pkt s
  | .ccred port pkt => Sys2Proof.Machine.execCcred port pkt s
  | .colSubmit v => Sys2Proof.Machine.execColSubmit v s
  | .collectiveStart g => Sys2Proof.Machine.execCollectiveStart g s
  | .cdata port pkt => Sys2Proof.Machine.execCdata port pkt s
  | .cres port pkt => Sys2Proof.Machine.execCres port pkt s
  | .cfail port pkt => Sys2Proof.Machine.execCfail port pkt s
  | .collectiveTrigger g faults => Sys2Proof.Machine.execCollectiveTrigger g faults s
  | .collectiveTimeout g => Sys2Proof.Machine.execCollectiveTimeout g s
  | .collectiveEnd g => Sys2Proof.Machine.execCollectiveEnd g s
  | .collectiveCount g => Sys2Proof.Machine.execCollectiveCount g s
  | .ctxLoad x => Sys2Proof.Machine.execCtxLoad x s
  | .ctxLoadDone x => Sys2Proof.Machine.execCtxLoadDone x s
  | .ctxPark x => Sys2Proof.Machine.execCtxPark x s
  | .parkBoundary x => Sys2Proof.Machine.execParkBoundary x s
  | .parkCwaitExpire x => Sys2Proof.Machine.execParkCwaitExpire x s
  | .parkSaveDone x written => Sys2Proof.Machine.execParkSaveDone x written s
  | .ctxUnpark x => Sys2Proof.Machine.execCtxUnpark x s
  | .unparkDone x intact slots => Sys2Proof.Machine.execUnparkDone x intact slots s
  | .ctxUnload x => Sys2Proof.Machine.execCtxUnload x s
  | .ctxTeardown x => Sys2Proof.Machine.execCtxTeardown x s
  | .teardownDone x => Sys2Proof.Machine.execTeardownDone x s
  | .ctxCfgWrite x v => Sys2Proof.Machine.execCtxCfgWrite x v s
  | .parWrite p reg v => Sys2Proof.Machine.execParWrite p reg v s
  | .accountingWindow x events occupied => Sys2Proof.Machine.execAccountingWindow x events occupied s
  | .lockstepCfgWrite k v => Sys2Proof.Machine.execLockstepCfgWrite k v s
  | .lscmpDigests port pkt => Sys2Proof.Machine.execLscmpDigests port pkt s
  | .lscmpArray port pkt => Sys2Proof.Machine.execLscmpArray port pkt s
  | .lscmpFreeze port pkt => Sys2Proof.Machine.execLscmpFreeze port pkt s
  | .lockstepTimeout k => Sys2Proof.Machine.execLockstepTimeout k s
  | .wayRingWrite v => Sys2Proof.Machine.execWayRingWrite v s
  | .wayRptrWrite v => Sys2Proof.Machine.execWayRptrWrite v s
  | .waymarkRingWrite => Sys2Proof.Machine.execWaymarkRingWrite s
  | .flashLogWrite => Sys2Proof.Machine.execFlashLogWrite s
  | .twnAttach v => Sys2Proof.Machine.execTwnAttach v s
  | .attreqRetry => Sys2Proof.Machine.execAttreqRetry s
  | .attreq port pkt => Sys2Proof.Machine.execAttreq port pkt s
  | .attack port pkt => Sys2Proof.Machine.execAttack port pkt s
  | .attnak port pkt => Sys2Proof.Machine.execAttnak port pkt s
  | .twnDetach v => Sys2Proof.Machine.execTwnDetach v s
  | .detach port pkt => Sys2Proof.Machine.execDetach port pkt s
  | .begin port pkt => Sys2Proof.Machine.execBegin port pkt s
  | .tmir port pkt => Sys2Proof.Machine.execTmir port pkt s
  | .endDelta port pkt => Sys2Proof.Machine.execEndDelta port pkt s
  | .ack port pkt => Sys2Proof.Machine.execAck port pkt s
  | .nak port pkt => Sys2Proof.Machine.execNak port pkt s
  | .heartbeatSlot => Sys2Proof.Machine.execHeartbeatSlot s
  | .thb port pkt => Sys2Proof.Machine.execThb port pkt s
  | .heartbeatMiss => Sys2Proof.Machine.execHeartbeatMiss s
  | .suspectResend => Sys2Proof.Machine.execSuspectResend s
  | .confirm port pkt => Sys2Proof.Machine.execConfirm port pkt s
  | .deny port pkt => Sys2Proof.Machine.execDeny port pkt s
  | .fenced port pkt => Sys2Proof.Machine.execFenced port pkt s
  | .lost port pkt => Sys2Proof.Machine.execLost port pkt s
  | .assumed port pkt => Sys2Proof.Machine.execAssumed port pkt s
  | .twnCkpt v => Sys2Proof.Machine.execTwnCkpt v s
  | .twnAdopt v => Sys2Proof.Machine.execTwnAdopt v s
  | .mclr => Sys2Proof.Machine.execMclr s
  | .tsync t1 t2 t3 t4 => Sys2Proof.Machine.execTsync t1 t2 t3 t4 s
  | .tsyncTimeout => Sys2Proof.Machine.execTsyncTimeout s
  | .twinDiscoveryExpire => Sys2Proof.Machine.execTwinDiscoveryExpire s
  | .islandTakeOut k => Sys2Proof.Machine.execIslandTakeOut k s
  | .islandTestReturn k => Sys2Proof.Machine.execIslandTestReturn k s
  | .islandTestStart => Sys2Proof.Machine.execIslandTestStart s
  | .islandTestDone k pass => Sys2Proof.Machine.execIslandTestDone k pass s
  | .hostWriteRefused x => Sys2Proof.Machine.execHostWriteRefused x s
  | .pllUnlock => Sys2Proof.Machine.execPllUnlock s
  | .droopDetect k => Sys2Proof.Machine.execDroopDetect k s
  | .droopRecover k => Sys2Proof.Machine.execDroopRecover k s
  | .islandClockGate k => Sys2Proof.Machine.execIslandClockGate k s
  | .powerStateRequest r => Sys2Proof.Machine.execPowerStateRequest r s
  | .powerStateReached => Sys2Proof.Machine.execPowerStateReached s
  | .powerCapWindow est => Sys2Proof.Machine.execPowerCapWindow est s
  | .resetAssert => Sys2Proof.Machine.execResetAssert s
  | .startUp env => Sys2Proof.Machine.execStartUp env s
  | .restart => Sys2Proof.Machine.execRestart s
  | .updOpen => Sys2Proof.Machine.execUpdOpen s
  | .updWrite badPage => Sys2Proof.Machine.execUpdWrite badPage s
  | .updCommit good => Sys2Proof.Machine.execUpdCommit good s
  | .updAbort => Sys2Proof.Machine.execUpdAbort s
  | .updateSessionTimeout => Sys2Proof.Machine.execUpdateSessionTimeout s
  | .cfgApply v => Sys2Proof.Machine.execCfgApply v s
  | .cfgApplyPartition => Sys2Proof.Machine.execCfgApplyPartition s
  | .cfgApplyTimeout => Sys2Proof.Machine.execCfgApplyTimeout s
  | .cfgRd v => Sys2Proof.Machine.execCfgRd v s
  | .nonceDraw => Sys2Proof.Machine.execNonceDraw s
  | .debugUnlock v => Sys2Proof.Machine.execDebugUnlock v s
  | .revoke v => Sys2Proof.Machine.execRevoke v s
  | .arbCommit v => Sys2Proof.Machine.execArbCommit v s
  | .programSlot v good => Sys2Proof.Machine.execProgramSlot v good s
  | .relock => Sys2Proof.Machine.execRelock s
  | .atnAck v => Sys2Proof.Machine.execAtnAck v s
  | .atnEseqRead => Sys2Proof.Machine.execAtnEseqRead s
  | .entdaa addr held => Sys2Proof.Machine.execEntdaa addr held s
  | .setdasa addr held => Sys2Proof.Machine.execSetdasa addr held s
  | .setnewda addr => Sys2Proof.Machine.execSetnewda addr s
  | .rstdaa => Sys2Proof.Machine.execRstdaa s
  | .getpid => Sys2Proof.Machine.execGetpid s
  | .getbcr => Sys2Proof.Machine.execGetbcr s
  | .getdcr => Sys2Proof.Machine.execGetdcr s
  | .getstatus => Sys2Proof.Machine.execGetstatus s
  | .getmrl => Sys2Proof.Machine.execGetmrl s
  | .getmwl => Sys2Proof.Machine.execGetmwl s
  | .rdreg addr => Sys2Proof.Machine.execRdreg addr s
  | .wrreg addr v => Sys2Proof.Machine.execWrreg addr v s
  | .telem => Sys2Proof.Machine.execTelem s
  | .logrd addr len => Sys2Proof.Machine.execLogrd addr len s
  | .i3cUpdOpen => Sys2Proof.Machine.execI3cUpdOpen s
  | .i3cUpdWrite ofs page good => Sys2Proof.Machine.execI3cUpdWrite ofs page good s
  | .updHdr piece data => Sys2Proof.Machine.execUpdHdr piece data s
  | .i3cUpdCommit good => Sys2Proof.Machine.execI3cUpdCommit good s
  | .i3cUpdAbort => Sys2Proof.Machine.execI3cUpdAbort s
  | .i3cReadReply => Sys2Proof.Machine.execI3cReadReply s
  | .slice hdr rows => Sys2Proof.Machine.execSlice hdr rows s
  | .mark hdr => Sys2Proof.Machine.execMark hdr s
  | .unmark hdr => Sys2Proof.Machine.execUnmark hdr s
  | .laneOosReq lane => Sys2Proof.Machine.execLaneOosReq lane s
  | .laneLeaveService lane => Sys2Proof.Machine.execLaneLeaveService lane s
  | .laneRtsReq lane => Sys2Proof.Machine.execLaneRtsReq lane s
  | .laneEnterService lane => Sys2Proof.Machine.execLaneEnterService lane s
  | .laneAbort lane => Sys2Proof.Machine.execLaneAbort lane s
  | .laneIslandFault lane => Sys2Proof.Machine.execLaneIslandFault lane s
  | .lanCtWrite lane v => Sys2Proof.Machine.execLanCtWrite lane v s
  | .lanWmWrite lane rq v => Sys2Proof.Machine.execLanWmWrite lane rq v s
  | .lanBackWrite lane v => Sys2Proof.Machine.execLanBackWrite lane v s
  | .bypass tdi => Sys2Proof.Machine.execBypass tdi s
  | .idcode => Sys2Proof.Machine.execIdcode s
  | .secchal block => Sys2Proof.Machine.execSecchal block s
  | .samplePreload pins tdi => Sys2Proof.Machine.execSamplePreload pins tdi s
  | .extest pins tdi => Sys2Proof.Machine.execExtest pins tdi s
  | .wsel k => Sys2Proof.Machine.execWsel k s
  | .wir code => Sys2Proof.Machine.execWir code s
  | .wdr tdi => Sys2Proof.Machine.execWdr tdi s
  | .linkDeliveryReport port pkt => Sys2Proof.Machine.execLinkDeliveryReport port pkt s

end Sys2Proof.Machine
end

