-- ==== Sys2Proof/Safety.lean ====
section
/-! DEFINITION. What claims speak of: memories in canonical form, the outcome a command's reply shows, and what a command
leaves as it was. -/

namespace Sys2Proof.Machine

/-- The memories are in canonical form: host HBM and the stack unlisted where 0, the flash where 0xFF. -/
def State.memWf (s : State) : Bool := Memory.wf 0 s.hbm && Memory.wf 0 s.stk && Memory.wf 0xFF s.flash

/-- A command answers a next state, of which P holds. -/
def Completes (c : Instr) (s : State) (P : State → Prop) : Prop := ∃ t, exec c s = .next t ∧ P t

/-- Outcome of the last register-port reply: 0 performed, 2 refused, 3 failed (R681). -/
def State.outcome (s : State) : Nat := s.reply.2.toNat % 4

/-- No byte and no poison mark of a memory differs. -/
def SameMemory (s t : State) : Prop :=
  t.hbm = s.hbm ∧ t.hbmPoison = s.hbmPoison ∧ t.stk = s.stk ∧ t.stkPoison = s.stkPoison ∧ t.flash = s.flash

/-- Every register but those listed holds what it held. -/
def SameRegsBut (l : List Nat) (s t : State) : Prop := ∀ a, a ∉ l → t.reg a = s.reg a

/-- Every byte of host HBM outside [a, a + n) reads as before. -/
def SameHbmBut (a n : Nat) (s t : State) : Prop := ∀ b, b < a ∨ a + n ≤ b → cellGet 0 t.hbm b = cellGet 0 s.hbm b

/-- Host HBM holds a byte string from an address on. -/
def HbmHolds (t : State) (a : Nat) (bs : Bytes) : Prop := ∀ i (h : i < bs.length), cellGet 0 t.hbm (a + i) = bs[i]

/-- A step of a context is listed, and P holds of it. -/
def StepHas (t : State) (x : Nat) (step : Word) (P : Step → Prop) : Prop :=
  ∃ u ∈ t.rgm.steps, u.is x step = true ∧ P u

/-- A packet that meets R370 arrives on a link that is up, for this engine, and the engine is not halted. -/
def State.hears (s : State) (port : Nat) (p : Packet) : Bool :=
  decide (port < 16) && s.link port == 2 && !s.halted && packetOk (s.gen port) p && s.isMine (pDst p)

/-- The engine is neither fenced nor halted nor open to debug, so that it may send any packet (R579, R605, R677). -/
def State.mayTalk (s : State) : Bool := s.f aTwnState 2 0 != 5 && !s.halted && s.flag aSecStat 2

/-- The port that the reply to `p` leaves on: the one `p` came by, or, where that cannot carry it, the lowest in service that
can (R365, R369). -/
def State.replyPort (s : State) (port : Nat) (p : Packet) : Option Nat :=
  (port :: s.portsIn).find? (fun n => s.carries n (pDst p) (pSrc p) 2)

/-- The only packet handed to a link is the reply to `p`; none, where no port can carry it. -/
def RepliedWith (s t : State) (port : Nat) (p : Packet) (op outcome : Nat) (poison : Bool) (addr : Nat) (data : Bytes) :
    Prop :=
  t.fab.out = s.fab.out ++ (s.replyPort port p).toList.map (fun n =>
    (n, s.dress n ⟨nalHdr 2 op (pDst p) (pSrc p) (pCtx p) (data.length / 128) (bit poison) 0 addr (pTag p) (s.stat outcome),
      data⟩))

end Sys2Proof.Machine
end

