-- ==== Sys2Proof/Certificates/Slice0/Obligations.lean ====
section
/-! DEFINITION. What the model is claimed to do: one proposition each, from the rules of the spec. -/

open Sys2Proof Sys2Proof.Machine

/-- For every command c, every rest of the queue and every state whose queue is c and that rest, a step is the meaning of c
on the state with the rest as its queue. -/
def Obligations.StepRunsTheFrontCommand : Prop :=
  ∀ (c : Instr) (rest : List Instr) (s : State), s.pending = c :: rest → step s = exec c { s with pending := rest }

/-- With an empty queue, a step is one cycle of TCLK (the model's choice, log 1). Outside reset the cycle count goes up by
one. The time base goes up by 10 ns while no offset is left to slew; otherwise by 9, 10 or 11 ns, so that it never moves
backwards, and it differs from 10 ns only in one cycle of 500. In reset nothing changes. -/
def Obligations.EmptyQueuePassesTclkCycles : Prop :=
  ∀ s : State, s.pending = [] →
    (s.pwr.inReset = true → step s = .next s) ∧
    (s.pwr.inReset = false → ∃ t, step s = .next t ∧ t.tclk = s.tclk + 1 ∧ s.tb + 9 ≤ t.tb ∧ t.tb ≤ s.tb + 11 ∧
      (s.tbPend = 0 ∨ t.tclk % 500 ≠ 0 → t.tb = s.tb + 10 ∧ t.tbPend = s.tbPend) ∧ t.regs = s.regs ∧ SameMemory s t ∧
      t.rgm = s.rgm ∧ t.car = s.car ∧ t.fab = s.fab)

/-- Every command, with any operands, in every state, answers a next state: the engine reports what it refuses or what fails
as a reply, a record or an attention event, and the machine never stops. -/
def Obligations.EveryCommandAnswersANextState : Prop := ∀ (c : Instr) (s : State), ∃ t, exec c s = .next t

/-- Whatever a command does, the commands that wait behind it stay as they are, in their order. -/
def Obligations.CommandsLeaveTheQueue : Prop :=
  ∀ (c : Instr) (s t : State), exec c s = .next t → t.pending = s.pending

/-- From every state whose three memories are in canonical form (addresses strictly rising, no byte listed that equals
what an unlisted address reads as), a step leads to a state whose three memories are: equal contents stay equal data. -/
def Obligations.EveryStepKeepsMemoriesCanonical : Prop :=
  ∀ s t : State, s.memWf = true → step s = .next t → t.memWf = true

/-- The fuses are programmed once: whatever the step, a key slot that was programmed keeps its key hash and stays
programmed, a revoked slot stays revoked, and the anti-rollback value never falls. -/
def Obligations.EveryStepKeepsTheFuses : Prop :=
  ∀ s t : State, step s = .next t →
    (s.cfg.fuses.prog0 = true → t.cfg.fuses.prog0 = true ∧ t.cfg.fuses.hash0 = s.cfg.fuses.hash0) ∧
    (s.cfg.fuses.prog1 = true → t.cfg.fuses.prog1 = true ∧ t.cfg.fuses.hash1 = s.cfg.fuses.hash1) ∧
    (s.cfg.fuses.revoked0 = true → t.cfg.fuses.revoked0 = true) ∧
    (s.cfg.fuses.revoked1 = true → t.cfg.fuses.revoked1 = true) ∧ s.cfg.fuses.arb ≤ t.cfg.fuses.arb

/-- Right after reset every register reads its row's reset value, among them the constants of the identity registers, the
queue is empty, no byte of a memory is listed, and no step, slot, request, copy, group or event is held. The fuses, the
memories' contents and what a register whose reset value the spec does not give reads as are the model's (log 5, log 6). -/
def Obligations.ResetIsTheSpecsReset : Prop :=
  (∀ a, State.reset.reg a = regReset a) ∧ State.reset.regN aGlbId = 0x15331 ∧ State.reset.regN aGlbVer = 0x101010303 ∧
    State.reset.regN aGlbCap = 0x8100001010004080 ∧ State.reset.regN aGlbCap2 = 0x8000400000020000 ∧
    State.reset.regN aGlbScratch = 0 ∧ State.reset.regN (aParShare 0) = 1 ∧ State.reset.regN aMsfCtrl = 0x7FC10008 ∧
    State.reset.regN (aLanCtrl 127) = 1 ∧ State.reset.pending = [] ∧ State.reset.memWf = true ∧ State.reset.hbm = [] ∧
    State.reset.stk = [] ∧ State.reset.flash = [] ∧ State.reset.rgm.steps = [] ∧ State.reset.car.slots = [] ∧
    State.reset.fab.reqs = [] ∧ State.reset.fab.copies = [] ∧ State.reset.col.groups = [] ∧
    State.reset.loadedCtxs = [] ∧ State.reset.pwr.inReset = true

/-- Asserting reset completes in every state: every register goes to its reset value and nothing is held any longer, in the
stack too, while the fuses, the flash and host memory, which stand outside the reset, keep what they hold, and the
commands that wait stay. -/
def Obligations.ResetAssertClearsTheEngine : Prop :=
  ∀ s : State, Completes .resetAssert s (fun t =>
    (∀ a, t.reg a = regReset a) ∧ t.stk = [] ∧ t.rgm.steps = [] ∧ t.rgm.store = [] ∧ t.car.slots = [] ∧ t.fab.reqs = [] ∧
    t.col.groups = [] ∧ t.pwr.inReset = true ∧ t.hbm = s.hbm ∧ t.flash = s.flash ∧ t.cfg.fuses = s.cfg.fuses ∧
    t.pending = s.pending)

/-- A write to an address of the window that no register occupies is refused with outcome 2 and performs nothing, and a read of
such an address returns 0 with outcome 0. The same refusal meets a write that is not of 64 bits, that is misaligned,
that lies outside the window, or that goes to a register holding only RO fields. -/
def Obligations.UnoccupiedAddressesRefuseWrites : Prop :=
  ∀ (s : State) (addr size : Nat) (v : Word), s.dark = false →
    ((size ≠ 8 ∨ addr % 8 ≠ 0 ∨ 0x1000000 ≤ addr ∨ regRow (aliasTarget addr) = none ∨
        (∃ r, regRow (aliasTarget addr) = some r ∧ r.rw + r.w1c + r.act = 0)) →
      exec (.registerWrite addr size v) s = .next s.refuse ∧ s.refuse.outcome = 2 ∧
      SameRegsBut [] s s.refuse ∧ SameMemory s s.refuse) ∧
    (addr % 8 = 0 → addr < 0x1000000 → regRow (aliasTarget addr) = none →
      (s.readReg addr).reply.1 = 0 ∧ (s.readReg addr).outcome = 0)

/-- A write that the port accepts, to a register whose write is no operation, with a value the register takes, is performed
with outcome 0: RW bits hold the value, W1C bits written as 1 are cleared, every other bit stays. Only registers with a
follow-up (the thresholds of a pool, MGT_ROWNOM, a context's quotas and placement, and the place and length of the ownership
table, whose cache is emptied) change anything else. -/
def Obligations.PlainRegistersTakeWrites : Prop :=
  ∀ (s : State) (a : Nat) (v : Word) (r : RegRow) (new : Word),
    s.dark = false → a < 0xF00000 → s.portRefuses a 8 a = false → regRow a = some r → r.rw + r.w1c ≠ 0 →
    s.earlyWrite a v = none → s.arrayWrite a v false = none → s.unitWrite a v = none →
    new = mergeMask (s.reg a) v r.rw &&& ~~~(v &&& word r.w1c) → s.lowBad a new.toNat = false → s.highBad a new.toNat = false →
    Completes (.registerWrite a 8 v) s (fun t =>
      t = (if new = s.reg a then s else (s.setReg a new).afterWrite a).done ∧
      ((∀ c < 6, a ≠ aPolThr c ∧ a ≠ aPolHyst c) → a ≠ aMgtRownom →
        (∀ x < 4096, a ≠ aCtxQuotaA x ∧ a ≠ aCtxQuotaB x ∧ a ≠ aCtxPlace x) →
        t.reg a = new ∧ SameRegsBut [a] s t ∧ SameMemory s t ∧ t.rgm = s.rgm ∧ t.outcome = 0))

/-- A write that the port accepts, to a register whose write is an operation with a row of its own, is that row's command:
program loads, copies, collectives, twin, ring, flash, acknowledgement, doorbells, partition, context, lane and
lock-step registers. -/
def Obligations.OperationRegistersRunTheirRow : Prop :=
  ∀ (s : State) (v : Word), s.dark = false →
    let W := fun a c => s.portRefuses a 8 a = false → exec (.registerWrite a 8 v) s = exec c s
    W aRgmPloadCtrl (.programLoad v) ∧ W aMsfCpy (.msfCpy v) ∧ W aColSubmit (.colSubmit v) ∧ W aTwnCkpt (.twnCkpt v) ∧
    W aTwnAdopt (.twnAdopt v) ∧ W aWayRing (.wayRingWrite v) ∧ W aWayRptr (.wayRptrWrite v) ∧ W aCfgApply (.cfgApply v) ∧
    W aCfgRd (.cfgRd v) ∧ W aAtnAck (.atnAck v) ∧
    (∀ p < 64, W (aDbRing p) (.dbRing p v) ∧ W (aDbAbort p) (.dbAbort p v) ∧ (p % 2 = 1 → W (aDb1Ring p) (.db1Ring p v false)) ∧
      ∀ reg < 11, W (aParLaneLo p + 8 * reg) (.parWrite p reg v)) ∧
    (∀ x < 4096, W (aCtxCfg x) (.ctxCfgWrite x v) ∧ (fld v.toNat 6 4 = 1 → W (aCtxCmd x) (.ctxLoad x)) ∧
      (fld v.toNat 6 4 = 2 → W (aCtxCmd x) (.ctxPark x)) ∧ (fld v.toNat 6 4 = 3 → W (aCtxCmd x) (.ctxUnpark x)) ∧
      (fld v.toNat 6 4 = 4 → W (aCtxCmd x) (.ctxUnload x)) ∧ (fld v.toNat 6 4 = 5 → W (aCtxCmd x) (.ctxTeardown x))) ∧
    (∀ n < 128, W (aLanCt n) (.lanCtWrite n v) ∧ W (aLanDqWm n) (.lanWmWrite n false v) ∧
      W (aLanRqWm n) (.lanWmWrite n true v) ∧ W (aLanBack n) (.lanBackWrite n v)) ∧
    (∀ i < 16, W (aWayLsCfg i) (.lockstepCfgWrite i v))

/-- A write or a read of an alias entry does what the same access to its target does; a write to DB1_RING through the alias is
always a v1 doorbell. The model answers the two accesses with equal states, so reply and status are the target's, and
the alias, which no state backs, holds none. -/
def Obligations.AliasWritesActOnTheirTargets : Prop :=
  ∀ (s : State) (addr : Nat) (v : Word), 0xF00000 ≤ addr → addr < 0xF10000 → addr % 8 = 0 →
    regRow (aliasTarget addr) ≠ none →
    (∀ b, s.readReg addr = s.readReg (aliasTarget addr) ∧ (addr < 0xF00100 ∨ 0xF00300 ≤ addr →
      exec (.registerWrite addr b v) s = exec (.registerWrite (aliasTarget addr) b v) s)) ∧
    (∀ p < 64, addr = 0xF00100 + 8 * p → s.dark = false → s.portShut = false →
      exec (.registerWrite addr 8 v) s = exec (.db1Ring p v true) s)

/-- A write of an arrival counter, while the port answers, stores the written value in that counter and in no other register,
with outcome 0. -/
def Obligations.ArrivalCountersTakeWrites : Prop :=
  ∀ (s : State) (c : Nat) (v : Word), c < 65536 → s.portShut = false → s.dark = false →
    Completes (.arrivalCounterWrite c v) s (fun t =>
      t.reg (aCtr c) = v ∧ SameRegsBut [aCtr c] s t ∧ SameMemory s t ∧ t.rgm = s.rgm ∧ t.outcome = 0)

/-- A doorbell that none of the refusal rules meets (the partition holds fewer than 16 steps, the descriptor is well-formed and
unpoisoned and names a context of the partition that may run, its program and profile fit, no step of its STEP is
listed) queues one step with that descriptor behind all others, leaves every earlier step, and answers outcome 0. It
holds for a v2 doorbell of partitions 0 to 31, for a v1 doorbell through the alias or of an odd partition, and at a
shared address by the VER of the descriptor. -/
def Obligations.DoorbellsQueueSteps : Prop :=
  ∀ (s : State) (p : Nat) (v : Word) (d : Desc) (q : Program),
    let a := fld v.toNat 47 0
    p < 64 → s.tenantShut = false → s.dark = false →
    (s.rgm.steps.filter (fun t => t.part == p)).length < 16 → s.newest d.prog = some q → q.addrsOk d.bases = true →
    s.ctxPart d.ctx = p → s.ctxState d.ctx ∉ [0, 6, 7] → q.allows (s.profile d.ctx) = true →
    d.prog = s.f (aCtxCfg d.ctx) 15 8 → s.stepOf d.ctx d.step = none →
    let R := fun (c : Instr) (n : Nat) => Completes c s (fun t =>
      t.rgm.steps = s.rgm.steps ++ [newStep p d q] ∧ t.outcome = 0 ∧ SameMemory s t ∧
      t.reg (aAccHbm d.ctx) = s.reg (aAccHbm d.ctx) + BitVec.ofNat 64 n ∧ SameRegsBut [aAccHbm d.ctx] s t)
    (descV2 a (s.hbmRead a 128) = (d, true) → s.hbmPoisoned a 128 = false →
      (p < 32 ∨ s.hbmNat a 1 = 2 ∧ s.hbmPoisoned a 1 = false) → R (.dbRing p v) 128) ∧
    (descV1 a (s.hbmRead a 64) = (d, true) → s.hbmPoisoned a 64 = false →
      R (.db1Ring p v true) 64 ∧ (p % 2 = 1 → R (.db1Ring p v false) 64) ∧
      (p % 2 = 0 → s.hbmNat a 1 = 1 → s.hbmPoisoned a 1 = false → R (.db1Ring p v false) 64))

/-- When 16 steps of the partition are listed, or the v2 descriptor breaks a rule of its fields or is poisoned, the doorbell
of a partition below 32 queues nothing, shows the reason (0x10, 0x11) in DB_STAT.REFUSE, counts the refusal in
RGM_CNT_REFUSE and answers outcome 2. -/
def Obligations.DoorbellRefusals : Prop :=
  ∀ (s : State) (p : Nat) (v : Word), p < 32 → s.tenantShut = false → s.dark = false →
    let a := fld v.toNat 47 0
    let full := decide (16 ≤ (s.rgm.steps.filter (fun t => t.part == p)).length)
    full = true ∨ (descV2 a (s.hbmRead a 128)).2 = false ∨ s.hbmPoisoned a 128 = true →
    Completes (.dbRing p v) s (fun t =>
      t.rgm.steps = s.rgm.steps ∧ t.f (aDbStat p) 15 8 = (if full then 0x10 else 0x11) ∧
      t.reg aRgmCntRefuse = s.reg aRgmCntRefuse + 1 ∧ SameRegsBut [aDbStat p, aRgmCntRefuse] s t ∧ SameMemory s t ∧
      t.outcome = 2)

/-- DB_ABORT, while doorbells are taken, leaves no step of the partition and context it names running, admitted or queued:
each one that had no end code drains with code 0x24 when it had not started, and with code 0x30 when it had. Steps of
other partitions and contexts keep their phase and end code, and the reply's outcome is 0. -/
def Obligations.AbortDoorbellEndsTheStep : Prop :=
  ∀ (s : State) (p : Nat) (v : Word), p < 64 → s.tenantShut = false → s.dark = false →
    let x := fld v.toNat 11 0
    (s.rgm.steps.map (fun u => (u.desc.ctx, u.desc.step))).Nodup →
    Completes (.dbAbort p v) s (fun t =>
      t.rgm.steps.map (fun u => (u.desc.ctx, u.desc.step, u.phase, u.abort)) =
        s.rgm.steps.map (fun u =>
          if u.part = p ∧ u.desc.ctx = x ∧ u.abort = 0 then
            (u.desc.ctx, u.desc.step, StepPhase.draining,
              if u.phase = .queued ∨ u.phase = .admitted then 0x24 else 0x30)
          else (u.desc.ctx, u.desc.step, u.phase, u.abort)) ∧ t.outcome = 0)

/-- A write of RGM_PLOAD_CTRL with GO, while no load runs, sets GO and BUSY with outcome 0. At the end of a load BUSY and GO
clear. An unpoisoned image, unsigned where program signing is off, that passes the checks goes into the store, with
RESULT 0 and ERROP 0; one that a check refuses leaves the store as it was, with RESULT 2 and the ERROP of the check; a
poisoned one, or one whose signature fails where signing is on, is refused with ERROP 0xFFFF. -/
def Obligations.ProgramLoadsStoreTheImage : Prop :=
  ∀ (s : State) (v : Word),
    (s.portShut = false → s.dark = false → bitAt v.toNat 8 = true → s.flag aRgmPloadCtrl 9 = false →
      Completes (.programLoad v) s (fun t =>
        t.f aRgmPloadCtrl 7 0 = fld v.toNat 7 0 ∧ t.f aRgmPloadCtrl 9 8 = 3 ∧ t.outcome = 0 ∧
        SameRegsBut [aRgmPloadCtrl] s t ∧ SameMemory s t ∧ t.rgm = s.rgm)) ∧
    (s.flag aRgmPloadCtrl 9 = true →
      let a := s.f aRgmPloadAddr 47 0
      let n := imageLen (s.hbmRead a 64)
      let img := s.hbmRead a n
      let signed := s.flag aSecStat 4
      let bad := s.hbmPoisoned a (n + (if signed then 256 else 0)) || (signed && !s.signedOk img (s.hbmRead (a + n) 256))
      let E := fun (r e : Nat) (t : State) =>
        t.f aRgmPloadCtrl 9 8 = 0 ∧ t.f aRgmPloadCtrl 11 10 = r ∧ t.f aRgmPloadCtrl 31 16 = e % 65536
      (bad = true → Completes .programLoadDone s (fun t => E 2 0xFFFF t ∧ t.rgm = s.rgm)) ∧
      (∀ e, bad = false → s.loadImage (s.f aRgmPloadCtrl 7 0) img = .inr e →
        Completes .programLoadDone s (fun t => E 2 e t ∧ t.rgm = s.rgm)) ∧
      (∀ u, bad = false → s.loadImage (s.f aRgmPloadCtrl 7 0) img = .inl u →
        Completes .programLoadDone s (fun t => E 0 0 t ∧ t.rgm = u.rgm)))

/-- When the oldest step t of partition p that was never admitted is queued and may be looked at, the lanes that wait for a
boundary first leave and enter. Then: where the decision is to admit it, the context already holds the program's weights, the
staging and the place of a new table can be had, and no ring traffic is held, the step becomes admitted, with the lanes
and Carousel slices then in service, the slots its program reserves and the partition's deadline thresholds, and the
partition stands at a boundary. Where the decision is a refusal, or no version of its program is stored (0x13), the step
drains with that end code, DB_STAT.REFUSE shows it and RGM_CNT_REFUSE counts it. Where it has to wait, nothing
changes. -/
def Obligations.TurnstileAdmitsTheOldestStep : Prop :=
  ∀ (s : State) (p : Nat) (t : Step), p < 64 → t.desc.ctx < 4096 →
    s.rgm.steps.find? (fun u => u.part == p && !u.wasAdmitted) = some t → t.phase = .queued → s.eligible t = true →
    let b := s.lanesAtBoundary p
    let x := t.desc.ctx
    let refused := fun (e : Nat) (r : State) => StepHas r x t.desc.step (fun u => u.phase = .draining ∧ u.abort = e) ∧
      r.f (aDbStat p) 15 8 = e ∧ r.reg aRgmCntRefuse = s.reg aRgmCntRefuse + 1 ∧ SameMemory s r
    (∀ q, s.newest t.desc.prog = some q →
      (∀ plan taken deferred grow tr v hs w, (b.ctx x).weightsOf = some q.ver →
        b.admission t q = .enter plan taken deferred grow tr → (b.yielded x q plan).takeTable x tr = some v →
        v.allocN classFive (total grow) (chargeOf x p) 0 = (some hs, w) → b.ring.recs = [] → b.ring.rows = [] →
        b.ring.closes = [] → b.stepOf x t.desc.step = some t →
        Completes (.stepAdmit p) s (fun r => StepHas r x t.desc.step (fun u =>
          u.phase = .admitted ∧ u.prog = q ∧ u.lanes = b.lanesIn p ∧ u.slices = b.slicesIn ∧ u.slotRes = q.slotRes ∧
          u.thr = b.reg (aDlmThr p)) ∧ tabFind r.rgm.bounds p = some s.tclk)) ∧
      (∀ e c, b.admission t q = .refuse e c → e < 256 → Completes (.stepAdmit p) s (fun r => refused e r ∧
        (c = none → SameRegsBut [aDbStat p, aRgmCntRefuse] s r))) ∧
      (b.admission t q = .wait → exec (.stepAdmit p) s = .next s)) ∧
    (s.newest t.desc.prog = none → Completes (.stepAdmit p) s (fun r => refused 0x13 r ∧
      SameRegsBut [aDbStat p, aRgmCntRefuse] s r))

/-- When an ACTIVE context has an admitted step and none running, and the engine is not halted, STEP_START makes that step run:
T_START is the time base, the counter of every COMBINE op that the program reaches reads 0, every register that is no
arrival counter stays, but for the context's virtual time where its first op is array work, and so does every memory. -/
def Obligations.AdmittedStepsStart : Prop :=
  ∀ (s : State) (x : Nat) (t : Step), x < 4096 → s.rgm.steps.find? (fun t => t.desc.ctx == x && t.phase == .admitted) = some t →
    s.running x = none → s.ctxState x = 2 → s.halted = false →
    Completes (.stepStart x) s (fun r =>
      StepHas r x t.desc.step (fun u => u.phase = .running ∧ u.tStart = word s.tb ∧ u.prog = t.prog) ∧
      (∀ k ∈ t.prog.runs, ∀ o, t.prog.ops[k.1]? = some o → o.opcode = opCombine →
        r.reg (aCtr ((t.prog.at (effParam t.prog.ops k.2 k.1) 4 2 + t.desc.ctrOfs) % 65536)) = 0) ∧
      (∀ a, a < aCtr 0 → a ≠ aCtxVtime x → r.reg a = s.reg a) ∧ SameMemory s r)

/-- When the running step of a context stands at an AWAIT (or a FENCE) that has not been issued, outside a layer group,
OP_AWAIT (OP_FENCE) issues it: the step stays at that op and waits. No register and no memory changes. -/
def Obligations.WaitingOpsAreIssued : Prop :=
  ∀ (s : State) (x : Nat) (t : Step) (o : RouteOp), s.runner x = some t → t.opNow = some o → t.waiting = false →
    t.group = none →
    let W := fun (c : Instr) => Completes c s (fun r =>
      StepHas r x t.desc.step (fun u => u.waiting = true ∧ u.op = t.op ∧ u.phase = .running) ∧ SameRegsBut [] s r ∧
      SameMemory s r)
    (o.opcode = opAwait → W (.opAwait x)) ∧ (o.opcode = opFence → W (.opFence x))

/-- A waiting AWAIT whose counter has reached its number ends: the step stands at the next op, and with SUB set the counter has
lost the number. A waiting FENCE ends once no asynchronous operation of the step is outstanding. Neither changes a
memory, and the only registers that may change are the counter and the context's virtual time. -/
def Obligations.MetWaitsFinishTheOp : Prop :=
  ∀ (s : State) (x : Nat) (t : Step) (o : RouteOp), x < 4096 → s.runner x = some t → t.opNow = some o → t.waiting = true →
    let n := nextOp t.prog.ops t.iters t.op
    let c := aCtr ((opF o 31 16 + t.desc.ctrOfs) % 65536)
    let On := fun (r : State) => StepHas r x t.desc.step (fun u => u.op = n.1 ∧ u.iters = n.2 ∧ u.waiting = false ∧
      u.phase = (if t.prog.ops.length ≤ n.1 then .draining else .running)) ∧ SameMemory s r
    (o.opcode = opAwait → s.awaitHolds t o = true → Completes (.awaitMet x) s (fun r => On r ∧
      SameRegsBut [c, aCtxVtime x] s r ∧
      r.reg c = (if opF o 0 0 = 1 ∧ opF o 1 1 = 1 then s.reg c - word (opF o 63 32) else s.reg c))) ∧
    (o.opcode = opFence → t.asyncs = [] → Completes (.fenceDone x) s (fun r => On r ∧ SameRegsBut [aCtxVtime x] s r))

/-- When the running step of a context stands at such an op, unissued and outside a layer group: OP_EXIT writes one byte for
each token of the step, the layer at which it exited or 0xFF, and no other byte of host memory; OP_MARK forms an
intermediate Waymark record, counted by Waymark's sequence number; OP_LOOP goes back or on as its count says. After
each, the step stands at the next op. -/
def Obligations.SynchronousOpsFinishAtOnce : Prop :=
  ∀ (s : State) (x : Nat) (t : Step) (o : RouteOp), s.runner x = some t → t.opNow = some o → t.waiting = false →
    t.group = none →
    let n := nextOp t.prog.ops t.iters t.op
    let On := fun (r : State) => StepHas r x t.desc.step (fun u => u.op = n.1 ∧ u.iters = n.2 ∧ u.waiting = false)
    let m := t.prog.addr t.desc.bases t.blk 0
    (o.opcode = opExit → Completes (.opExit x) s (fun r => On r ∧
      (∀ i ∈ t.tokens, cellGet 0 r.hbm (m + i) = BitVec.ofNat 8 ((tabFind t.exited i).getD 0xFF)) ∧
      (∀ b, (∀ i ∈ t.tokens, b ≠ m + i) → cellGet 0 r.hbm b = cellGet 0 s.hbm b) ∧ r.stk = s.stk ∧ r.flash = s.flash)) ∧
    (o.opcode = opMark → Completes (.opMark x) s (fun r => On r ∧ r.way.wseq = s.way.wseq + 1 ∧ SameMemory s r)) ∧
    (o.opcode = opLoop → Completes (.opLoop x) s (fun r => On r ∧ SameMemory s r))

/-- When the running step stands at a COPY or FETCH, unissued and outside a layer group, with fewer than 16,384 copies in
flight (R391): one that passes its checks, that a port can carry, and for which its partition has a staging buffer, is
submitted under the lowest free copy number, with the descriptor's contents, and joins the operations the step has in
the air; one that is refused is not performed and shows outcome 2; after either the step stands at the next op. At a
REDUCE, an accepted collective joins the queue of its group and the operations in the air, and the step stands at the
next op; one that is refused aborts the step with 0x33. -/
def Obligations.CopyAndReduceOpsGoOn : Prop :=
  ∀ (s : State) (x : Nat) (t : Step) (o : RouteOp), s.runner x = some t → t.opNow = some o → t.waiting = false →
    t.group = none →
    let n := nextOp t.prog.ops t.iters t.op
    let d := sliceBytes (t.prog.blk t.blk) 0 64
    let C := fun (fetch : Bool) (cmd : Instr) =>
      let c := copyOf d x (some t.desc.step) t.desc.bases t.desc.ctrOfs fetch
      let port := s.pickPort 0 (s.srcOf x) c.peer 6
      s.fab.copies.length < 16384 →
      (∀ hs w, s.copyCheck c = none → port ≠ none →
        (s.copyNote c).allocN 3 1 { ctx := x, part := t.part, partOnly := true } 4 = (some hs, w) →
        Completes cmd s (fun r =>
          (∃ k, tabFind r.fab.copies s.freeCopy = some { c with staging := hs, next := k }) ∧
          StepHas r x t.desc.step (fun u => u.op = n.1 ∧ u.iters = n.2 ∧ u.waiting = false ∧
            u.asyncs = t.asyncs ++ [AsyncOp.copy s.freeCopy]))) ∧
      (s.copyCheck c ≠ none ∨ port = none →
        Completes cmd s (fun r => r.fab.copyEnd = (x, 2) ∧ r.fab.copies = s.fab.copies ∧ r.fab.out = s.fab.out ∧ SameMemory s r ∧
          StepHas r x t.desc.step (fun u => u.op = n.1 ∧ u.iters = n.2 ∧ u.waiting = false ∧ u.asyncs = t.asyncs)))
    (o.opcode = opCopy → C false (.opCopy x)) ∧ (o.opcode = opFetch → C true (.opFetch x)) ∧
    (o.opcode = opReduce →
      let g := fld (fieldAt d 0 8) 11 0
      let r := s.colRequest d x (some t.desc.step) t.desc.bases t.desc.ctrOfs
      (∀ q v, r = .inl q → s.group g = some v →
        Completes (.opReduce x) s (fun r =>
          (r.group g).map (fun k => k.queue) = some (v.queue ++ [q]) ∧ SameMemory s r ∧
          StepHas r x t.desc.step (fun u => u.op = n.1 ∧ u.iters = n.2 ∧ u.waiting = false ∧
            u.asyncs = t.asyncs ++ [AsyncOp.coll g q.seq]))) ∧
      (∀ e, r = .inr e → t.abort = 0 →
        Completes (.opReduce x) s (fun r => StepHas r x t.desc.step (fun u => u.phase = .draining ∧ u.abort = 0x33))))

/-- When the running step stands at the first op of a layer group and the layer's borrowed weights have arrived, the group
opens: the tokens that enter are those of the step that have not exited, none is in a tile yet, and every lane that its
experts reach is listed; before they have arrived the step waits (R442). When every token that entered a group has been
released or has exited and the layer's summary is written (R278), the group completes: its counts of choices, shadowed,
dropped and moved choices join the step's sums, one more layer is done, the layer stays with the step while some batch
of it is to be closed, and the step stands behind the group's last op. -/
def Obligations.LayerGroupsOpenAndClose : Prop :=
  ∀ (s : State) (x : Nat) (t : Step), s.runner x = some t →
    (∀ k, groupScore t.prog.ops t.op = some k → t.group = none →
      (s.borrowReady t (effLayer t.prog.ops t.iters k) = true →
        Completes (.layerGroupStart x) s (fun r => SameMemory s r ∧ SameRegsBut [aCtxVtime x] s r ∧
          StepHas r x t.desc.step (fun u => ∃ g, u.group = some g ∧ g.layer = effLayer t.prog.ops t.iters k ∧
            g.enter = t.tokens.filter (fun i => (tabFind t.exited i).isNone) ∧ g.untiled = g.enter ∧ g.tile = none ∧
            g.toks = [] ∧ g.closed = false ∧
            ∀ e ∈ s.localExperts t g, ∀ n ∈ t.physOf g e, ∃ l ∈ g.lanes, l.lane = n ∧ l.closed = []))) ∧
      (s.borrowReady t (effLayer t.prog.ops t.iters k) = false → exec (.layerGroupStart x) s = .next s)) ∧
    (∀ g, t.group = some g → g.closed = true → g.toks.length = g.enter.length → (∀ k ∈ g.toks, k.counted = true) →
      Completes (.layerGroupDone x) s (fun r => SameMemory s r ∧
        StepHas r x t.desc.step (fun u => u.group = none ∧ u.layersDone = t.layersDone + 1 ∧
          u.tails = (if s.batchesClosed t g then t.tails else t.tails ++ [g]) ∧
          u.sums.choices = t.sums.choices + g.tally.getD 0 0 ∧ u.sums.shadowed = t.sums.shadowed + g.tally.getD 1 0 ∧
          u.sums.dropped = t.sums.dropped + g.tally.getD 2 0 ∧ u.sums.moved = t.sums.moved + g.tally.getD 3 0 ∧
          u.op = (nextOp t.prog.ops t.iters ((groupScore t.prog.ops g.first).getD g.first + 4)).1)))

/-- For the oldest draining step of a context, with no operation in the air, every batch closed, and no return owed where it
is aborted, in an engine that is not halted: while it has no final record, STEP_COMPLETE forms that record. Once the
record is formed and nothing holds the completion any longer, STEP_COMPLETE takes the step off the list and notes the
partition's boundary where the step had been admitted; the completion record stands at COMP_ADDR, with the attention
level after a deadline miss of its own, and no byte of host memory outside it changes. -/
def Obligations.StepsComplete : Prop :=
  ∀ (s : State) (x : Nat) (t : Step), s.rgm.steps.find? (fun t => t.desc.ctx == x && t.phase == .draining) = some t →
    s.halted = false → t.asyncs = [] → t.tails = [] → (t.abort ≠ 0 → s.owes t = false) →
    (t.record = [] →
      Completes (.stepComplete x) s (fun r => StepHas r x t.desc.step (fun u => u.record.length = 128 ∧ u.phase = .draining) ∧
        r.way.wseq = s.way.wseq + 1 ∧ SameMemory s r)) ∧
    (t.record ≠ [] → s.mayComplete t = true →
      let endc := if t.abort ≠ 0 then t.abort else bit t.poison
      let b := t.compBytes ((s.noteMiss t).stat (outcomeOf endc t.retry)) endc s.tb
      Completes (.stepComplete x) s (fun r => r.stepOf x t.desc.step = none ∧
        (t.wasAdmitted = true → tabFind r.rgm.bounds t.part = some s.tclk) ∧ HbmHolds r t.desc.compAddr b ∧
        SameHbmBut t.desc.compAddr b.length s r ∧ r.flash = s.flash))

/-- A header built from fields that fit their widths gives each of them back: VC, OPCODE, SRC, DST, CONTEXT, LEN, POISON, RI,
ADDR, TAG and STAT. -/
def Obligations.NalmalHeadersReadBack : Prop :=
  ∀ (vc op src dst ctx len poison ri addr tag stat : Nat) (d : Bytes), vc < 8 → op < 64 → src < 16384 → dst < 16384 →
    ctx < 4096 → len < 8 → poison < 2 → ri < 2 → addr < 2 ^ 48 → tag < 131072 → stat < 16 →
    let p : Packet := ⟨nalHdr vc op src dst ctx len poison ri addr tag stat, d⟩
    pVc p = vc ∧ pOp p = op ∧ pSrc p = src ∧ pDst p = dst ∧ pCtx p = ctx ∧ pLen p = len ∧ pPoison p = decide (poison = 1) ∧
    pRi p = decide (ri = 1) ∧ pAddr p = addr ∧ pTag p = tag ∧ pStat p = stat ∧ pGen p = 0 ∧ pTc p = false

/-- A request that arrives for this engine, in its own slot and under its own identity, while it may send: RD answers the line
with DATA (outcome 3 and POISON where the line is marked poisoned) and changes no memory; WR writes the 128 bytes of its
payload, WRM those that its mask enables, each acknowledged with outcome 3 when it carries POISON and 0 otherwise. Bytes
of host memory outside the line, and the other memories, stay. Each counts one packet received, and one sent on the port
that carries the reply. -/
def Obligations.TargetReadsAndWritesLines : Prop :=
  ∀ (s : State) (port : Nat) (pkt : Packet), s.hears port pkt = true → s.toAssumed pkt = false → s.slotOk pkt = true →
    s.mayTalk = true →
    let a := pAddr pkt % 2 ^ 39
    let bad := s.hbmPoisoned a 128
    let mask := leNat ((pkt.data.drop 128).take 16)
    let C := fun (t : State) => t.reg (aFabCntRxpkt port) = s.reg (aFabCntRxpkt port) + 1 ∧
      (∀ n < 16, t.reg (aFabCntTxpkt n) = s.reg (aFabCntTxpkt n) + (if s.replyPort port pkt = some n then 1 else 0)) ∧ t.stk = s.stk ∧ t.flash = s.flash ∧ t.rgm = s.rgm
    let ack := if pPoison pkt then 3 else 0
    (pOp pkt = 0x01 → Completes (.rd port pkt) s (fun t =>
      RepliedWith s t port pkt 0x20 (if bad then 3 else 0) bad (pAddr pkt) (s.hbmRead a 128) ∧ SameMemory s t ∧ C t)) ∧
    (pOp pkt = 0x02 → Completes (.wr port pkt) s (fun t =>
      RepliedWith s t port pkt 0x21 ack false 0 [] ∧ HbmHolds t a pkt.data ∧ SameHbmBut a 128 s t ∧ C t)) ∧
    (pOp pkt = 0x03 → Completes (.wrm port pkt) s (fun t =>
      RepliedWith s t port pkt 0x21 ack false 0 [] ∧ SameHbmBut a 128 s t ∧ C t ∧
      ∀ i < 128, cellGet 0 t.hbm (a + i) = if bitAt mask i then pkt.data.getD i 0 else cellGet 0 s.hbm (a + i)))

/-- An atomic that arrives for this engine, in its own slot and under its own identity, while it may send, changes only its
cell: ADD and FADD add the operand modulo the cell's width, SWAP stores it, CAS64 stores the new value where the cell
equals the compare value, and XADD80 and XADD128 store the exact sum, in two's complement, where it lies within 80 or
128 bits. The fetching operations answer the old cell in a DATA reply, the others an ACK, with outcome 3 where the cell
or the request is poisoned. XADD80 and XADD128 never saturate: a sum out of range leaves every memory as it was and is
acknowledged with outcome 2. -/
def Obligations.TargetAtomicsChangeTheCell : Prop :=
  ∀ (s : State) (port : Nat) (pkt : Packet), s.hears port pkt = true → s.toAssumed pkt = false → s.slotOk pkt = true →
    s.mayTalk = true →
    let a := pAddr pkt % 2 ^ 39
    let arg := fun n => fieldAt pkt.data 0 n
    let A := fun (c : Instr) (op n : Nat) (fetch : Bool) (new : Nat) => pOp pkt = op → Completes c s (fun t =>
      let bad := s.hbmPoisoned a n || pPoison pkt
      t.hbmNat a n = new ∧ SameHbmBut a n s t ∧ t.stk = s.stk ∧ t.flash = s.flash ∧ t.rgm = s.rgm ∧
      (if fetch then RepliedWith s t port pkt 0x20 (if bad then 3 else 0) bad (pAddr pkt)
          (natLe n (s.hbmNat a n) ++ List.replicate (128 - n) 0)
        else RepliedWith s t port pkt 0x21 (if bad then 3 else 0) false 0 []))
    let exact := fun n => signedN n (s.hbmNat a 16) + signedN n (arg 16)
    let fits := fun (n : Nat) => -(2 ^ (n - 1) : Int) ≤ exact n ∧ exact n < 2 ^ (n - 1)
    A (.add32 port pkt) 0x08 4 false ((s.hbmNat a 4 + arg 4) % 2 ^ 32) ∧
    A (.add64 port pkt) 0x09 8 false ((s.hbmNat a 8 + arg 8) % 2 ^ 64) ∧
    A (.fadd32 port pkt) 0x0A 4 true ((s.hbmNat a 4 + arg 4) % 2 ^ 32) ∧
    A (.fadd64 port pkt) 0x0B 8 true ((s.hbmNat a 8 + arg 8) % 2 ^ 64) ∧
    A (.swap32 port pkt) 0x0C 4 true (arg 4) ∧ A (.swap64 port pkt) 0x0D 8 true (arg 8) ∧
    A (.cas64 port pkt) 0x0E 8 true (if s.hbmNat a 8 = arg 8 then fieldAt pkt.data 8 8 else s.hbmNat a 8) ∧
    (fits 80 → A (.xadd80 port pkt) 0x0F 16 false (wrapN 128 (exact 80))) ∧
    (fits 128 → A (.xadd128 port pkt) 0x10 16 false (wrapN 128 (exact 128))) ∧
    (let R := fun t => RepliedWith s t port pkt 0x21 2 false 0 [] ∧ SameMemory s t
     (pOp pkt = 0x0F → ¬fits 80 → Completes (.xadd80 port pkt) s R) ∧
     (pOp pkt = 0x10 → ¬fits 128 → Completes (.xadd128 port pkt) s R))

/-- A push that arrives under this engine's own identity, while it may send, writes its lines at its offset, adds their number
to the arrival counter it names when RI is 1 and leaves that counter otherwise, and is acknowledged (outcome 3 when
POISON is set). A pull in its own slot, of lines none of which is poisoned, is answered with those lines in one DATA
reply; no memory changes. -/
def Obligations.TargetServesCopies : Prop :=
  ∀ (s : State) (port : Nat) (pkt : Packet), s.hears port pkt = true → s.toAssumed pkt = false → s.mayTalk = true →
    (pOp pkt = 0x18 →
      let a := (fld (pAddr pkt) 38 7) <<< 7
      let c := aCtr (((fld (pAddr pkt) 47 39) <<< 7 + fld (pAddr pkt) 6 0) % 65536)
      Completes (.cpy port pkt) s (fun t => HbmHolds t a pkt.data ∧ SameHbmBut a pkt.data.length s t ∧
        t.reg c = (if pRi pkt then s.reg c + BitVec.ofNat 64 (pLen pkt) else s.reg c) ∧
        RepliedWith s t port pkt 0x21 (if pPoison pkt then 3 else 0) false 0 [] ∧ t.stk = s.stk ∧ t.flash = s.flash)) ∧
    (pOp pkt = 0x19 → s.slotOk pkt = true →
      let k := fld (pAddr pkt) 1 0 + 1
      let a := ((fld (pAddr pkt) 47 7) <<< 7) % 2 ^ 39
      s.hbmPoisoned a (128 * k) = false →
      Completes (.cpyrd port pkt) s (fun t => SameMemory s t ∧
        RepliedWith s t port pkt 0x20 0 false (pAddr pkt) (s.hbmRead a (128 * k))))

/-- A host access of a lawful form that passes the sender's checks (R379, R394, R395), with a tag and a port to carry it
(R385), goes out under the lowest free tag: its entry names the context, the port and the cycle of its issue, and the
request is the last packet handed to a link. Without a tag it waits; where a check fails it is answered with outcome 2,
and R399 counts it. A copy descriptor that is aligned, unpoisoned and lawful, with room for one more copy (R391), that
passes its checks and that a port can carry, is held under the lowest free copy number, with its contents, and
MSF_CPY's reply is outcome 0; any other is refused with outcome 2 and holds no copy. -/
def Obligations.RequestsTakeATag : Prop :=
  ∀ (s : State) (x : Nat), s.tenantShut = false → s.dark = false →
    (∀ (pkt : Packet) (lo hi : Nat),
      let op := pOp pkt
      let a := pAddr pkt
      let data := if op = 0x03 then pkt.data.take 144 ++ List.replicate 112 0 else pkt.data
      let p : Packet := ⟨nalHdr 1 op (s.srcOf x) ((s.chip / 128) <<< 7 + fld a 45 39) x (data.length / 128)
        (bit (pPoison pkt)) 0 a 0 0, data⟩
      let tag := freeTag 0 s.fab.reqs
      let w := accessOf op
      let check := s.checkAccess x a w.1 w.2.1 w.2.2
      let turned := fun (t : State) => t.fab.answer = ([], 2, false) ∧ t.fab.out = s.fab.out ∧ t.fab.reqs = s.fab.reqs ∧ SameMemory s t
      opShape op = some (1, lo, hi) →
      (pkt.data.length = 128 * lo → addrOk p = true → fld a 47 46 = 0 → s.noChip (pDst p) = false →
        (check = none →
          (s.canIssue 1 = true → s.mayTalk = true →
            let p' : Packet := { p with hdr := BitVec.ofNat 128 (withFld p.hdr.toNat 122 106 tag) }
            ∀ n, s.pickPort ((pDst p') <<< 41 ||| (lineAddr p' >>> 7)) (pSrc p') (pDst p') (pVc p') = some n →
            Completes (.msRequest x pkt) s (fun t =>
              (∃ r, tabFind t.fab.reqs tag = some r ∧ r.ctx = pCtx p' ∧ r.port = n ∧ r.pkt = p' ∧ r.lines = 1 ∧
                r.issued = s.tclk ∧ r.timedOut = false ∧ r.copy = none) ∧
              t.fab.out = s.fab.out ++ [(n, s.dress n p')] ∧ SameMemory s t)) ∧
          (s.canIssue 1 = false → Completes (.msRequest x pkt) s (fun t => t.fab.held = s.fab.held ++ [(1, p)] ∧
            t.fab.reqs = s.fab.reqs ∧ t.fab.out = s.fab.out ∧ SameRegsBut [] s t ∧ SameMemory s t))) ∧
        (check ≠ none → Completes (.msRequest x pkt) s (fun t => turned t ∧
          t.reg aMsfCntRefuse = s.reg aMsfCntRefuse + 1))) ∧
      (pkt.data.length ≠ 128 * lo ∨ addrOk p = false ∨ fld a 47 46 ≠ 0 ∨ s.noChip (pDst p) = true →
        Completes (.msRequest x pkt) s (fun t => turned t ∧ SameRegsBut [] s t))) ∧
    (∀ v : Word, fld v.toNat 59 48 = x →
      let a := fld v.toNat 47 0
      let d := s.hbmRead a 64
      let c := copyOf d x none [] 0 false
      let lawful := a % 64 = 0 ∧ s.hbmPoisoned a 64 = false ∧ copyDescOk d false = true ∧ s.fab.copies.length < 16384
      let port := s.pickPort 0 (s.srcOf x) c.peer 6
      (lawful → s.copyCheck c = none → port ≠ none → Completes (.msfCpy v) s (fun t =>
        (∃ k, tabFind t.fab.copies s.freeCopy = some { c with next := k }) ∧ t.outcome = 0)) ∧
      (¬lawful ∨ s.copyCheck c ≠ none ∨ port = none → Completes (.msfCpy v) s (fun t =>
        t.fab.copies = s.fab.copies ∧ t.fab.out = s.fab.out ∧ t.outcome = 2 ∧ SameMemory s t)))

/-- A reply from the right chip to a request of the host frees its tag and answers the requester with its data (none for an
ACK), its outcome and its poison mark; then what waits for a tag or a mapping goes on (`pump`). A DATA reply to a copy's
pull writes its lines in this chip's memory and raises the copy's counter by them (R388, R389); an ACK settles the lines
it answers. A request that has had no reply for T_dead is answered with the fill pattern and outcome 3, or ends its copy,
and keeps its tag, marked as timed out; that tag is freed once four times T_dead have passed. -/
def Obligations.RepliesFreeTheirTag : Prop :=
  ∀ (s : State) (tag : Nat) (r : Req), tabFind s.fab.reqs tag = some r →
    let calm := s.fab.held = [] ∧ s.fab.copies = []
    (∀ (port : Nat) (pkt : Packet), s.hears port pkt = true → pTag pkt = tag → r.timedOut = false →
      pDst r.pkt = pSrc pkt →
      let answers := fun (c : Instr) (data : Bytes) (poison : Bool) =>
        let shown := fun (u : State) => u.fab.answer = (data, reqOutcome r pkt, poison) ∧ tabFind u.fab.reqs tag = none
        Completes c s (fun t => SameMemory s t ∧ (∃ m : State, t = m.pump ∧ shown m) ∧ (calm → shown t))
      (r.copy = none →
        (pOp pkt = 0x20 → answers (.dataReply port pkt) pkt.data (pPoison pkt)) ∧
        (pOp pkt = 0x21 → answers (.ackReply port pkt) [] false)) ∧
      (∀ cid first c, r.copy = some (cid, first) → tabFind s.fab.copies cid = some c →
        (pOp pkt = 0x20 → pStat pkt % 4 ≠ 2 →
          let a := c.dst + 128 * (first + (fld (pAddr pkt) 47 7 - fld (pAddr r.pkt) 47 7))
          let k := aCtr (c.rctr % 65536)
          Completes (.dataReply port pkt) s (fun t => HbmHolds t a pkt.data ∧ SameHbmBut a pkt.data.length s t ∧ t.stk = s.stk ∧
            t.reg k = (if c.rinc then s.reg k + BitVec.ofNat 64 (pLen pkt) else s.reg k))) ∧
        (pOp pkt = 0x21 → Completes (.ackReply port pkt) s (fun t => SameMemory s t ∧ ∃ m : State, t = m.pump ∧
          tabFind m.fab.reqs tag = none ∧ tabFind m.fab.copies cid =
            some (c.settle r.lines (reqOutcome r pkt) (pPoison r.pkt && reqOutcome r pkt == 3)))))) ∧
    (r.timedOut = false → r.issued + s.tdead ≤ s.tclk →
      Completes (.requestTimeout tag) s (fun t =>
        (r.copy = none → (pOp r.pkt = 0x01 → t.fab.answer = (s.fillBytes 128, 3, false)) ∧ t.fab.answer.2 = (3, false)) ∧
        (∀ cid first, r.copy = some (cid, first) → tabFind t.fab.copies cid = none) ∧
        tabFind t.fab.reqs tag = some { r with timedOut := true } ∧ t.hbm = s.hbm)) ∧
    (r.timedOut = true → r.issued + 4 * s.tdead ≤ s.tclk →
      Completes (.tagFreeExpire tag) s (fun t => SameMemory s t ∧
        (∃ m : State, t = m.pump ∧ tabFind m.fab.reqs tag = none ∧ m.regs = s.regs) ∧
        (calm → tabFind t.fab.reqs tag = none ∧ SameRegsBut [] s t)))

/-- When every line of a copy is acknowledged or written, COPY_END drops it and shows how it came out; with an outcome below
2, MSF_CNT_CPY counts it, and with SINC its counter goes up by one; the step that issued it no longer holds it among
its operations. So it ends without a weight check, and with one that the fetched bytes pass. Where they do not, the
context is FAULTED with cause 4 (R444). A copy that is alone, with nothing waiting and no staging, changes no other
register and no memory. -/
def Obligations.CopiesEnd : Prop :=
  ∀ (s : State) (cid : Nat) (c : Copy), tabFind s.fab.copies cid = some c → c.len / 128 ≤ c.done →
    let k := aCtr (c.sctr % 65536)
    let checked := fun (w : BitVec 32) => c.poisoned = false ∧ c.outcome < 2 ∧ crc32c (s.hbmRead c.dst c.len) = w
    let gone := fun (t : State) => tabFind t.fab.copies cid = none ∧ t.hbm = s.hbm ∧
      ∀ st, c.step = some st → ∀ u ∈ t.rgm.steps, u.is c.ctx st = true → AsyncOp.copy cid ∉ u.asyncs
    ((∀ w, c.wcrc = some w → checked w) →
      Completes (.copyEnd cid) s (fun t => gone t ∧ t.fab.copyEnd = (c.ctx, c.outcome) ∧
        t.reg aMsfCntCpy = s.reg aMsfCntCpy + (if c.outcome < 2 then 1 else 0) ∧
        t.reg k = s.reg k + (if c.sinc then 1 else 0) ∧
        (c.staging = [] → s.fab.held = [] → s.fab.copies = [(cid, c)] →
          SameRegsBut [aMsfCntCpy, k] s t ∧ SameMemory s t))) ∧
    (∀ w, c.wcrc = some w → ¬checked w → c.ctx < 4096 → s.ctxState c.ctx ∉ [0, 7] →
      Completes (.copyEnd cid) s (fun t => gone t ∧ t.ctxState c.ctx = 7 ∧ t.f (aCtxCmd c.ctx) 15 8 = 4))

/-- Ports 0 to 15: a link that is down or trains, whose port is not retired and not asked to leave, comes up, from phase 7
of start-up on, with the lower of both generations; a link that goes down reads state 0 and sets its error bit. RTS is
kept until the port is in service, and a link that is down or out of service trains at once unless a request to leave
stands; a retired port refuses it. A port asked to leave takes no new request. Once no request of the old mapping is out,
the mapping in force becomes the ports in service, and the ports that were to leave are out of service, or train where
RTS was asked too (R378, R407); till then it stays. A retried packet counts, and marks the request it carries, or the
running step of the context of a ring packet. A delivered packet's copy is dropped. -/
def Obligations.LinksComeUpAndGoDown : Prop :=
  ∀ (s : State) (n : Nat), n < 16 →
    let leaving := fun (t : State) => t.flag (aFabState n) 8
    let asked := fun (t : State) => t.flag (aFabState n) 9
    (∀ gen, 1 ≤ gen → gen ≤ 3 → s.link n < 2 → s.pwr.inReset = false → s.islState (160 + n) ≠ 2 → 7 ≤ s.f aPwrBoot 3 0 →
      leaving s = false → Completes (.linkUp n gen) s (fun t => t.link n = 2 ∧ t.gen n = gen ∧ t.portIn n = true ∧
        asked t = false ∧ SameMemory s t)) ∧
    (s.link n ≠ 0 → Completes (.linkDown n) s (fun t => t.link n = 0 ∧ t.flag (aFabErr n) 1 = true ∧ SameMemory s t)) ∧
    (s.portShut = false → s.dark = false →
      (s.islState (160 + n) ≠ 2 → Completes (.portRtsReq n) s (fun t => asked t = true ∧ leaving t = leaving s ∧ t.outcome = 0 ∧
        t.link n = (if leaving s = false ∧ s.link n ≠ 2 then 1 else s.link n) ∧ SameRegsBut [aFabState n] s t ∧ SameMemory s t)) ∧
      (s.islState (160 + n) = 2 → exec (.portRtsReq n) s = .next s.refuse) ∧
      Completes (.portOosReq n) s (fun t => leaving t = true ∧ t.portIn n = false ∧ t.link n = s.link n ∧ t.outcome = 0 ∧
        SameRegsBut [aFabState n, aMsfCtrl] s t ∧ SameMemory s t)) ∧
    (s.fab.remap = true →
      (s.oldRequests = false → Completes .portRemap s (fun t => t.fab.map = s.portsIn ∧ t.fab.remap = false ∧
        SameMemory s t ∧ (leaving s = true → s.link n = 2 → leaving t = false ∧ t.link n = (if asked s then 1 else 3)))) ∧
      (s.oldRequests = true → exec .portRemap s = .next s)) ∧
    (∀ pkt, Completes (.linkRetry n pkt) s (fun t =>
      t.reg (aFabCntRetry n) = s.reg (aFabCntRetry n) + 1 ∧ t.flag (aFabErr n) 0 = true ∧
      SameRegsBut [aFabCntRetry n, aFabErr n] s t ∧ SameMemory s t ∧
      (opIsRequest (pOp pkt) = true →
        tabFind t.fab.reqs (pTag pkt) = (tabFind s.fab.reqs (pTag pkt)).map (fun r => { r with retried := true })) ∧
      (pVc pkt = 3 ∨ pVc pkt = 4 → ∀ u, s.running (pCtx pkt) = some u → StepHas t (pCtx pkt) u.desc.step (fun w =>
        w.retry = true ∧ w.retries = u.retries + 1)))) ∧
    (∀ pkt, Completes (.linkDeliveryReport n pkt) s (fun t => t.fab.kept = s.fab.kept.erase (n, pkt) ∧
      t.fab.reqs = s.fab.reqs ∧ SameRegsBut [] s t ∧ SameMemory s t))

/-- An OWN that arrives waits behind the others. The oldest one whose region has no write outstanding is applied and
acknowledged with the outcome of the change, and no longer waits; one whose reserved bytes are not 0 changes nothing and
is answered with outcome 2. Under the teardown policy, a teardown message faults
the context it names: CTX_CMD reads state FAULTED with cause 2. -/
def Obligations.FabricManagerMessages : Prop :=
  ∀ (s : State) (port : Nat) (pkt : Packet),
    (s.hears port pkt = true → pOp pkt = 0x3E → Completes (.own port pkt) s (fun t =>
      t.fab.owns = s.fab.owns ++ [(port, pkt)] ∧ t.fab.out = s.fab.out ∧ SameMemory s t)) ∧
    (s.fab.owns.find? (fun e => !s.writesTo (fieldAt e.2.data 0 4 % 2 ^ 25)) = some (port, pkt) → s.mayTalk = true →
      (pkt.data.drop 8).all (· == 0) = true →
      let u := { s with fab := { s.fab with owns := s.fab.owns.erase (port, pkt) } }
      let r := u.ownChange (fieldAt pkt.data 0 8)
      Completes .ownApply s (fun t => t.fab.owns = s.fab.owns.erase (port, pkt) ∧ t.hbm = r.2.hbm ∧
        t.f aMsfOwnCount 20 0 = r.2.f aMsfOwnCount 20 0 ∧ RepliedWith s t port pkt 0x21 r.1 false 0 [])) ∧
    (s.fab.owns.find? (fun e => !s.writesTo (fieldAt e.2.data 0 4 % 2 ^ 25)) = some (port, pkt) → s.mayTalk = true →
      (pkt.data.drop 8).all (· == 0) = false →
      Completes .ownApply s (fun t => t.fab.owns = s.fab.owns.erase (port, pkt) ∧ SameMemory s t ∧
        RepliedWith s t port pkt 0x21 2 false 0 [])) ∧
    (s.hears port pkt = true → pOp pkt = 0x3C → pAddr pkt % 256 = fmTeardownKind → s.flag aMsfCtrl 7 = true →
      s.ctxState (pCtx pkt) ∉ [0, 7] → Completes (.fmTeardown port pkt) s (fun t =>
        t.ctxState (pCtx pkt) = 7 ∧ t.f (aCtxCmd (pCtx pkt)) 15 8 = 2))

/-- A consumer that quota, ceiling, threshold state and free count allow (R340 to R342) takes the buffer at the head of its
pool's list, whose header passes the check: the buffer's entry names its owner with a generation one higher, in the
metadata region too where that holds it, the next buffer is the head, one buffer fewer is free, and no other entry
changes. While the list is rebuilt the consumer waits. One that is not allowed waits where it is in flight (kinds 2 and
4), and else gets nothing. A retry serves the oldest that waits. When a rebuild is done and nothing waits for the pool,
the list holds every buffer that is not allocated, quarantined or held: their number is the free count, the lowest
index is the head, and no buffer's entry changes. -/
def Obligations.PoolsAllocateTheHead : Prop :=
  ∀ (s : State) (c x p kind : Nat), c < 6 →
    let w : PolWait := { cls := c, ctx := x, part := p, kind := kind }
    let top := s.stack.metadata.1 + s.stack.metadata.2
    let alone := c = 3 → s.ring.wait = []
    let got := fun (i : Nat) (t : State) =>
      let a := s.entryAddr c i
      t.entry c i = { polEntry0 with
        owner := x, part := p, alloc := true, pchg := decide (3 ≤ kind), gen := (s.entry c i).gen + 1 } ∧
      (∀ k j, (k, j) ≠ (c, i) → t.entry k j = s.entry k j) ∧
      (t.pool c).head = (let n := fieldAt (s.stkRead (s.bufAddr c i) 4) 0 4 % 2 ^ 21
        if n = 0x1FFFFF then none else some n) ∧
      t.f (aPolFree c) 20 0 + 1 = s.f (aPolFree c) 20 0 ∧ t.reg (aPolCntAlloc c) = s.reg (aPolCntAlloc c) + 1 ∧
      (a + 16 ≤ top → t.stkRead a 16 = (t.entry c i).bytes) ∧ (top < a + 16 → t.stk = s.stk) ∧
      (∀ b, b < a ∨ a + 16 ≤ b → cellGet 0 t.stk b = cellGet 0 s.stk b) ∧ t.hbm = s.hbm ∧ t.flash = s.flash ∧
      t.rgm = s.rgm ∧ t.car = s.car
    (∀ i, (s.pool c).rebuilding = false → s.grants w = true → (s.pool c).head = some i → s.headGood c i = true →
      Completes (.poolAlloc c x p kind) s (fun t => got i t ∧ t.pol.waits = s.pol.waits) ∧
      (∀ rest, s.pol.waits = w :: rest → alone →
        Completes (.inflightAllocRetry c) s (fun t => got i t ∧ t.pol.waits = rest))) ∧
    ((s.pool c).rebuilding = true ∨ (s.grants w = false ∧ (kind = 2 ∨ kind = 4)) →
      exec (.poolAlloc c x p kind) s = .next { s with pol := { s.pol with waits := s.pol.waits ++ [w] } }) ∧
    ((s.pool c).rebuilding = false → s.grants w = false → kind ≠ 2 → kind ≠ 4 →
      exec (.poolAlloc c x p kind) s = .next s) ∧
    ((s.pool c).rebuilding = true → s.pol.waits.all (fun w => w.cls != c) = true → alone →
      let free := (List.range (s.poolCount c)).filter (fun i =>
        !(s.entry c i).alloc && !(s.entry c i).quar && !(s.entry c i).held)
      Completes (.freeListRebuildDone c) s (fun t =>
        (t.pool c).rebuilding = false ∧ (t.pool c).head = free.head? ∧ t.f (aPolFree c) 20 0 = free.length ∧
        (∀ k i, t.entry k i = s.entry k i) ∧ t.hbm = s.hbm ∧ t.flash = s.flash ∧ t.rgm = s.rgm))

/-- While the pools answer, with no read error met: OP 1 takes the head of the class's list for the context its fields name
and shows the handle, or is refused where the allocation is not allowed. OP 2 takes back the buffer that POL_OP_HANDLE
names: it leaves its owner and becomes the head of its list; a FRAMED buffer in use twice or more only gives a use back,
and one whose frame handle is marked is HELD after its last; a handle that may not be freed is refused, counted and
flagged. A partial write of a poisoned granule gives outcome 3 (R328). OP 3 zeroes a quarantined free buffer: where every
granule reads clean it is free again, at the head of its list when it was off it, and else it stays quarantined with
outcome 3. -/
def Obligations.PoolOperationsOfSoftware : Prop :=
  ∀ (s : State) (v : Word) (reads : EccReads), s.unitShut = false → s.dark = false →
    let c := fld v.toNat 14 12
    let x := fld v.toNat 11 0
    let h := s.regN aPolOpHandle
    let k := handleClass h
    let i := handleIndex h
    let e := s.entry k i
    let base := s.bufAddr k i
    let top := s.stack.metadata.1 + s.stack.metadata.2
    let worn := fun (c i : Nat) => decide (s.entryAddr c i + 16 ≤ top) && s.granulePoison (s.entryAddr c i / 32)
    let zeros := fun (a : Nat) (t : State) => ∀ b, a ≤ b → b < base + classSize k → cellGet 0 t.stk b = 0
    (∀ g, findingOf reads g = .clean) →
    (∀ j, c < 6 → (s.pool c).rebuilding = false → s.allocAllowed c 1 (chargeOf x (s.ctxPart x)) 1 = true →
      (s.pool c).head = some j → s.headGood c j = true →
      Completes (.polOpAlloc v reads) s (fun t => t.outcome = (if worn c j then 3 else 0) ∧
        t.reg aPolOpHandle = word (handleOf c j ((s.entry c j).gen + 1)) ∧ (t.entry c j).alloc = true ∧
        (t.entry c j).owner = x)) ∧
    (6 ≤ c ∨ ((s.pool c).rebuilding = false ∧ s.allocAllowed c 1 (chargeOf x (s.ctxPart x)) 1 = false) →
      Completes (.polOpAlloc v reads) s (fun t => t.outcome = 2 ∧ t.pol = s.pol)) ∧
    (s.badFree h x false = false → e.quar = false → e.framed = false ∨ (e.use = 1 ∧ s.pol.marks.contains e.fh = false) →
      Completes (.polOpFree v reads) s (fun t => t.outcome = (if s.granulePoison (base / 32) || worn k i then 3 else 0) ∧
        t.entry k i = { polEntry0 with gen := e.gen } ∧
        (t.pool k).head = some i ∧ t.reg (aPolCntFree k) = s.reg (aPolCntFree k) + 1)) ∧
    (s.badFree h x false = false → e.framed = true → 2 ≤ e.use →
      Completes (.polOpFree v reads) s (fun t => t.outcome = (if worn k i then 3 else 0) ∧
        t.entry k i = { e with use := e.use - 1 } ∧ (t.pool k).head = (s.pool k).head)) ∧
    (s.badFree h x false = false → e.framed = true → e.use = 1 → s.pol.marks.contains e.fh = true →
      Completes (.polOpFree v reads) s (fun t => t.outcome = (if worn k i then 3 else 0) ∧
        t.entry k i = { e with use := 0, held := true } ∧ (t.pool k).head = (s.pool k).head)) ∧
    (s.badFree h x false = true → Completes (.polOpFree v reads) s (fun t => t.outcome = 2 ∧ t.pol = s.pol ∧
      t.flag aPolErr 0 = true ∧ t.reg aPolCntBadfree = s.reg aPolCntBadfree + 1)) ∧
    (k < 6 → i < s.poolCount k → e.quar = true → e.alloc = false →
      top ≤ base ∨ base + classSize k ≤ s.stack.metadata.1 →
      Completes (.polOpQrel v true) s (fun t => t.outcome = 0 ∧ t.entry k i = { e with quar := false } ∧
        ((s.pool k).off.contains i = true → (t.pool k).head = some i) ∧ zeros (base + 16) t) ∧
      Completes (.polOpQrel v false) s (fun t => t.outcome = 3 ∧ t.entry k i = e ∧ zeros base t))

/-- A refresh moves its bank to the next of 512 rows and changes nothing else. The scrubber, unless SCRUB stops it, moves to
the next granule; a clean read changes nothing else, by the scrubber or another reader; a correctable error of an
unpoisoned granule is counted; and a granule found uncorrectable is poisoned, counted, flagged in STK_ERR, puts the pool
buffer that holds it into quarantine, and retires the slot whose frame it is. One flipped copy of a granule's poison bit
leaves what the granule reads as, two poison it. A live repair gives the row the lowest spare of its bank that is not in
use, and is refused where none is left, with a bit of STK_ERR. -/
def Obligations.StackMaintenance : Prop :=
  ∀ s : State,
    (∀ bank < 512, Completes (.refresh bank) s (fun t =>
      (∀ b, tabGet 0 t.stack.nextRow b =
        if b = bank then (tabGet 0 s.stack.nextRow bank + 1) % 512 else tabGet 0 s.stack.nextRow b) ∧
      SameRegsBut [] s t ∧ SameMemory s t)) ∧
    (∀ g < 2 ^ 27,
      let at_ := fun (t : State) => t.stack.scrub = (if s.f aStkCtrl 7 0 = 0 then s.stack.scrub else (g + 1) % 2 ^ 27)
      Completes (.scrubRead g .clean []) s (fun t => at_ t ∧ SameRegsBut [] s t ∧ SameMemory s t) ∧
      Completes (.scrubRead g .correctable []) s (fun t => at_ t ∧ SameMemory s t ∧
        t.reg aStkCntCe = s.reg aStkCntCe + (if s.granulePoison g then 0 else 1)) ∧
      (s.granulePoison g = false → Completes (.scrubRead g .uncorrectable []) s (fun t => at_ t ∧
        t.granulePoison g = true ∧ t.reg aStkCntUe = s.reg aStkCntUe + 1 ∧ t.flag aStkErr 0 = true ∧ t.hbm = s.hbm ∧
        (s.bufAt (g * 32) = none → t.stk = s.stk) ∧ (∀ c i, s.bufAt (g * 32) = some (c, i) → (t.entry c i).quar = true) ∧
        ∀ n, s.slotAt (g * 32) = some n → n ∈ t.car.bad)) ∧
      ((∀ c < 3, 3 * g + c ∉ s.stkPoison) → ∀ c < 3,
        Completes (.scrubRead g .clean [c]) s (fun t => t.granulePoison g = false ∧ t.stk = s.stk) ∧
        ∀ d < 3, c ≠ d → Completes (.scrubRead g .clean [c, d]) s (fun t => t.granulePoison g = true))) ∧
    (∀ bank row, bank < 512 → row < 512 → s.portShut = false → s.dark = false →
      (∀ i, (List.range 64).find? (fun k => !(s.sparesUsed bank).contains k) = some i →
        Completes (.rowRepair bank row) s (fun t => t.outcome = 0 ∧ tabFind t.stack.repairs (bank * 512 + row) = some i ∧
          t.reg aStkCntRepair = s.reg aStkCntRepair + 1 ∧ SameMemory s t)) ∧
      ((∀ i < 64, i ∈ s.sparesUsed bank) → Completes (.rowRepair bank row) s (fun t => t.outcome = 2 ∧
        t.flag aStkErr 2 = true ∧ t.stack.repairs = s.stack.repairs)))

/-- A sample of the four layers and the logic shows each temperature. A hotter band is taken at once. Above 95 °C STK_ERR
shows it; above 105 °C the duty is 1; from 110 °C on the engine is halted. Once 10 ms have passed since the stack cooled
below its band's edge, the band moves one step down. -/
def Obligations.TemperatureBands : Prop :=
  ∀ (s : State) (a b c d l : Nat), a < 256 → b < 256 → c < 256 → d < 256 → l < 256 →
    let hot := max (max a b) (max c d)
    let band := s.f aStkTemp 33 32
    Completes (.tempSample [a, b, c, d] l) s (fun t =>
      t.f aStkTemp 7 0 = a ∧ t.f aStkTemp 15 8 = b ∧ t.f aStkTemp 23 16 = c ∧ t.f aStkTemp 31 24 = d ∧
      t.f aPwrTemp 7 0 = l ∧ t.f aStkTemp 33 32 = max band (bandOf hot) ∧
      (95 < hot → t.flag aStkErr 1 = true) ∧ (105 < max hot l → t.f aPwrCap 12 8 = 1) ∧
      (110 ≤ max hot l → t.pwr.halted = true) ∧ (max hot l < 110 → t.pwr.halted = s.pwr.halted) ∧ t.stk = s.stk) ∧
    (∀ t0, s.stack.coolSince = some t0 → band ≠ 0 → t0 + 10000000 ≤ s.tb →
      Completes .bandCool s (fun t => t.f aStkTemp 33 32 + 1 = band ∧ SameRegsBut [aStkTemp] s t ∧ SameMemory s t))

/-- While the engine answers, software takes out an island in service (refused for one whose loss is fatal): at once, but a
cube group that a tile uses at its tile boundary, and a port whose link is up once its requests are answered. It asks for
the test of one out of service (refused for a retired one). The oldest test that waits
starts while fewer than four run. An island that passes is back in service, a lane or a port through its own unit and a
cube group at its partition's step boundary, or, under a live repair, at its tile boundary; one that fails stays out, or halts the engine where it is part of the
stack. -/
def Obligations.IslandsLeaveAreTestedAndReturn : Prop :=
  ∀ (s : State) (i : Nat),
    (s.dark = false →
      (i < 264 → islFatal i = false → s.islState i = 0 → s.mgt.tests.contains i = false →
        (islGroup i && s.tileUses (i - 128)) = false → (islPort i && s.link (i - 160) == 2) = false →
        Completes (.islandTakeOut i) s (fun t => t.outcome = 0 ∧ t.islState i = 1 ∧ t.f aMgtIslSel 8 0 = i ∧
          t.mgt.testQ = s.mgt.testQ.filter (· != i))) ∧
      (islGroup i = true → s.islState i = 0 → s.tileUses (i - 128) = true → Completes (.islandTakeOut i) s (fun t =>
        t.outcome = 0 ∧ i - 128 ∈ t.mgt.leaving ∧ t.islState i = 0)) ∧
      (islPort i = true → s.islState i = 0 → s.link (i - 160) = 2 → Completes (.islandTakeOut i) s (fun t =>
        t.outcome = 0 ∧ t.flag (aFabState (i - 160)) 8 = true ∧ t.islState i = 0)) ∧
      (islFatal i = true ∨ 264 ≤ i → exec (.islandTakeOut i) s = .next s.refuse) ∧
      (i < 264 → s.islState i = 1 ∨ (s.islState i = 0 ∧ islStack i = true) → i ∉ s.mgt.testQ →
        Completes (.islandTestReturn i) s (fun t => t.outcome = 0 ∧ t.mgt.testQ = s.mgt.testQ ++ [i] ∧
          t.islState i = s.islState i)) ∧
      (s.islState i = 2 → exec (.islandTestReturn i) s = .next s.refuse)) ∧
    (∀ rest, i < 264 → s.mgt.testQ = i :: rest → s.mgt.tests.length < 4 →
      Completes .islandTestStart s (fun t => t.islState i = 3 ∧ t.mgt.testQ = rest ∧ t.mgt.tests = s.mgt.tests ++ [i] ∧
        SameMemory s t)) ∧
    (i < 264 → i ∈ s.mgt.tests →
      ((islGroup i = true → ∀ p, s.groupOwner (i - 128) = some p →
          if i - 128 ∈ s.mgt.repairing then s.tileRuns p = false else s.atBoundary p = true) →
        Completes (.islandTestDone i true) s (fun t => t.islState i = (if islLane i || islPort i then 1 else 0) ∧
          i ∉ t.mgt.tests ∧ SameMemory s t)) ∧
      (islStack i = true → Completes (.islandTestDone i false) s (fun t => t.pwr.halted = true ∧ i ∉ t.mgt.tests)) ∧
      (islStack i = false → Completes (.islandTestDone i false) s (fun t => (t.islState i = 1 ∨ t.islState i = 2) ∧
        i ∉ t.mgt.tests)))

/-- The onset of a stretch of an island's clock is counted, in CLK_CNT_STRETCH and for the island, which stands stretched
until it recovers. A gating of the clock of an island in service is counted. When the PLL loses lock while READY, LOCK
is 0 and the engine halts, with READY at 0. When the host fabric refuses a write of a step, the oldest running or
draining step of the context that has not ended yet is aborted with end code 0x32. -/
def Obligations.ClockEventsAreCounted : Prop :=
  ∀ (s : State) (i : Nat),
    (i < 264 → s.islState i = 0 ∨ s.islState i = 3 → i ∉ s.mgt.stretched →
      Completes (.droopDetect i) s (fun t => t.reg aClkCntStretch = s.reg aClkCntStretch + 1 ∧ i ∈ t.mgt.stretched ∧
        tabGet 0 t.mgt.stretches i = min (tabGet 0 s.mgt.stretches i + 1) (2 ^ 32 - 1) ∧
        SameRegsBut [aClkCntStretch] s t ∧ SameMemory s t)) ∧
    Completes (.droopRecover i) s (fun t => t.mgt.stretched = setErase s.mgt.stretched i ∧ SameRegsBut [] s t ∧
      SameMemory s t) ∧
    (i < 264 → s.islState i = 0 → Completes (.islandClockGate i) s (fun t =>
      t.reg aClkGate = s.reg aClkGate + 1 ∧ SameRegsBut [aClkGate] s t ∧ SameMemory s t)) ∧
    (s.flag aClkPll 0 = true → s.ready = true → s.pwr.halted = false → Completes .pllUnlock s (fun t =>
      t.flag aClkPll 0 = false ∧ t.pwr.halted = true ∧ t.ready = false ∧ t.stk = s.stk)) ∧
    (∀ x u, s.halted = false →
      s.rgm.steps.find? (fun t => t.desc.ctx == x && (t.phase == .running || t.phase == .draining) && t.abort == 0) = some u →
      Completes (.hostWriteRefused x) s (fun t => StepHas t x u.desc.step (fun w => w.phase = .draining ∧ w.abort = 0x32) ∧
        t.hbm = s.hbm))

/-- Outside reset a request shows its state and its cap (0 means 190) at once. A move between Run and Idle, to Off, or to
Retain with no context held and no twin, is under way from then on; a request for Retain that finds either is denied
with a bit of PWR_ERR. A move that completes shows in PS_ACK. At the end of a window the estimate is shown, the energy
is added, and the duty moves a step down where the estimate is within 20 W of the cap, up where it is more than 24 W
below. -/
def Obligations.PowerStatesMove : Prop :=
  ∀ s : State,
    (∀ r, s.pwr.inReset = false → Completes (.powerStateRequest r) s (fun t =>
      let now := s.f aPwrState 1 0
      let cap := r / 4 % 256
      t.f aPwrState 3 2 = r % 4 ∧ t.f aPwrCap 7 0 = (if cap = 0 then 190 else cap) ∧ t.f aPwrState 1 0 = now ∧
      (r % 4 ≠ s.f aPwrState 3 2 → s.pwr.target = none → now ≠ r % 4 → 2 ≤ now →
        (r % 4 ≠ 1 ∨ s.mayRetain = true → t.pwr.target = some (r % 4)) ∧
        (r % 4 = 1 → s.mayRetain = false → t.pwr.target = none ∧ t.flag aPwrErr 2 = true)))) ∧
    (∀ d, s.pwr.target = some d → s.f aPwrState 3 2 = d → (d = 3 → s.f aPwrState 1 0 ≠ 1) →
      (d = 2 → s.rgm.steps.all (fun t => t.phase == .queued) = true) → (d = 1 → s.mayRetain = true) →
      Completes .powerStateReached s (fun t => t.f aPwrState 1 0 = d ∧ t.pwr.target = none ∧
        t.hbm = s.hbm ∧ t.flash = s.flash ∧ (d ≠ 0 → t.stk = s.stk))) ∧
    (∀ est, s.dark = false → 3 ≤ s.f aPwrBoot 3 0 → Completes (.powerCapWindow est) s (fun t =>
      let cap := 10 * s.f aPwrCap 7 0
      let duty := s.f aPwrCap 12 8
      t.f aPwrCap 31 16 = min est 65535 ∧
      t.reg aPwrCntEnergy = s.reg aPwrCntEnergy + word ((tabGet 0 s.pwr.frac 4096 + est * 4096) / 18) ∧
      t.f aPwrCap 12 8 = (if s.pwr.thermal = true then 1 else if cap < est + 200 then max 1 (duty - 1)
        else if est + 240 < cap then min 16 (duty + 1) else duty) ∧ SameMemory s t))

/-- After reset or an accepted restart, start-up runs its phases in order. Where an image is accepted and its tables agree,
the PLL locks, no interface lane fails at the limits the image selects and no row is bad, it ends with READY, phase 9 and
power state Run, unless the image names a twin, for which READY may wait. With no acceptable image it stops at phase 2 with FAIL. A restart that nothing
holds up is performed: nothing of the engine's work is held afterwards, and start-up is due. -/
def Obligations.StartUpReachesReady : Prop :=
  ∀ (s : State) (env : BootEnv),
    (s.pwr.inReset = true ∨ s.pwr.booting = true →
      let s0 : State := { s.boot1 with fab := { s.boot1.fab with vacant := env.vacant } }
      (∀ i u, ((s0.setF aPwrBoot 3 0 2).chooseLog).bootImage = (some i, u) → i.sfuOk = true → env.pllLocks = true →
        lanesBad ((i.extra 3 0x1000140).getD 0 % 2 == 1) env.margins = [] → env.badRows = [] → i.section? 6 = none →
        Completes (.startUp env) s (fun t => t.ready = true ∧ t.f aPwrBoot 3 0 = 9 ∧ t.f aPwrState 1 0 = 3 ∧
          t.pwr.inReset = false ∧ t.pwr.booting = false ∧ t.flag aClkPll 0 = true)) ∧
      (∀ u, ((s0.setF aPwrBoot 3 0 2).chooseLog).bootImage = (none, u) →
        Completes (.startUp env) s (fun t => t.f aPwrBoot 3 0 = 2 ∧ t.flag aPwrBoot 5 = true ∧ t.hbm = s.hbm))) ∧
    (s.dark = false → s.halted = false → s.loadedCtxs = [] → s.f aCfgUpdCtrl 9 8 = 0 → s.pwr.booting = false →
      Completes .restart s (fun t => t.outcome = 0 ∧ t.pwr.booting = true ∧ t.rgm.steps = [] ∧ t.car.slots = [] ∧
        t.fab.reqs = [] ∧ t.tb = s.tb ∧ t.hbm = s.hbm ∧ t.flash = s.flash ∧ t.cfg.fuses = s.cfg.fuses ∧
        ∀ i ∈ s.mgt.worn, i ∈ t.mgt.worn))

/-- While the engine answers: OPEN erases the header sector of the inactive bank and holds the session for its port, and is
refused with reason 0x01 while one is open. A WRITE of whole pages, in sectors the session has not reached before and
that program well, leaves its data in the flash; a page that programs badly ends it with outcome 3 and reason 0x03. An
image whose checks find an error is not committed, and ERR tells why; a good one is committed over an erased header. An
ABORT closes the session, and so do 10 seconds without an operation. -/
def Obligations.UpdateSessionsProgramTheInactiveBank : Prop :=
  ∀ s : State, s.dark = false →
    let base := bankBase s.inactive
    let mine := fun p => s.f aCfgUpdCtrl 9 8 ≠ 0 ∧ s.f aCfgUpdCtrl 6 5 = p
    let err := fun (t : State) => t.f aCfgUpdCtrl 23 16
    let i3c := fun (t : State) => t.i3cReply
    let opened := fun (p : Nat) (t : State) => t.f aCfgUpdCtrl 9 8 = 1 ∧ t.f aCfgUpdCtrl 6 5 = p ∧
      (∀ b, base ≤ b → b < base + 65536 → cellGet 0xFF t.flash b = 0xFF) ∧
      (∀ b, b < base ∨ base + 65536 ≤ b → cellGet 0xFF t.flash b = cellGet 0xFF s.flash b)
    let shut := fun (t : State) => t.f aCfgUpdCtrl 9 8 = 0 ∧ t.flash = s.flash
    (s.f aCfgUpdCtrl 9 8 = 0 →
      Completes .updOpen s (fun t => t.outcome = 0 ∧ opened 1 t) ∧
      Completes .i3cUpdOpen s (fun t => i3c t = some (0, []) ∧ opened 2 t)) ∧
    (s.f aCfgUpdCtrl 9 8 ≠ 0 →
      Completes .updOpen s (fun t => t.outcome = 2 ∧ err t = 1 ∧ t.flash = s.flash) ∧
      Completes .i3cUpdOpen s (fun t => i3c t = some (2, []) ∧ err t = 1 ∧ t.flash = s.flash)) ∧
    (∀ k, mine 1 → 1 ≤ k → s.f aCfgUpdSrc 47 0 % 256 = 0 → s.f aCfgUpdOfs 57 32 = 256 * k →
      let o := s.f aCfgUpdOfs 25 0
      o % 256 = 0 → 0x1000 ≤ o → o + 256 * k ≤ 0x2000000 → (∀ e ∈ s.cfg.erased, (e + 1) * 65536 ≤ o ∨ o + 256 * k ≤ e * 65536) →
      Completes (.updWrite none) s (fun t => t.outcome = 0 ∧
        t.flashRead (base + o) (256 * k) = s.hbmRead (s.f aCfgUpdSrc 47 0) (256 * k) ∧ t.hbm = s.hbm) ∧
      Completes (.updWrite (some 0)) s (fun t => t.outcome = 3 ∧ err t = 3)) ∧
    (∀ o (page : Bytes), mine 2 → page.length = 256 → o % 256 = 0 → 0x1000 ≤ o → o + 256 ≤ 0x2000000 →
      o / 65536 ∉ s.cfg.erased →
      Completes (.i3cUpdWrite o page true) s (fun t => i3c t = some (0, []) ∧ t.flashRead (base + o) 256 = page)) ∧
    (∀ n d, mine 2 → n < 16 → d.length = 256 → Completes (.updHdr n d) s (fun t =>
      i3c t = some (0, []) ∧ tabFind t.cfg.pieces n = some d ∧ t.flash = s.flash)) ∧
    (∀ p hdr c, (p = 1 ∧ c = .updCommit true ∧ hdr = s.hbmRead (s.f aCfgUpdSrc 47 0) 4096) ∨
        (p = 2 ∧ c = .i3cUpdCommit true ∧ s.cfg.pieces.length = 16 ∧ hdr = s.cfg.pieces.flatMap (·.2)) → mine p →
      let e := s.commitErr { hdr := hdr, body := s.flashRead (base + 0x1000) (hdrLen hdr) }
      (e ≠ 0 → Completes c s (fun t => err t = e ∧ t.flash = s.flash ∧ (if p = 1 then t.outcome = 3 else i3c t = some (3, [])))) ∧
      (e = 0 → s.flashRead base hdr.length = List.replicate hdr.length 0xFF → Completes c s (fun t =>
        t.flashRead base hdr.length = hdr ∧ t.flag aCfgStat 2 = true ∧ t.f aCfgUpdCtrl 9 8 = 0 ∧
        t.reg aCfgCntUpd = s.reg aCfgCntUpd + 1 ∧ (if p = 1 then t.outcome = 0 else i3c t = some (0, []))))) ∧
    (mine 1 → Completes .updAbort s (fun t => t.outcome = 0 ∧ shut t)) ∧
    (mine 2 → Completes .i3cUpdAbort s (fun t => i3c t = some (0, []) ∧ shut t)) ∧
    (s.f aCfgUpdCtrl 9 8 ≠ 0 → s.cfg.lastOp + 1000000000 ≤ s.tclk →
      Completes .updateSessionTimeout s (fun t => shut t ∧ err t = 0x19))

/-- While the engine answers: without GO, or while an apply is under way, a write of CFG_APPLY only stores its mask. With none
under way, an apply of sections that may change live, of a committed image with a valid header, is performed: it ends with
result 2 where a program is refused, with result 0 where PARTITION is not named, with the result of its writes where no
partition changes, and else is under way, BUSY and GO at 1, with the partitions that change. Once
none of them moves, their writes are made, all or none, with result 0 or 2; a wait of more than 1 s ends with result 2.
CFG_RD with GO copies aligned bytes of the flash to host memory. -/
def Obligations.LiveSectionsApply : Prop :=
  ∀ s : State,
    (∀ v : Word, s.dark = false →
      let mask := fld v.toNat 15 0
      (s.flag aCfgApply 17 = true ∨ bitAt v.toNat 16 = false → Completes (.cfgApply v) s (fun t =>
        t.outcome = 0 ∧ t.f aCfgApply 15 0 = mask ∧ t.f aCfgApply 19 16 = s.f aCfgApply 19 16 ∧
        SameRegsBut [aCfgApply] s t ∧ SameMemory s t ∧ t.cfg = s.cfg)) ∧
      (s.flag aCfgApply 17 = false → bitAt v.toNat 16 = true → fld mask 3 0 = 0 → fld mask 6 5 = 0 → fld mask 15 10 = 0 → s.ready = true →
        s.flag aCfgStat 2 = true → hdrValid (s.bankHdr s.inactive) = true →
        let r := (s.setF aCfgApply 15 0 mask).applyNow s.committed mask
        let ps := r.2.changedParts (s.committed.values 7)
        Completes (.cfgApply v) s (fun t => t.outcome = 0 ∧
          (r.1 = false → t.f aCfgApply 19 16 = 8 ∧ t.cfg.applyFrom = none) ∧
          (r.1 = true → bitAt mask 7 = false → t.f aCfgApply 19 16 = 0 ∧ t.cfg.applyFrom = none) ∧
          (r.1 = true → bitAt mask 7 = true → ps = [] → t.cfg.applyFrom = none ∧
            t.f aCfgApply 19 16 = (if (r.2.writeParts (s.committed.values 7)).isSome then 0 else 8)) ∧
          (r.1 = true → bitAt mask 7 = true → ps ≠ [] → t.f aCfgApply 19 16 = 3 ∧ t.cfg.applyFrom = some (r.2.tclk, ps) ∧
            t.cfg.applyMask = mask))) ∧
      (s.flag aCfgApply 17 = false → bitAt v.toNat 16 = true → s.ready = false →
        exec (.cfgApply v) s = .next s.refuse)) ∧
    (∀ t0 ps, s.cfg.applyFrom = some (t0, ps) →
      (ps.any s.partMoving = false → Completes .cfgApplyPartition s (fun t => t.cfg.applyFrom = none ∧
        t.flag aCfgApply 17 = false ∧
        t.f aCfgApply 19 18 = (if (s.writeParts (s.committed.values 7)).isSome then 0 else 2) ∧ t.hbm = s.hbm)) ∧
      (ps.any s.partMoving = true → exec .cfgApplyPartition s = .next s) ∧
      (t0 + 100000000 < s.tclk → Completes .cfgApplyTimeout s (fun t => t.cfg.applyFrom = none ∧
        t.flag aCfgApply 17 = false ∧ t.f aCfgApply 19 18 = 2 ∧ SameRegsBut [aCfgApply] s t ∧ SameMemory s t))) ∧
    (∀ v : Word, s.dark = false → bitAt v.toNat 63 = true →
      let a := fld v.toNat 31 0
      let n := fld v.toNat 56 32
      let d := s.f aCfgRdDst 47 0
      a % 128 = 0 → n % 128 = 0 → d % 128 = 0 → n ≤ 16777216 → a + n ≤ 134217728 →
      Completes (.cfgRd v) s (fun t => t.outcome = 0 ∧ HbmHolds t d (s.flashRead a n) ∧ SameHbmBut d n s t ∧
        t.flash = s.flash ∧ SameRegsBut [aCfgRd] s t))

/-- While the engine answers: a nonce draw shows four fresh words of entropy in SEC_NONCE and makes them the nonce. A command
block that passes every check is performed and counted: DEBUG_UNLOCK opens the lock and takes READY away, REVOKE revokes
its slot, ARB_COMMIT sets the anti-rollback value, PROGRAM_SLOT burns the hash and marks the slot programmed (outcome 3,
with a bit of SEC_ERR, where the fuses read back otherwise). One that fails a check, or is read poisoned, is refused, with the
reason in SEC_STAT and no fuse changed. By the test access port an empty block draws a nonce, and another is handled the same way.
RELOCK closes the lock. -/
def Obligations.SignedCommandsAct : Prop :=
  ∀ (s : State) (v : Word), s.dark = false →
    let a := fld v.toNat 47 0
    let b := s.hbmRead a 320
    let f := s.cfg.fuses
    let k := cmdArg b
    let row := fun (good : Bool) => if cmdOf b = 1 then Instr.debugUnlock v else if cmdOf b = 2 then .revoke v
      else if cmdOf b = 3 then .arbCommit v else .programSlot v good
    let performed := fun (b : Bytes) (t : State) => t.f aSecStat 23 16 = 0 ∧ t.reg aSecCntCmd = s.reg aSecCntCmd + 1 ∧
      (cmdOf b = 1 → t.flag aSecStat 2 = false ∧ t.flag aSecStat 3 = true ∧ t.ready = false ∧ t.flag aSecErr 1 = true ∧
        t.cfg.fuses = f ∧ t.rgm.steps = [] ∧ t.car.slots = []) ∧
      (cmdOf b = 2 → t.cfg.fuses = f.revoke (cmdArg b) ∧ SameMemory s t) ∧
      (cmdOf b = 3 → t.cfg.fuses = { f with arb := cmdArg b } ∧ SameMemory s t) ∧
      (cmdOf b = 4 → t.cfg.fuses = (f.burn (cmdArg b) (beNat (sliceBytes b 0x28 48))).setProg (cmdArg b) ∧ SameMemory s t)
    let turned := fun (e : Nat) (t : State) => t.f aSecStat 23 16 = e ∧ t.flag aSecErr 0 = true ∧ t.cfg.fuses = f ∧
      SameMemory s t ∧ t.reg aSecCntCmd = s.reg aSecCntCmd
    let drawn := fun (t : State) => t.cfg.nonceAt = some s.tb ∧ ∀ i < 4, t.reg (aSecNonce i) = Config.entropy (s.freeCtr + i)
    Completes .nonceDraw s (fun t => drawn t ∧ t.reply.1 = Config.entropy s.freeCtr ∧ t.outcome = 0 ∧ SameMemory s t) ∧
    Completes (.secchal []) s (fun t => drawn t ∧ t.tap.ir = 0x0F ∧ SameMemory s t) ∧
    (a % 64 = 0 → s.hbmPoisoned a 320 = false → s.cmdErr b = 0 →
      Completes (row true) s (fun t => t.outcome = 0 ∧ performed b t) ∧
      (cmdOf b = 4 → Completes (row false) s (fun t => t.outcome = 3 ∧ t.flag aSecErr 2 = true ∧
        t.cfg.fuses.prog k = f.prog k ∧ t.reg aSecCntCmd = s.reg aSecCntCmd))) ∧
    (a % 64 = 0 → s.hbmPoisoned a 320 = false → s.cmdErr b ≠ 0 → ∀ good,
      Completes (row good) s (fun t => t.outcome = 2 ∧ turned (s.cmdErr b) t)) ∧
    (a % 64 = 0 → s.hbmPoisoned a 320 = true → ∀ good, Completes (row good) s (fun t => t.outcome = 2 ∧ turned 1 t)) ∧
    (∀ c : Bytes, c ≠ [] →
      (s.cmdErr c = 0 → Completes (.secchal c) s (fun t => t.tap.tdo = 0 ∧ performed c t)) ∧
      (s.cmdErr c ≠ 0 → Completes (.secchal c) s (fun t => t.tap.tdo = 2 ∧ turned (s.cmdErr c) t))) ∧
    Completes .relock s (fun t => t.flag aSecStat 2 = true ∧ t.outcome = 0 ∧ SameMemory s t)

/-- While the engine answers: an acknowledgement of a number after the last one acknowledged and not after the newest becomes
the last one acknowledged and is counted; one ahead of the newest event is refused and changes no register; one already
acknowledged changes none either. By the I3C target WRREG does the same, keeping its outcome for the read, and any other
register but MGT_ISL_SEL is refused there. A read of ATN_ESEQ shows it and covers every event readable so far. -/
def Obligations.AttentionIsAcknowledged : Prop :=
  ∀ (s : State) (v : Word), s.dark = false →
    let n := fld v.toNat 15 0
    let newest := s.f aAtnCause 15 0
    let ack := s.f aAtnCause 63 48
    (serialAfter 16 n newest = true → exec (.atnAck v) s = .next s.refuse ∧
      Completes (.wrreg aAtnAck v) s (fun t => t.i3cReply = some (2, []) ∧ SameRegsBut [] s t)) ∧
    (serialAfter 16 n newest = false → serialAfter 16 n ack = true →
      Completes (.atnAck v) s (fun t => t.outcome = 0 ∧ t.f aAtnCause 63 48 = n ∧
        (s.regN aAtnEseq < 64 → t.flag aAtnCause 36 = false) ∧ t.reg aAtnCntAck = s.reg aAtnCntAck + 1 ∧ SameMemory s t ∧ t.rgm = s.rgm) ∧
      Completes (.wrreg aAtnAck v) s (fun t => t.i3cReply = some (0, []) ∧ t.f aAtnCause 63 48 = n ∧
        t.reg aMgtCntI3c = s.reg aMgtCntI3c + 1 ∧ t.reply = s.reply)) ∧
    (serialAfter 16 n newest = false → serialAfter 16 n ack = false → exec (.atnAck v) s = .next s.done) ∧
    (∀ a, aliasTarget a ≠ aAtnAck → aliasTarget a ≠ aMgtIslSel → Completes (.wrreg a v) s (fun t =>
      t.i3cReply = some (2, []) ∧ SameRegsBut [] s t ∧ SameMemory s t)) ∧
    Completes .atnEseqRead s (fun t => t.reply.1 = s.reg aAtnEseq ∧ t.outcome = 0 ∧ t.atn.seen = s.regN aAtnEseq ∧
      t.atn.lossRaised = false ∧ SameRegsBut [] s t ∧ SameMemory s t)

/-- While the engine answers: a target without a dynamic address takes the one it is assigned, or counts that it withdrew;
SETNEWDA replaces it and RSTDAA gives it up. GETPID, GETBCR, GETDCR, GETMRL, GETMWL and GETSTATUS drive constants. A
private command keeps its outcome and its reply data for the read, and one not refused is counted: RDREG the register's
value, TELEM the six words of the telemetry block, LOGRD bytes of the log banks. The read drives the outcome with the
attention level, the length and the data, and nothing is pending after it. -/
def Obligations.I3cTargetAnswers : Prop :=
  ∀ s : State, s.dark = false →
    let quiet := fun (t : State) => SameRegsBut [] s t ∧ SameMemory s t ∧ t.i3cReply = s.i3cReply
    (∀ a : Nat, s.hasDa = false → ∀ c, (c = Instr.entdaa a true ∨ c = .setdasa a true) → Completes c s (fun t =>
      t.f aMgtI3c 14 8 = a % 128 ∧ t.hasDa = true ∧ SameRegsBut [aMgtI3c] s t)) ∧
    (∀ a : Nat, s.hasDa = false → ∀ c, (c = Instr.entdaa a false ∨ c = .setdasa a false) → Completes c s (fun t =>
      t.reg aMgtCntDaaWd = s.reg aMgtCntDaaWd + 1 ∧ t.hasDa = false ∧ SameRegsBut [aMgtCntDaaWd] s t)) ∧
    (∀ a : Nat, s.hasDa = true → Completes (.setnewda a) s (fun t =>
      t.f aMgtI3c 14 8 = a % 128 ∧ t.hasDa = true ∧ SameRegsBut [aMgtI3c] s t)) ∧
    Completes .rstdaa s (fun t => t.hasDa = false ∧ t.f aMgtI3c 14 8 = 0 ∧ SameRegsBut [aMgtI3c] s t) ∧
    Completes .getpid s (fun t => t.i3cOut = natBe 6 s.pid ∧ quiet t) ∧
    Completes .getbcr s (fun t => t.i3cOut = [0] ∧ quiet t) ∧ Completes .getdcr s (fun t => t.i3cOut = [0] ∧ quiet t) ∧
    Completes .getstatus s (fun t => t.i3cOut = [0, 0] ∧ quiet t) ∧
    Completes .getmrl s (fun t => t.i3cOut = [0x10, 0x08] ∧ quiet t) ∧
    Completes .getmwl s (fun t => t.i3cOut = [0x10, 0x08] ∧ quiet t) ∧
    (∀ a, a % 8 = 0 → a < 0x1000000 → (regRow (aliasTarget a)).isSome = true →
      (s.portShut = true → earlyBlock (aliasTarget a) = true) → aliasTarget a ≠ aAtnEseq → aliasTarget a ≠ aSecNonce 0 →
      Completes (.rdreg a) s (fun t => t.i3cReply = some (0, natLe 8 (s.value (aliasTarget a)).toNat) ∧
        t.reg aMgtCntI3c = s.reg aMgtCntI3c + 1 ∧ t.reply = s.reply ∧ SameRegsBut [aMgtCntI3c] s t ∧ SameMemory s t)) ∧
    Completes .telem s (fun t => t.i3cReply = some (0,
      [aPwrTemp, aStkTemp, aPwrCap, aPwrBoot, aTwnState, aAtnCause].flatMap (fun a => natLe 8 (s.value a).toNat)) ∧
      t.reg aMgtCntI3c = s.reg aMgtCntI3c + 1 ∧ SameRegsBut [aMgtCntI3c] s t) ∧
    (∀ a n, Completes (.logrd a n) s (fun t => t.i3cReply =
      (if 0x4000000 ≤ a ∧ a + n ≤ 0x4200000 ∧ 1 ≤ n ∧ n ≤ 4096 then some (0, s.flashRead a n) else some (2, [])) ∧
      SameMemory s t)) ∧
    (∀ r, s.i3cReply = some r → Completes .i3cReadReply s (fun t => t.i3cReply = none ∧ SameRegsBut [] s t ∧
      t.i3cOut = natLe 1 (r.1 + 4 * s.f aAtnCause 35 34) ++ natLe 2 r.2.length ++ r.2)) ∧
    (s.i3cReply = none → Completes .i3cReadReply s (fun t => t.i3cOut = natLe 1 (4 * s.f aAtnCause 35 34) ++ [0, 0]))

/-- While the engine answers, a SLICE packet that keeps every rule and binds no frame writes its rows to host memory, raises
the counter it names, charges the context, and stands first in the slice table, which keeps the newest 4,096; SL_STAT shows
0. One that binds its rows also holds them in a pool buffer, FRAMED with one use under its frame handle. MARK sets a frame
handle's mark and UNMARK clears it, freeing every buffer held for it. A packet that breaks a rule is refused with
SL_STAT 2, as is one whose window check fails, which MSF_CNT_REFUSE counts. -/
def Obligations.SlicesAndMarks : Prop :=
  ∀ (s : State) (h : BitVec 256) (rows : Bytes), s.dark = false →
    let ok := fun (t : State) => t.slStat.toNat % 4 = 0
    (slKind h = 1 → s.slBad h = false → sliceBad h rows = false → s.sliceWindow h = none → fld h.toNat 44 44 = 0 →
      Completes (.slice h rows) s (fun t => ok t ∧ HbmHolds t (slAddr h) rows ∧ SameHbmBut (slAddr h) rows.length s t ∧
        t.reg (aCtr (fld h.toNat 127 112)) = s.reg (aCtr (fld h.toNat 127 112)) + 1 ∧
        t.reg (aAccHbm (slCtx h)) = s.reg (aAccHbm (slCtx h)) + word rows.length ∧ t.slices = (sliceEnt h :: s.slices).take 4096 ∧ t.stk = s.stk ∧ t.pol = s.pol)) ∧
    (∀ c i, slKind h = 1 → s.slBad h = false → sliceBad h rows = false → s.sliceWindow h = none →
      fld h.toNat 44 44 = 1 → classFor (slLen h) = some c →
      s.heldFrames (slFh h) = [] → (s.pool c).rebuilding = false → (s.pool c).head = some i → s.headGood c i = true →
      s.allocAllowed c 1 (chargeOf (slCtx h) (s.ctxPart (slCtx h))) 1 = true →
      Completes (.slice h rows) s (fun t => ok t ∧ HbmHolds t (slAddr h) rows ∧ (t.entry c i).alloc = true ∧
        (t.entry c i).framed = true ∧ (t.entry c i).use = 1 ∧ (t.entry c i).fh = slFh h ∧ (t.entry c i).owner = slCtx h ∧
        t.stkRead (s.bufAddr c i) rows.length = rows)) ∧
    (∀ e, slKind h = 1 → s.slBad h = false → sliceBad h rows = false → s.sliceWindow h = some e → Completes (.slice h rows) s
      (fun t => t.slStat.toNat % 4 = 2 ∧ t.slices = s.slices ∧ SameMemory s t ∧
        t.reg aMsfCntRefuse = s.reg aMsfCntRefuse + 1)) ∧
    (slKind h = 1 → s.slBad h = true ∨ sliceBad h rows = true → Completes (.slice h rows) s (fun t =>
      t.slStat.toNat % 4 = 2 ∧ t.slices = s.slices ∧ SameMemory s t ∧ SameRegsBut [] s t)) ∧
    (slKind h = 2 → s.slBad h = false → Completes (.mark h) s (fun t => ok t ∧ t.pol.marks = setInsert s.pol.marks (slFh h) ∧
      t.pol.pools = s.pol.pools ∧ SameRegsBut [] s t ∧ SameMemory s t)) ∧
    (slKind h = 3 → s.slBad h = false → Completes (.unmark h) s (fun t => ok t ∧ t.pol.marks = setErase s.pol.marks (slFh h) ∧
      t.hbm = s.hbm ∧ (s.heldFrames (slFh h) = [] → t.pol.pools = s.pol.pools ∧ SameRegsBut [] s t))) ∧
    (slKind h = 2 → s.slBad h = true → Completes (.mark h) s (fun t => t.slStat.toNat % 4 = 2 ∧ t.pol = s.pol)) ∧
    (slKind h = 3 → s.slBad h = true → Completes (.unmark h) s (fun t => t.slStat.toNat % 4 = 2 ∧ t.pol = s.pol))

/-- BYPASS delays a bit by one; IDCODE shifts the identity out. While the lock is closed SAMPLE/PRELOAD, EXTEST, WSEL, WIR and
WDR act as BYPASS. While it is open, SAMPLE/PRELOAD captures the pins and loads the latch, EXTEST drives it, WSEL selects
an island's wrapper, WDR shifts that wrapper's data, and WIR loads its instruction; a wrapper instruction other than 0
first takes an island in service out of service, and is not loaded for an island that cannot leave. -/
def Obligations.TestAccessPortShifts : Prop :=
  ∀ (s : State) (pins x : Nat),
    let pass := fun (ir : Nat) (t : State) => t = { s with tap := { s.tap with
      ir := ir, tdo := s.tap.bypassBit, bypassBit := x % 2, driving := false } }
    let quiet := fun (t : State) => SameRegsBut [] s t ∧ SameMemory s t ∧ t.mgt = s.mgt
    Completes (.bypass x) s (pass 0xFF) ∧
    Completes .idcode s (fun t => t.tap.ir = 1 ∧ t.tap.tdo = idcodeValue ∧ quiet t) ∧
    (s.flag aSecStat 2 = true → Completes (.samplePreload pins x) s (pass 0x02) ∧ Completes (.extest pins x) s (pass 0x03) ∧
      Completes (.wsel x) s (pass 0x10) ∧ Completes (.wir x) s (pass 0x11) ∧ Completes (.wdr x) s (pass 0x12)) ∧
    (s.flag aSecStat 2 = false →
      Completes (.samplePreload pins x) s (fun t => t.tap.tdo = pins ∧ t.tap.preload = x ∧ t.tap.driving = false ∧ quiet t) ∧
      Completes (.extest pins x) s (fun t => t.tap.tdo = pins ∧ t.tap.preload = x ∧ t.tap.driving = true ∧ quiet t) ∧
      Completes (.wsel x) s (fun t => t.tap.sel = x % 512 ∧ t.tap.tdo = s.tap.sel ∧ quiet t) ∧
      Completes (.wdr x) s (fun t => t.tap.tdo = tabGet 0 s.tap.wdr s.tap.sel ∧
        (∀ i, tabGet 0 t.tap.wdr i = if i = s.tap.sel then x else tabGet 0 s.tap.wdr i) ∧ quiet t) ∧
      (let i := s.tap.sel
        let loaded := fun (t : State) => tabGet 0 t.tap.wir i = x ∧ t.tap.tdo = tabGet 0 s.tap.wir i ∧ t.tap.ir = 0x11
        (x = 0 ∨ (i < 264 ∧ s.islState i ≠ 0) → Completes (.wir x) s (fun t => loaded t ∧ quiet t)) ∧
        (x ≠ 0 → 264 ≤ i ∨ (islFatal i = true ∧ s.islState i = 0) → Completes (.wir x) s (fun t => quiet t ∧ t.tap.wir = s.tap.wir)) ∧
        (x ≠ 0 → i < 264 → islFatal i = false → s.islState i = 0 → Completes (.wir x) s loaded)))

/-- The partition's next step starts its next tile: the tile's tokens leave the group's list and its memory stays. A finished
tile hands on its scores, residue retries being counted; a cube failure reruns it. A backward op completes and the step
goes on after its last tile. Selecting a tile records every token of it and takes it off the list, and three differences in
a row halt the engine. A round of a bounded layer counts one round up and keeps its tokens. The close counts what entered
the layer and closes it. A token that exited is counted once: the layer's arrival counter goes up by one, and, after a
forced exit, by one more for each token of count 0 that completed next, where the step's number and the layer name this
step and this layer first. -/
def Obligations.TilesAreScoredAndSelected : Prop :=
  ∀ (s : State),
    (∀ p box t g r, s.groupsLeave.arrayNext p = some t → t.group = some g → nextTile t g box = some r →
      Completes (.scoreTileStart p box []) s (fun u => SameMemory s u ∧ StepHas u t.desc.ctx t.desc.step (fun w =>
        ∃ h k, w.group = some h ∧ h.tile = some k ∧ k.toks = r.1 ∧ h.layer = g.layer ∧
          h.untiled = g.untiled.filter (fun i => !r.1.contains i)))) ∧
    (∀ x t g tile, s.running x = some t → t.group = some g → g.tile = some tile →
      (∀ faults < 3, ∀ cube < 128, (faults ≠ 0 → cube / 4 ∈ tile.groups) →
        Completes (.scoreTileDone x (faults + 4 * cube)) s (fun u =>
        u.reg aScaCntRetry = s.reg aScaCntRetry + word faults ∧ StepHas u x t.desc.step (fun w =>
          ∃ h, w.group = some h ∧ h.tile = none ∧ h.tilesRun = g.tilesRun + 1 ∧
            h.scored = g.scored ++ [(s.scoreTile t g tile).1] ∧ (s.scoreTile t g tile).1.map (·.index) = tile.toks))) ∧
      (∀ cube < 128, cube / 4 ∈ tile.groups → Completes (.scoreTileDone x (3 + 4 * cube)) s (fun u =>
        u.reg aScaCntRerun = s.reg aScaCntRerun + 1 ∧ StepHas u x t.desc.step (fun w => w.retry = true)))) ∧
    (∀ x t o, s.running x = some t → t.atBackward = true → t.opNow = some o →
      (s.arrayNext t.part).any (fun u => u.is x t.desc.step) = true →
      ∀ faults < 3, ∀ cube < 128, (faults ≠ 0 → cube / 4 ∈ s.groupsIn t.part) →
      Completes (.opScoreBackward x (faults + 4 * cube)) s (fun u => u.stk = s.stk ∧
        (opMode o ≠ 1 ∨ t.tokens ≠ [] → u.reg aScaCntRetry = s.reg aScaCntRetry + word faults) ∧
        StepHas u x t.desc.step (fun w =>
          if opMode o ≠ 1 ∨ t.tokens.length ≤ t.backRows + t.backTile.length then
            w.op = (nextOp t.prog.ops t.iters t.op).1 ∧ w.waiting = false
          else w.op = t.op ∧ w.backRows = t.backRows + t.backTile.length))) ∧
    (∀ x t g, s.worker x = some t → t.group = some g →
      (∀ tile rest, g.scored = tile :: rest →
        Completes (.selectTile x 0) s (fun u => StepHas u x t.desc.step (fun w => ∃ h, w.group = some h ∧ h.scored = rest ∧
          ∀ q ∈ tile, ∃ k ∈ h.toks, k.index = q.index)) ∧
        ∀ d, 3 ≤ d → Completes (.selectTile x d) s (fun u => u.pwr.halted = true ∧ u.flag aSelErr 0 = true)) ∧
      (g.bounded = true → g.allSelected = true → g.round ≠ 0 → g.toks.all (·.decided) = false →
        Completes (.admissionRound x) s (fun u => StepHas u x t.desc.step (fun w => ∃ h, w.group = some h ∧
          h.round = g.round + 1 ∧ h.toks.map (·.index) = g.toks.map (·.index)))) ∧
      (g.closed = false → g.allSelected = true → g.toks.all (·.decided) = true →
        Completes (.selectionClose x) s (fun u => u.reg aSelCntToken = s.reg aSelCntToken + word g.enter.length ∧
          StepHas u x t.desc.step (fun w => ∃ h, w.group = some h ∧ h.closed = true))) ∧
      (∀ i k, g.toks.find? (fun k => k.index == i && (k.exited || k.forced) && !k.counted) = some k → g.mayCount = true →
        let ctr := aCtr (t.counterOf g)
        let counted := fun (u : State) => StepHas u x t.desc.step (fun w => ∃ h, w.group = some h ∧
          ∀ k ∈ h.toks, k.index = i → k.counted = true)
        (k.forced = false → g.finish = [] → t.prog.at g.pSelect 0x20 8 = 0 ∨ g.closed = true →
          Completes (.exitCount x i) s (fun u => u.reg ctr = s.reg ctr + 1 ∧ counted u)) ∧
        (k.forced = true → g.finish.head? = some i → s.stepOf x t.desc.step = some t → t.groupAt g.layer = some g →
          Completes (.exitCount x i) s (fun u => counted u ∧
            ∃ m, m + 1 ≤ g.finish.length ∧ u.reg ctr = s.reg ctr + 1 + word m))))

/-- A token whose turn it is binds a free slot of its partition: the slot holds its count and empty segments, and its number's
generation goes up. On a lane in service whose queue has room for a flit and on which no packet is in building, the next
packet due goes to the end of the queue, as many of its flits as there is room for: a token of this chip with its payload,
a remote choice, or the close of a batch. A packet whose end-marked flit is in the queue is counted. Taking a token's
header leaves its tile owing a return; taking a close or payload moves the queue on; a voided packet is counted nowhere. A
DROP discards the packet being read and is counted; one in the cycle that took an end-marked flit has no effect; another
with nothing being read, and an undefined command, only set CMD in LAN_ERR. Packets keep their order and their contents;
flits of one in building may join the queue as others leave it. -/
def Obligations.LanesCarryBatches : Prop :=
  ∀ (s : State) (n : Nat),
    let dq := (s.lane n).dq
    let like := fun (a b : List DPkt) => a.map (fun q => { q with built := 0 }) = b.map (fun q => { q with built := 0 })
    let built := fun (q : DPkt) => q.built = min q.total (s.dqCap n - (s.lane n).occ)
    (∀ x t g k, s.worker x = some t → t.group = some g → t.nextBind g g.enter = some k → s.slotIn t.part n = true →
      tabFind s.car.slots n = none → s.boundBy x t.desc.step < t.slotRes →
      Completes (.slotBind x n) s (fun u => tabGet 0 u.car.gens n = (tabGet 0 s.car.gens n + 1) % 65536 ∧
        ∃ p, tabFind u.car.slots n = some p ∧ p.ctx = x ∧ p.step = t.desc.step ∧ p.index = k.index ∧
          p.count = t.countOf g k ∧ p.segs.all (fun q => q.tally == 0) = true ∧ p.segs.length = t.prog.d / 32)) ∧
    (s.laneOn n = true →
      (∀ t g r e skip logical m p gate, s.laneRoom n = true →
        (s.writers n).findSome? (fun t => (s.due t n).map (fun d => (t, d))) =
          some (t, g, r, e, NextPkt.local skip logical m p gate) →
        Completes (.tokenPacketWrite n) s (fun u => ∃ q, (u.lane n).dq = dq ++ [q] ∧ q.token = true ∧ q.expert = e ∧
          q.ctx = t.desc.ctx ∧ q.index = p.index ∧ q.slot = m ∧ q.data = (s.payload t g p.index).1 ∧ q.remote = false ∧
          built q)) ∧
      (∀ t g r e skip logical rc, s.laneRoom n = true →
        (s.writers n).findSome? (fun t => (s.due t n).map (fun d => (t, d))) =
          some (t, g, r, e, NextPkt.remote skip logical rc) →
        Completes (.tokenPacketWrite n) s (fun u => ∃ q, (u.lane n).dq = dq ++ [q] ∧ q.token = true ∧ q.expert = e ∧
          q.ctx = rc.ctx ∧ q.remote = true ∧ built q)) ∧
      (∀ x t g r, s.rgm.steps.find? (fun t => t.desc.ctx == x && (s.runOn t n).isSome) = some t → s.runOn t n = some (g, r) →
        s.halted = false → t.frozen = false → s.laneHeld n x = false → s.laneRoom n = true →
        (∀ e, s.ctxState x = 3 → (s.ctx x).parkCut = true → r.expert = some e → r.partialClose = false →
          Completes (.closePacketWrite n x) s (fun u => ∃ q, (u.lane n).dq = dq ++ [q] ∧ q.token = false ∧ q.expert = e)) ∧
        (∀ e, s.writes t = true → s.laneExpert t (s.mergeRing t g) r = some e →
          s.nextOf t (s.mergeRing t g) e 0 ((t.laneSeq (s.mergeRing t g) n e).drop
            (tabGet 0 (s.mergeRing t g).sent (n * 2048 + e))) = NextPkt.none →
          t.batchEnd (s.mergeRing t g) = true → s.ringMet t (s.mergeRing t g).layer e = true →
          Completes (.closePacketWrite n x) s (fun u => ∃ q, (u.lane n).dq = dq ++ [q] ∧ q.token = false ∧ q.expert = e))) ∧
      (∀ p rest k, dq = p :: rest → 1 ≤ k →
        (p.taken = 0 → p.token = true → p.void = false → Completes (.packetTake n k) s (fun u =>
          u.reg (aLanCntToken n) = s.reg (aLanCntToken n) + 1 ∧ ∃ o, (u.lane n).owed = (s.lane n).owed ++ [o] ∧
            o.ctx = p.ctx ∧ o.step = p.step ∧ o.handle = hdrHandle p.hdr ∧ o.expert = p.expert)) ∧
        (p.taken = 0 → p.token = true → p.void = true → p.data = [] → Completes (.packetTake n k) s (fun u =>
          SameRegsBut [] s u ∧ like (u.lane n).dq rest ∧ (u.lane n).owed = (s.lane n).owed)) ∧
        (p.taken = 0 → p.token = false → p.data = [] → Completes (.packetTake n k) s (fun u =>
          u.reg (aLanCntClose n) = s.reg (aLanCntClose n) + 1 ∧ like (u.lane n).dq rest ∧
          (u.lane n).owed = (s.lane n).owed)) ∧
        (p.taken ≠ 0 → p.taken < p.total → Completes (.packetTake n k) s (fun u => SameRegsBut [] s u ∧
          (u.lane n).out.length = min k (p.total - p.taken) ∧
          like (u.lane n).dq (if p.total ≤ p.taken + k then rest else { p with taken := p.taken + k } :: rest))) ∧
        (p.taken ≠ 0 → ∀ b, Completes (.laneDrop n b) s (fun u => like (u.lane n).dq rest ∧
          u.reg (aLanCntDrop n) = s.reg (aLanCntDrop n) + 1))) ∧
      (∀ b, (s.lane n).reading = false →
        (b = false ∨ (s.lane n).ended = false → Completes (.laneDrop n b) s (fun u =>
          u.flag (aLanErr n) 4 = true ∧ u.lanes = s.lanes)) ∧
        (b = true → (s.lane n).ended = true → exec (.laneDrop n b) s = .next s)) ∧
      (∀ c, c % 16 ≠ 0 → (c % 16 = 1 → (s.lane n).reading = false) → Completes (.lcmdUndefined n c) s (fun u =>
        u.flag (aLanErr n) 4 = true ∧ u.lanes = s.lanes ∧ SameMemory s u))) ∧
    (∀ i, dq.findIdx? DPkt.countDue = some i → Completes (.dqCountUpdate n) s (fun u =>
      (u.lane n).dq = dq.modify i (fun p => { p with counted := true }) ∧ (u.lane n).pkts = (s.lane n).pkts + 1 ∧
      SameRegsBut [] s u ∧ SameMemory s u))

/-- Whatever the return queue has done before, as long as no flit found it full: a clean STORE that names a bound slot of this
chip is taken: each segment its lines cover has one contribution more, and its lines are counted; one that matches no slot
is only counted as stale. A WITHDRAW adds one to every segment of its slot. A FAULT sets its bit of LAN_ERR, and the
return it answers is owed no longer. The mixing term adds one to every segment. A complete token's output row is written;
once written, and first among the tokens that have completed and are not counted, it is counted, its arrival counter goes
up by one, and by one more for each token of count 0 that completed next, and its slot is free. A stalled step is aborted
with 0x32. PEAK_RST shows the slots bound now. -/
def Obligations.ReturnsEnterTheCarousel : Prop :=
  ∀ (s : State) (n : Nat),
    let tallies := fun (p q : Slot) (lo hi : Nat) => ∀ i : Nat, (q.segs[i]?).map (·.tally) =
      (p.segs[i]?).map (fun g => g.tally + (if lo ≤ i ∧ i < hi then 1 else 0))
    let slot := fun (u : State) (k : Nat) (P : Slot → Prop) => ∃ q, tabFind u.car.slots k = some q ∧ P q
    (∀ (h : BitVec 256) (flow : List RqFlow), s.laneOn n = true → s.halted = false → flitOk h = true →
      (s.rqFlow n flow).2 = false →
      let epl := lineElems (hdrFmt h)
      let ofs := hdrOffset h
      let k := hdrNline h
      (∀ data, hdrKind h = 3 → hdrFmt h ≤ 2 → ofs % epl = 0 → 1 ≤ k → k ≤ 512 → ofs + k * epl ≤ 16384 →
        s.isMine (handleOrigin (hdrHandle h)) = true →
        (∀ p c t, s.matchReturn h = some (p, c) → ofs + k * epl ≤ p.d → s.stepOf p.ctx p.step = some t →
          c.answered = false → p.full (ofs / 32) (k * epl / 32) = false →
          Completes (.store n h data (1 + 4 * k) [] flow) s (fun u =>
            u.reg aCarCntLine = s.reg aCarCntLine + word k ∧ u.reg (aLanCntStore n) = s.reg (aLanCntStore n) + 1 ∧
            slot u (hdrSlot h) (fun q => tallies p q (ofs / 32) ((ofs + k * epl) / 32) ∧ q.ctx = p.ctx ∧ q.index = p.index))) ∧
        (s.matchReturn h = none → Completes (.store n h data (1 + 4 * k) [] flow) s (fun u =>
          u.reg aCarCntStale = s.reg aCarCntStale + 1 ∧ u.car = s.car ∧ SameMemory s u))) ∧
      (hdrKind h = 4 → s.isMine (handleOrigin (hdrHandle h)) = true → ∀ p c, s.matchReturn h = some (p, c) →
        c.answered = false → c.lined = false → p.full 0 p.segs.length = false →
        Completes (.withdraw n h true flow) s (fun u => u.reg (aLanCntWdraw n) = s.reg (aLanCntWdraw n) + 1 ∧
          slot u (hdrSlot h) (fun q => q.wdraw = true ∧ tallies p q 0 p.segs.length))) ∧
      (hdrKind h = 5 → Completes (.fault n h true flow) s (fun u => u.flag (aLanErr n) 0 = true ∧
        ∀ o ∈ (u.lane n).owed, o.of h = false))) ∧
    (∀ p t g, tabFind s.car.slots n = some p → s.stepOf p.ctx p.step = some t → t.groupAt p.layer = some g →
      (p.mixDue = true → (s.worker p.ctx).isSome = true → p.segs.length * 32 = p.d → p.d % 64 = 0 →
        p.full 0 p.segs.length = false →
        Completes (.mixTermEnter n []) s (fun u => slot u n (fun q => q.mixDue = false ∧ tallies p q 0 p.segs.length))) ∧
      (p.complete = true → p.written = false → s.halted = false →
        Completes (.tokenRelease n) s (fun u => slot u n (fun q => q.written = true) ∧
          ((∀ a, t.flagAt g p.index = some a → a < t.outAt g p.index ∨ t.outAt g p.index + p.output.1.length ≤ a) →
            HbmHolds u (t.outAt g p.index) p.output.1))) ∧
      (p.written = true → g.mayCount = true → g.finish.head? = some p.index → s.halted = false →
        Completes (.tokenCount n) s (fun u => tabFind u.car.slots n = none ∧ ∃ m, m + 1 ≤ g.finish.length ∧
          u.reg (aCtr (t.counterOf g)) = s.reg (aCtr (t.counterOf g)) + 1 + word m ∧
          u.reg aCarCntRelease = s.reg aCarCntRelease + 1 + word m))) ∧
    (∀ x t, s.running x = some t → s.boundBy x t.desc.step ≠ 0 → t.frozen = false → t.waiting = false →
      s.ctxState x = 2 ∨ (s.ctxState x = 3 ∧ (s.ctx x).parkCut = false) → s.halted = false →
      t.abort = 0 → t.lastProgress.toNat + s.f aCarStall 15 0 * 100 ≤ s.tclk →
      Completes (.stepStall x) s (fun u => u.flag aCarErr 1 = true ∧
        StepHas u x t.desc.step (fun w => w.phase = .draining ∧ w.abort = 0x32))) ∧
    (s.portShut = false → s.dark = false → Completes .peakRst s (fun u =>
      u.f aCarSlotUse 47 32 = s.car.slots.length % 65536 ∧ u.outcome = 0 ∧ SameRegsBut [aCarSlotUse] s u ∧ SameMemory s u))

/-- While the port answers: OOS_REQ and RTS_REQ set their bit, but RTS_REQ is refused for a retired lane. A lane that was asked
to leave, whose queues are empty and that no admitted step has a batch for, leaves at its partition's boundary; one that
is due takes its backing and enters there; a request that the lane's state has met already is cleared there (log 86). ABORT
and an island fault take a lane in service out at once with its queues discarded. LAN_CT takes 0 to 4,096; a watermark pair is taken when the upper lies above the lower and, for the return queue, 32 below its
capacity; LAN_BACK only out of service and up to 64; other values are refused. -/
def Obligations.LanesEnterAndLeaveService : Prop :=
  ∀ (s : State) (n : Nat), n < 128 →
    (s.portShut = false → s.dark = false →
      Completes (.laneOosReq n) s (fun u =>
        u.flag (aLanCtrl n) 8 = true ∧ u.outcome = 0 ∧ SameRegsBut [aLanCtrl n] s u ∧ u.lanes = s.lanes) ∧
      (s.islState n ≠ 2 → Completes (.laneRtsReq n) s (fun u =>
        u.flag (aLanCtrl n) 9 = true ∧ u.outcome = 0 ∧ SameRegsBut [aLanCtrl n] s u ∧ u.lanes = s.lanes)) ∧
      (s.islState n = 2 → exec (.laneRtsReq n) s = .next s.refuse) ∧
      (s.islState n = 0 → s.mgt.tests.contains n = false → Completes (.laneAbort n) s (fun u =>
        u.islState n = 1 ∧ (u.lane n).dq = [] ∧ (u.lane n).owed = [] ∧ (u.lane n).rqOcc = 0 ∧ u.outcome = 0)) ∧
      (s.islState n ≠ 0 → exec (.laneAbort n) s = .next s.done) ∧
      (s.applying 7 = false →
        (∀ v : Word, fld v.toNat 12 0 ≤ 4096 → Completes (.lanCtWrite n v) s (fun u =>
          u.f (aLanCt n) 12 0 = fld v.toNat 12 0 ∧ u.outcome = 0 ∧ SameRegsBut [aLanCt n] s u)) ∧
        (∀ v : Word, 4096 < fld v.toNat 12 0 → exec (.lanCtWrite n v) s = .next s.refuse) ∧
        (∀ (v : Word) (rq : Bool), let hi := fld v.toNat 19 0
          let lo := fld v.toNat 51 32
          let cap := 8192 + 4096 * s.f (aLanBack n) 14 8
          let a := if rq then aLanRqWm n else aLanDqWm n
          (lo < hi → (rq = true → hi + 32 ≤ cap) → Completes (.lanWmWrite n rq v) s (fun u =>
            u.f a 19 0 = hi ∧ u.f a 51 32 = lo ∧ u.outcome = 0 ∧ SameRegsBut [a] s u)) ∧
          (hi ≤ lo ∨ (rq = true ∧ cap < hi + 32) → exec (.lanWmWrite n rq v) s = .next s.refuse)) ∧
        (∀ v : Word, s.islState n ≠ 0 → fld v.toNat 6 0 ≤ 64 → fld v.toNat 14 8 ≤ 64 → Completes (.lanBackWrite n v) s (fun u =>
          u.f (aLanBack n) 6 0 = fld v.toNat 6 0 ∧ u.f (aLanBack n) 14 8 = fld v.toNat 14 8 ∧ u.outcome = 0 ∧
          SameRegsBut [aLanBack n] s u)) ∧
        (∀ v : Word, s.islState n = 0 ∨ 64 < fld v.toNat 6 0 ∨ 64 < fld v.toNat 14 8 →
          exec (.lanBackWrite n v) s = .next s.refuse))) ∧
    (s.laneOn n = true → s.flag (aLanCtrl n) 8 = true → (s.lane n).dq = [] → (s.lane n).rqOcc = 0 →
      s.laneOwes n = false → (s.laneOwner n).all s.atBoundary = true → s.mgt.tests.contains n = false →
      Completes (.laneLeaveService n) s (fun u => u.islState n = 1 ∧ u.flag (aLanCtrl n) 8 = false ∧
        u.flag (aLanRqStat n) 63 = true ∧ (u.lane n).backing = [])) ∧
    (s.islState n ≠ 0 → s.flag (aLanCtrl n) 8 = true → (s.laneOwner n).all s.atBoundary = true →
      Completes (.laneLeaveService n) s (fun u => u.flag (aLanCtrl n) 8 = false ∧ SameRegsBut [aLanCtrl n] s u ∧
        u.lanes = s.lanes)) ∧
    (∀ p, s.laneOwner n = some p → s.islState n = 0 → s.unitShut = false → s.flag (aLanCtrl n) 9 = true →
      s.atBoundary p = true → Completes (.laneEnterService n) s (fun u => u.flag (aLanCtrl n) 9 = false ∧
        SameRegsBut [aLanCtrl n] s u ∧ u.lanes = s.lanes)) ∧
    (∀ p hs, s.laneOwner n = some p → s.islState n = 1 → s.unitShut = false →
      (s.lane n).due = true ∨ s.flag (aLanCtrl n) 9 = true → s.atBoundary p = true →
      (s.allocN 3 (s.f (aLanBack n) 6 0 + s.f (aLanBack n) 14 8) { ctx := 0, part := p, partOnly := true } 1).1 = some hs →
      Completes (.laneEnterService n) s (fun u => u.islState n = 0 ∧ u.flag (aLanCtrl n) 9 = false ∧ (u.lane n).backing = hs ∧
        (u.lane n).dq = [] ∧ u.flag (aLanRqStat n) 63 = false)) ∧
    (s.laneOn n = true → Completes (.laneIslandFault n) s (fun u => (u.islState n = 1 ∨ u.islState n = 2) ∧
      (u.lane n).dq = [] ∧ (u.lane n).owed = []))

/-- A queue of shadowed choices that is long enough, complete, short of time, or has waited long enough forms a batch of its
4,096 oldest. The lowest expert's oldest batch runs while the partition's array is free; its end is counted with its
choices, and a cube that fails meanwhile makes it run again. A well-formed codec status word holds its deadline and is counted; another, and a silent stream that feeds a
step, set their bits of DLM_ERR. An evaluation, at most once in 2 µs, gives every admitted Serve step with a deadline
its slack, and raises its level to what the slack requires; a level never falls. -/
def Obligations.ShadowsAndDeadlines : Prop :=
  ∀ (s : State),
    (∀ x e t g w rest, s.worker x = some t → t.group = some g → tabGet [] g.shadowQ e = w :: rest →
      let formed := fun (u : State) => (∃ b : ShadowBatch,
          tabGet [] u.shd.formed t.part = tabGet [] s.shd.formed t.part ++ [b] ∧ b.ctx = x ∧ b.expert = e ∧
          b.layer = g.layer ∧ b.toks = (w :: rest).take 4096) ∧
        StepHas u x t.desc.step (fun v => ∃ h, v.group = some h ∧ tabGet [] h.shadowQ e = (w :: rest).drop 4096) ∧
        SameRegsBut [aCtxVtime x] s u ∧ SameMemory s u
      (s.f aShdCfg 12 0 ≤ (w :: rest).length ∨ g.allQueued e = true ∨ s.guarded t = true →
        Completes (.shadowBatchForm x e) s formed) ∧
      (w.since + s.f aShdCfg 31 16 * 100 ≤ s.tclk → Completes (.shadowWaitExpire x e) s formed)) ∧
    (∀ p b, nextBatch ((tabGet [] s.shd.formed p).filter (fun b => !s.parkDue b.ctx)) = some b → s.arrayBusy p = false →
      s.groupsIn p ≠ [] → s.halted = false → Completes (.shadowBatchRun p) s (fun u =>
        tabFind u.shd.running p = some b ∧ tabGet [] u.shd.formed p = (tabGet [] s.shd.formed p).erase b ∧
        SameRegsBut [] s u ∧ SameMemory s u)) ∧
    (∀ p b cubes reads faults, tabFind s.shd.running p = some b →
      let out := cubes % 4 = 3 ∧ (s.groupsIn p).contains (cubes / 4 % 128 / 4) = true
      (¬out → Completes (.shadowBatchDone p cubes reads faults) s (fun u =>
        tabFind u.shd.running p = none ∧ u.reg aShdCntBatch = s.reg aShdCntBatch + 1 ∧
        u.reg aShdCntToken = s.reg aShdCntToken + word b.toks.length)) ∧
      (out → Completes (.shadowBatchDone p cubes reads faults) s (fun u =>
        u.reg aScaCntRerun = s.reg aScaCntRerun + 1 ∧ u.reg aShdCntBatch = s.reg aShdCntBatch ∧
        (tabFind u.shd.running p = some b ∨ b ∈ tabGet [] u.shd.formed p)))) ∧
    (∀ w : Word, s.halted = false →
      let v := w.toNat
      (fld v 31 29 = 0 → bitAt v 28 = s.flag aDlmCtrl 1 → Completes (.codecStatusWord w) s (fun u =>
        u.reg aDlmCntWord = s.reg aDlmCntWord + 1 ∧ tabFind u.dlm.last (fld v 11 0) = some s.tb ∧
        (∃ d ∈ u.dlm.held, d.stream = fld v 11 0 ∧ d.slice = fld v 27 12 ∧
          d.deadline = (s.tb : Int) + fld v 55 32 * 1000 - s.f aDlmCtrl 63 48 * 1000) ∧
        SameRegsBut [aDlmCntWord] s u ∧ SameMemory s u)) ∧
      (fld v 31 29 ≠ 0 ∨ bitAt v 28 ≠ s.flag aDlmCtrl 1 → Completes (.codecStatusWord w) s (fun u =>
        u.flag aDlmErr 0 = true ∧ u.dlm = s.dlm ∧ SameMemory s u))) ∧
    (∀ c, s.halted = false → c ≠ 0xFFFF → c ∉ s.dlm.silent →
      s.rgm.steps.any (fun t => t.phase != .queued && t.seqs.any (fun e => e.2.stream == c)) = true →
      tabGet 0 s.dlm.last c + s.f aDlmCtrl 47 32 * 1000 ≤ s.tb →
      Completes (.codecSilence c) s (fun u => c ∈ u.dlm.silent ∧ u.flag aDlmErr 1 = true ∧ SameMemory s u)) ∧
    (let now := s.tb / 2000 * 2000
     s.flag aDlmCtrl 0 = true → s.halted = false → s.dlm.lastEval < now →
     (s.rgm.steps.map (fun t => (t.desc.ctx, t.desc.step))).Nodup →
     Completes .deadlineEval s (fun u => u.dlm.lastEval = now ∧
       ∀ t ∈ s.rgm.steps, t.phase ≠ .queued → t.abort = 0 → s.profile t.desc.ctx = 1 → ∀ d, s.deadline t = some d →
         StepHas u t.desc.ctx t.desc.step (fun w => w.slack = some (t.slackAt now d) ∧
           w.level = max t.level (levelFor t.thr.toNat (t.slackAt now d)))))

/-- At the owner, for a loaded context and a step whose table they agree with: an RHDR that finds its buffer is held as a record
of its choice, and a second one for the same choice faults the context; the lines of an RROW that find their buffers are
held with its row; an RHDR or RROW that finds none waits for one, behind those that wait; an RCLOSE that announces at least the records that came is held. At the origin, an RSTORE that names a bound slot's
remote choice adds a contribution to each segment its lines cover, and an RWDRAW one to every segment; one that matches
nothing is only counted as stale. -/
def Obligations.RingsCarryRemoteChoices : Prop :=
  ∀ (s : State) (port : Nat) (pkt : Packet), s.hears port pkt = true →
    let x := pCtx pkt
    let tallies := fun (p q : Slot) (lo hi : Nat) => ∀ i : Nat, (q.segs[i]?).map (·.tally) =
      (p.segs[i]?).map (fun g => g.tally + (if lo ≤ i ∧ i < hi then 1 else 0))
    let stale := fun (u : State) => u.reg aCarCntStale = s.reg aCarCntStale + 1 ∧ u.car = s.car ∧ SameMemory s u
    (pOp pkt = 0x28 → s.ctxLoaded x = true →
      let h := BitVec.ofNat 256 (fieldAt pkt.data 0 32)
      let r : RingRec := {
        ctx := x, step := hdrStep h, src := pSrc pkt, hdr := h, choice := fieldAt pkt.data 32 1 % 32
        bgen := fieldAt pkt.data 34 2, nch := fieldAt pkt.data 36 1, epoch := fieldAt pkt.data 40 4, state := 0, lines := [] }
      let again := s.ring.recs.any (fun q => q.ctx == x && q.step == r.step && q.handle == r.handle && q.expert == r.expert)
      let layer := handleLayer r.handle
      (again = false → (s.closeOf x r.step r.src layer r.expert).all (fun c =>
          decide ((s.recsFrom x r.step r.src layer r.expert).length < c.count)) = true →
        (s.stepLow x 32 r.step).all (fun t => !s.ringRecBad t r) = true →
        (((s.countRx port pkt).ringRoom x 1).isSome = true →
          Completes (.rhdr port pkt) s (fun u => ∃ q ∈ u.ring.recs, q.hdr = h ∧ q.ctx = x ∧ q.src = pSrc pkt ∧
            q.choice = r.choice ∧ q.nch = r.nch)) ∧
        ((s.countRx port pkt).ringRoom x 1 = none →
          Completes (.rhdr port pkt) s (fun u => u.ring = { s.ring with wait := s.ring.wait ++ [(port, pkt)] }))) ∧
      (again = true → Completes (.rhdr port pkt) s (fun u => u.ctxState x = 7))) ∧
    (pOp pkt = 0x29 → s.ctxLoaded x = true →
      let handle := cleanHandle (pAddr pkt)
      let step8 := fld (pTag pkt) 16 9
      let first := fld (pTag pkt) 8 0
      let row := s.ring.rows.find? (fun w => w.ctx == x && w.handle == handle && w.step == step8)
      (∀ w, row = some w → w.poison = false ∧ w.freed = false ∧ ∀ i < pLen pkt, w.seen.contains (first + i) = false) →
      pPoison pkt = false → (s.stepLow x 8 step8).all (fun t => ringMember t.place (pSrc pkt)) = true →
      (((s.countRx port pkt).ringRoom x (pLen pkt)).isSome = true →
        Completes (.rrow port pkt) s (fun u => ∃ w ∈ u.ring.rows, w.ctx = x ∧ w.handle = handle ∧ w.step = step8 ∧
          ∀ i < pLen pkt, tabFind w.lines (first + i) = some (sliceBytes pkt.data (128 * i) 128))) ∧
      ((s.countRx port pkt).ringRoom x (pLen pkt) = none →
        Completes (.rrow port pkt) s (fun u => u.ring = { s.ring with wait := s.ring.wait ++ [(port, pkt)] }))) ∧
    (pOp pkt = 0x2A → s.ctxLoaded x = true →
      let c : RingClose := {
        ctx := x, step := pTag pkt % 2 ^ 17, src := pSrc pkt, layer := fld (pAddr pkt) 18 11
        expert := fld (pAddr pkt) 10 0, count := fld (pAddr pkt) 44 22 }
      (s.stepLow x 17 c.step).all (fun t => ringMember t.place c.src) = true →
      (s.recsFrom x c.step c.src c.layer c.expert).length ≤ c.count →
      Completes (.rclose port pkt) s (fun u => u.ring.closes = s.ring.closes ++ [c] ∧ u.ring.recs = s.ring.recs ∧
        SameMemory s u)) ∧
    (pOp pkt = 0x2C →
      let fmt := fld (pAddr pkt) 46 45
      let ofs := fld (pAddr pkt) 44 36 * lineElems fmt
      let k := pLen pkt * lineElems fmt
      (∀ p c, s.matchRing pkt = some (p, c) → fmt ≠ 3 → ofs + k ≤ p.d → c.answered = false → p.full (ofs / 32) (k / 32) = false →
        Completes (.rstore port pkt []) s (fun u => u.reg aCarCntLine = s.reg aCarCntLine + word (pLen pkt) ∧
          ∃ q, tabFind u.car.slots (fld (pAddr pkt) 14 0) = some q ∧ tallies p q (ofs / 32) ((ofs + k) / 32))) ∧
      (s.matchRing pkt = none → Completes (.rstore port pkt []) s stale)) ∧
    (pOp pkt = 0x2D →
      (∀ p c, s.matchRing pkt = some (p, c) → c.answered = false → c.lined = false → p.full 0 p.segs.length = false →
        Completes (.rwdraw port pkt) s (fun u => ∃ q, tabFind u.car.slots (fld (pAddr pkt) 14 0) = some q ∧ q.wdraw = true ∧
          tallies p q 0 p.segs.length)) ∧
      (s.matchRing pkt = none → Completes (.rwdraw port pkt) s stale))

/-- COL_GRP creates a group whose descriptor passes and whose buffers can be had, and deletes one with nothing queued; a
descriptor that fails is refused with STATE 2. A CJOIN for no group yet is kept; the predecessor's with the right digest
makes the group ready. A CCRED adds its lines to its role's credit. An accepted submission queues; the oldest starts when
the group is ready and its trigger is met. A checked CDATA piece is staged, a CRES piece's results are held. The chain's
next operation that is ready fires. A CFAIL, and the time limit, end the collective with their cause. A chain that is done
ends it: counted, and the group is free for the next. Due increments are made in order. -/
def Obligations.CollectivesRun : Prop :=
  ∀ (s : State),
    (∀ v : Word, s.tenantShut = false → s.dark = false →
      let a := fld v.toNat 47 0
      (s.hbmPoisoned a 64 = false →
        (∀ g x ms lc ls ib bufs, s.groupDesc a = some (g, x, ms, lc, ls, ib) → s.group g = none → s.col.groups.length < 256 →
          s.ctxLoaded x = true → s.srcOf x ∈ ms → ms.eraseDups.length = ms.length → (∀ m ∈ ms, m < 16384) → racksOk ms = true →
          s.portsIn.any (fun n => s.gen n ≥ 2) = true → (s.allocSet x (groupBuffers ms ls ib)).1 = some bufs →
          tabFind s.col.joins g = none →
          Completes (.colGrpCreate v) s (fun u => u.outcome = 0 ∧ ∃ q, u.group g = some q ∧ q.ctx = x ∧ q.members = ms ∧
            q.lchunk = lc ∧ q.lsmall = ls ∧ q.inbuf = ib ∧ q.gdig = groupDigest g x ms lc ls ib ∧ q.ready = false ∧
            q.bufs = bufs ∧ q.queue = [] ∧ q.run = none)) ∧
        (s.groupDesc a = none → Completes (.colGrpCreate v) s (fun u => u.outcome = 2 ∧ u.col = s.col ∧
          cellGet 0 u.hbm (a + 0x20) = 2))) ∧
      (∀ q, s.group (fld v.toNat 59 48) = some q → q.run = none → q.queue = [] → Completes (.colGrpDelete v) s (fun u =>
        u.outcome = 0 ∧ u.group (fld v.toNat 59 48) = none)) ∧
      (s.group (fld v.toNat 59 48) = none → exec (.colGrpDelete v) s = .next s.refuse) ∧
      (∀ q k, a % 64 = 0 → s.hbmPoisoned a 64 = false → s.colRequest (s.hbmRead a 64) (fld v.toNat 59 48) none [] 0 = .inl q →
        s.group (fld (fieldAt (s.hbmRead a 64) 0 8) 11 0) = some k →
        Completes (.colSubmit v) s (fun u => u.outcome = 0 ∧ SameMemory s u ∧
          ∃ k', u.group (fld (fieldAt (s.hbmRead a 64) 0 8) 11 0) = some k' ∧ k'.queue = k.queue ++ [q] ∧
            k'.seq = (k.seq + 1) % 2 ^ 32))) ∧
    (∀ (port : Nat) (pkt : Packet), s.hears port pkt = true →
      let g := fld (pAddr pkt) 11 0
      (pOp pkt = 0x32 → s.group g = none → Completes (.cjoin port pkt) s (fun u => tabFind u.col.joins g = some pkt ∧
        u.col.groups = s.col.groups ∧ SameMemory s u)) ∧
      (∀ v, s.group g = some v →
        (pOp pkt = 0x32 → pSrc pkt = v.members.getD ((s.rankIn v + v.members.length - 1) % v.members.length) 0 →
          v.ready = false → fld (pAddr pkt) 43 12 = v.gdig → Completes (.cjoin port pkt) s (fun u =>
            u.group g = some { v with ready := true } ∧ cellGet 0 u.hbm (v.addr + 0x20) = 1)) ∧
        (pOp pkt = 0x34 → Completes (.ccred port pkt) s (fun u =>
          let k := v.members.idxOf (pSrc pkt) * 4 + fld (pAddr pkt) 13 12
          ∃ v', u.group g = some v' ∧ k ∈ v'.granted ∧
            tabGet 0 v'.credit k = tabGet 0 v.credit k + fld (pAddr pkt) 47 24 ∧ v'.run = v.run ∧ v'.queue = v.queue)) ∧
        (∀ r, v.run = some r → r.ended = none →
          (pOp pkt = 0x33 → r.req.seq = fld (pAddr pkt) 43 12 → Completes (.cfail port pkt) s (fun u =>
            ∃ v' r', u.group g = some v' ∧ v'.run = some r' ∧ r'.ended = some (fld (pTag pkt) 3 0, true))) ∧
          (let rank := v.members.idxOf (pSrc pkt)
           let ph := fld (pTag pkt) 8 7
           let first := fld (pAddr pkt) 47 24
           let k := pLen pkt - 1
           r.req.seq % 4096 = fld (pAddr pkt) 23 12 → s.pieceFits v r.req pkt = true → pPoison pkt = false →
           residueOk pkt.data = true → fieldAt pkt.data (128 * (pLen pkt - 1)) 4 = colDigest r.req →
           (pOp pkt = 0x30 → Completes (.cdata port pkt) s (fun u => ∃ v' r', u.group g = some v' ∧ v'.run = some r' ∧ r'.ended = none ∧
               ∀ i < k, tabFind r'.lines (lineKey ph (if ph == 0 && rank ≥ 2 ^ Nat.log2 v.members.length then 127
                 else fld (pTag pkt) 6 0) (first + i)) = some (sliceBytes pkt.data (128 * i) 128,
                   bitAt (fieldAt pkt.data (128 * k + 4) 1) i, bitAt (fieldAt pkt.data (128 * k + 4) 1) (4 + i)))) ∧
           (pOp pkt = 0x31 → Completes (.cres port pkt) s (fun u => ∃ v' r', u.group g = some v' ∧ v'.run = some r' ∧ r'.ended = none ∧
               r'.lines = r.lines ∧ let per := if colBytes r.req.type == 4 then 1 else 2
               ∀ i < k * per, let b := resBlock v r.req (s.rankIn v) ph (fld (pTag pkt) 6 0) (per * first + i)
                 b.1 ≤ per * first + i → per * first + i < b.2 → (tabFind r'.res (per * first + i)).isSome = true)))))) ∧
    (∀ g v, s.group g = some v →
      (∀ q rest, v.queue = q :: rest → v.run = none → s.halted = false → v.ready = true → v.broken = false →
        tabFind v.fails q.seq = none → s.addersIn ≠ [] → s.colPorts = true → v.early = [] →
        (∀ c n, q.trig = some (c, n) → n ≤ s.regN (aCtr c)) →
        Completes (.collectiveStart g) s (fun u => ∃ v' r, u.group g = some v' ∧ v'.queue = rest ∧ v'.run = some r ∧
          r.req = q ∧ r.ended = none ∧ r.islands = s.addersIn ∧ r.fired = [] ∧ SameRegsBut [] s u ∧ SameMemory s u)) ∧
      (∀ r, v.run = some r →
        (r.ended = none → s.halted = false → ∀ i o faults, nextColOp v r (chainOps v r.req (s.rankIn v)) = some (i, o) →
          let again := adderRetries (if o.lines.isSome then faults else [])
          Completes (.collectiveTrigger g faults) s (fun u => u.reg aColCntRetry = s.reg aColCntRetry + word again.1 ∧
            (again.2 = false → o.act = 4 ∨ ((o.act = 1 ∨ o.act = 2) ∧ (s.opValues r o).isSome = true) ∨
              ((o.act = 0 ∧ (s.opValues r o).isSome = true ∨ o.act = 3) ∧ tabGet 0 r.prog i ≤ opPackets r.req o ∧
                (s.pickPort 0 (s.srcOf v.ctx) (v.members.getD o.dst 0) 5).isSome = true ∧
                o.dst * 4 + roleOf o.phase ∈ v.granted ∧
                (o.phase ≠ 0 → 4 * opPackets r.req o ≤ tabGet 0 v.credit (o.dst * 4 + roleOf o.phase))) →
              ∃ v' r', u.group g = some v' ∧ v'.run = some r' ∧ i ∈ r'.fired ∧ r'.ended = none))) ∧
        (r.ended = none → ∀ t0, r.lastPiece = some t0 → s.f aColCtrl 15 0 ≠ 0 → t0 + s.f aColCtrl 15 0 * 100000 ≤ s.tclk →
          Completes (.collectiveTimeout g) s (fun u => SameRegsBut [] s u ∧ SameMemory s u ∧
            ∃ v' r', u.group g = some v' ∧ v'.run = some r' ∧ r'.ended = some (2, false))) ∧
        (r.ended = none → chainDone v r (s.rankIn v) = true → Completes (.collectiveEnd g) s (fun u =>
          u.reg aColCntDone = s.reg aColCntDone + 1 ∧ (u.group g).all (fun v' => v'.run.isNone) = true ∧
          (∀ c, r.req.cinc = some c → (g, c) ∈ u.col.counts) ∧
          ∀ st, r.req.step = some st → ∀ w ∈ u.rgm.steps, w.is r.req.ctx st = true → AsyncOp.coll g r.req.seq ∉ w.asyncs)))) ∧
    (∀ g e, s.col.counts.find? (fun e => e.1 == g) = some e → Completes (.collectiveCount g) s (fun u =>
      u.col.counts = s.col.counts.erase e ∧ u.reg (aCtr (e.2 % 65536)) = s.reg (aCtr (e.2 % 65536)) + 1 ∧
      SameRegsBut [aCtr (e.2 % 65536)] s u ∧ SameMemory s u))

/-- CTX_CMD moves a context along its states, each command refused outside the states it may start from: FREE loads to
LOADING and ACTIVE; ACTIVE parks, reaches its boundary, and is PARKED once saved, its slots free; PARKED unparks and is
ACTIVE again with its slots bound, or FAULTED where its save area is not whole; an idle one unloads to FREE with its sequences gone; any is torn down to FAULTED and,
with nothing outstanding, to FREE. CTX_CFG keeps its fixed fields but in FREE, and takes only lawful values. A partition
register takes a lawful value. A window adds its energy to a context that is not FREE. -/
def Obligations.ContextsLiveTheirCycle : Prop :=
  ∀ (s : State) (x : Nat), x < 4096 →
    (s.tenantShut = false → s.dark = false →
      (∀ q, s.ctxState x = 0 → s.newest (s.f (aCtxCfg x) 15 8) = some q → (s.loadCtx x q).isSome = true →
        Completes (.ctxLoad x) s (fun u => u.ctxState x = 1 ∧ u.outcome = 0)) ∧
      (s.ctxState x ≠ 0 → exec (.ctxLoad x) s = .next s.refuse) ∧
      (s.ctxState x = 2 → Completes (.ctxPark x) s (fun u => u.ctxState x = 3 ∧ u.outcome = 0 ∧
        (u.ctx x).parkAt = some s.tb ∧ (u.ctx x).parkCut = (s.running x).isNone)) ∧
      (s.ctxState x ≠ 2 → exec (.ctxPark x) s = .next s.refuse) ∧
      (s.ctxState x = 4 → ((s.versionOf x).bind (s.bringWeights x)).isSome = true →
        Completes (.ctxUnpark x) s (fun u => u.ctxState x = 5 ∧ u.outcome = 0)) ∧
      (s.ctxState x ≠ 4 → exec (.ctxUnpark x) s = .next s.refuse) ∧
      (s.ctxState x = 2 ∨ s.ctxState x = 4 → s.stepsOf x = 0 → s.col.groups.any (fun e => e.2.ctx == x) = false →
        Completes (.ctxUnload x) s (fun u => u.ctxState x = 0 ∧ u.outcome = 0 ∧ (∀ e ∈ u.rgm.seqs, e.2.ctx ≠ x) ∧
          (u.ctx x).chain = (s.ctx x).chain ∧ u.hbm = s.hbm)) ∧
      (s.ctxState x ≠ 2 → s.ctxState x ≠ 4 → exec (.ctxUnload x) s = .next s.refuse) ∧
      (s.ctxState x ≠ 0 → Completes (.ctxTeardown x) s (fun u => u.ctxState x = 7 ∧ u.outcome = 0)) ∧
      (s.ctxState x = 0 → exec (.ctxTeardown x) s = .next s.refuse)) ∧
    (s.halted = false →
      (s.ctxState x = 1 → Completes (.ctxLoadDone x) s (fun u => u.ctxState x = 2 ∧ SameMemory s u)) ∧
      (s.parkDue x = true → (s.ctx x).parkCut = false → s.arrayHolds x = false →
        let cut := fun (u : State) => (u.ctx x).parkCut = true ∧ (∀ e ∈ u.shd.formed, ∀ b ∈ e.2, b.ctx ≠ x) ∧
          SameRegsBut [] s u ∧ SameMemory s u
        Completes (.parkBoundary x) s cut ∧ (s.f (aCtxCfg x) 63 48 ≠ 0 → Completes (.parkCwaitExpire x) s cut)) ∧
      (s.ctxState x = 3 → (s.ctx x).parkCut = true → s.arrayHolds x = false → s.lanesQuiet x = true →
        Completes (.parkSaveDone x true) s (fun u => u.ctxState x = 4 ∧ (∀ e ∈ u.car.slots, e.2.ctx ≠ x) ∧
          (u.ctx x).saved = some ((s.slotsOf x).map (fun e => s.saveSlot e.1 e.2)) ∧ (u.ctx x).weightBufs = []) ∧
        Completes (.parkSaveDone x false) s (fun u => u.ctxState x = 7)) ∧
      (s.ctxState x = 5 →
        let saved := (s.ctx x).saved.getD []
        let bad := s.hbmPoisoned (s.f (aCtxSave x) 47 0) (s.liveBytes x saved)
        (∀ l, bad = false → l.length = saved.length → s.slotsFree (s.ctxPart x) l = true →
          Completes (.unparkDone x true l) s (fun u => u.ctxState x = 2 ∧ (u.ctx x).saved = none ∧
            ∀ b ∈ l.zip saved, tabFind u.car.slots b.1 = some b.2.slot)) ∧
        (∀ l, bad = true → Completes (.unparkDone x true l) s (fun u => u.ctxState x = 7)) ∧
        ∀ l, Completes (.unparkDone x false l) s (fun u => u.ctxState x = 7))) ∧
    (s.ctxState x = 7 → s.tearing x = false → Completes (.teardownDone x) s (fun u => u.ctxState x = 0 ∧
      (u.ctx x).chain = (s.ctx x).chain ∧ SameMemory s u)) ∧
    (∀ v : Word, s.portShut = false → s.dark = false →
      let old := s.reg (aCtxCfg x)
      let new := mergeMask old v (fm 16 0 + fm 63 32)
      let bad := fld new.toNat 1 0 = 3 ∨ fld new.toNat 47 32 = 0 ∨ (fld old.toNat 16 0 ≠ fld new.toNat 16 0 ∧ s.ctxState x ≠ 0)
      (bad → exec (.ctxCfgWrite x v) s = .next s.refuse) ∧
      (¬bad → Completes (.ctxCfgWrite x v) s (fun u => u.reg (aCtxCfg x) = new ∧ u.outcome = 0 ∧ SameMemory s u))) ∧
    (∀ (p reg : Nat) (v : Word), p < 64 → reg < 11 → s.portShut = false → s.dark = false → s.applying 7 = false →
      let a := aParLaneLo p + 8 * reg
      let new := mergeMask (s.reg a) v (parMask reg)
      (s.parBad p reg new = false → Completes (.parWrite p reg v) s (fun u => u.reg a = new ∧ u.outcome = 0 ∧
        SameRegsBut [a] s u ∧ SameMemory s u)) ∧
      (s.parBad p reg new = true → exec (.parWrite p reg v) s = .next s.refuse)) ∧
    (∀ ev occ,
      let e := tabGet 0 s.pwr.frac x +
        (List.range 10).foldl (fun n k => n + ev.getD k 0 * s.f (aPwrCoef k) 15 0 * 2 ^ 20) 0 +
        occ.foldl (fun n (o : Nat × Nat × Nat) =>
          if o.1 < 264 then n + leakage (s.pwr.leak.getD (islKind o.1) 0) (min o.2.1 4096) o.2.2 else n) 0
      (s.ctxState x ≠ 0 → Completes (.accountingWindow x ev occ) s (fun u => tabGet 0 u.pwr.frac x = e % 2 ^ 32 ∧
        u.reg (aAccEnergy x) = s.reg (aAccEnergy x) + word (e / 2 ^ 32) ∧ SameRegsBut [aAccEnergy x] s u ∧ SameMemory s u)) ∧
      (s.ctxState x = 0 → exec (.accountingWindow x ev occ) s = .next s))

/-- WAY_RING takes a lawful base and size while no step runs, and RPTR then follows WPTR; WAY_RPTR takes a value from itself to
WPTR. The oldest record goes to its place in the ring, over the oldest one of a full ring. The oldest log entry goes to
the active bank, or to the other bank, opened anew, when that is full. A lawful lock-step write enables or disables its
entry. The twin's digests are held until this engine's come: equal ones are counted, different ones freeze the entry;
so do a step that was not expected, the twin's freeze, and digests that do not come in time. Digest arrays of an expected
step are held. -/
def Obligations.RecordsAndLockStep : Prop :=
  ∀ (s : State),
    (∀ v : Word, s.portShut = false → s.dark = false →
      let base := fld v.toNat 47 0
      let llen := fld v.toNat 52 48
      let ok := base = 0 ∨ (base % 4096 = 0 ∧ 6 ≤ llen ∧ llen ≤ 24)
      (s.rgm.steps.any (fun t => t.phase == .running) = false → ok → Completes (.wayRingWrite v) s (fun u =>
        u.f aWayRing 47 0 = base ∧ u.f aWayRing 52 48 = llen ∧ u.reg aWayRptr = s.reg aWayWptr ∧ u.outcome = 0 ∧
        SameRegsBut [aWayRing, aWayRptr] s u ∧ SameMemory s u)) ∧
      (s.rgm.steps.any (fun t => t.phase == .running) = true ∨ ¬ok → exec (.wayRingWrite v) s = .next s.refuse) ∧
      (v ≤ s.reg aWayWptr → s.reg aWayRptr ≤ v → Completes (.wayRptrWrite v) s (fun u =>
        u.reg aWayRptr = v ∧ u.outcome = 0 ∧ SameRegsBut [aWayRptr] s u ∧ SameMemory s u)) ∧
      (s.reg aWayWptr < v ∨ v < s.reg aWayRptr → exec (.wayRptrWrite v) s = .next s.refuse) ∧
      (∀ i < 16,
        let x := fld v.toNat 11 0
        let on := bitAt v.toNat 32
        (s.flag (aWayLsCfg i) 32 = true → s.running (s.f (aWayLsCfg i) 11 0) = none) →
        (on = true → s.profile x = 2 ∧ s.attached = true ∧ s.running x = none ∧ s.lsState i ≠ 2 ∧
          (List.range 16).any (fun j => j != i && s.flag (aWayLsCfg j) 32 && s.f (aWayLsCfg j) 11 0 == x) = false) →
        Completes (.lockstepCfgWrite i v) s (fun u => u.outcome = 0 ∧ u.flag (aWayLsCfg i) 32 = on ∧
          u.f (aWayLsCfg i) 11 0 = x ∧ u.f (aWayLsCfg i) 27 16 = fld v.toNat 27 16 ∧ u.lsState i = bit on ∧ u.ls i = ls0))) ∧
    (∀ r rest, s.way.ring = r :: rest → s.f aWayRing 47 0 ≠ 0 → (s.ringFull = true → s.flag aWayCtrl 0 = false) →
      Completes .waymarkRingWrite s (fun u => u.way.ring = rest ∧ u.reg aWayWptr = s.reg aWayWptr + 1 ∧
        HbmHolds u (s.f aWayRing 47 0 + 128 * (s.regN aWayWptr % 2 ^ s.f aWayRing 52 48)) r.2.2 ∧
        u.reg aWayRptr = s.reg aWayRptr ∧ (s.ringFull = true → u.flag aWayErr 0 = true))) ∧
    (∀ e rest, s.way.flash = e :: rest → Completes .flashLogWrite s (fun u =>
      let full := s.f aCfgLog 13 1 = 8191
      let b := if full then 1 - s.f aCfgLog 0 0 else s.f aCfgLog 0 0
      let k := if full then 0 else s.f aCfgLog 13 1
      u.way.flash = rest ∧ u.f aCfgLog 0 0 = b ∧ u.f aCfgLog 13 1 = k + 1 ∧ u.reg aCfgCntLog = s.reg aCfgCntLog + 1 ∧
      u.flashRead (logBase b + 64 + 128 * k) e.1.length = e.1 ∧ u.hbm = s.hbm)) ∧
    (∀ (port : Nat) (pkt : Packet) (i : Nat), s.hears port pkt = true → pOp pkt = 0x3B → s.lsFor pkt = some i →
      let e := s.ls i
      let kind := fieldAt pkt.data 0 1
      let st := word (fieldAt pkt.data 8 8)
      let lay := fld (pAddr pkt) 47 40
      let d := (List.range 4).map (fun k => word (fieldAt pkt.data (16 + 8 * k) 8))
      (kind = 0 → s.lsState i = 1 →
        (s.lsExpected (s.f (aWayLsCfg i) 11 0) st = true →
          (e.mine = none → Completes (.lscmpDigests port pkt) s (fun u => (u.ls i).early = e.early ++ [(st, lay, d)] ∧
            u.lsState i = 1)) ∧
          (∀ d' at_, e.mine = some (st, lay, d', at_) → e.early = [] →
            (firstStage d' d = none → Completes (.lscmpDigests port pkt) s (fun u =>
              u.reg aWayCntLslayer = s.reg aWayCntLslayer + 1 ∧ u.lsState i = 1 ∧ (u.ls i).mine = none)) ∧
            (firstStage d' d ≠ none → Completes (.lscmpDigests port pkt) s (fun u => u.lsState i = 2)))) ∧
        (s.lsExpected (s.f (aWayLsCfg i) 11 0) st = false → Completes (.lscmpDigests port pkt) s (fun u =>
          u.lsState i = 2 ∧ u.flag aWayErr 2 = true))) ∧
      (kind = 1 ∨ kind = 2 → s.lsState i = 1 → s.lsExpected (s.f (aWayLsCfg i) 11 0) st = false →
        Completes (.lscmpArray port pkt) s (fun u => u.lsState i = 2 ∧ u.flag aWayErr 2 = true)) ∧
      (∀ m, kind = 1 ∨ kind = 2 → (s.lsState i = 1 → s.lsExpected (s.f (aWayLsCfg i) 11 0) st = true) → e.mine = some m →
        e.stage = none → Completes (.lscmpArray port pkt) s (fun u => SameMemory s u ∧ ∀ k < min 31 (fieldAt pkt.data 4 2),
          tabFind (if kind = 1 then (u.ls i).peerTiles else (u.ls i).peerLanes) (fieldAt pkt.data 2 2 + k) =
            some (word (fieldAt pkt.data (16 + 16 * k) 8), word (fieldAt pkt.data (24 + 16 * k) 8)))) ∧
      (kind = 3 → s.lsState i = 1 → Completes (.lscmpFreeze port pkt) s (fun u => u.lsState i = 2 ∧
        u.flag aWayErr 2 = true ∧ u.f (aWayLsMm i) 10 8 = fieldAt pkt.data 1 1 % 8))) ∧
    (∀ i < 16, ∀ m, (s.ls i).mine = some m → s.f aWayLsctrl 15 0 ≠ 0 → s.lsState i = 1 →
      m.2.2.2 + s.f aWayLsctrl 15 0 * 100000 ≤ s.tclk → Completes (.lockstepTimeout i) s (fun u => u.lsState i = 2 ∧
        u.flag aWayErr 2 = true ∧ u.f (aWayLsMm i) 10 8 = 5))

/-- While the port answers, ATTACH is set whatever the state, and in UNPROTECTED it starts the attempt, which is repeated every
ms (that it does no more in another state is the model's choice, log 108); the twin's lawful ATTREQ, or
its ATTACK to this engine's own, enters ATTACHING; an unlawful ATTREQ is turned down and flagged, and ATTNAK ends the
attempt. DETACH, by either side, leaves UNPROTECTED. MCLR, in UNPROTECTED or SURVIVOR, zeroes the directory. BEGIN opens
a transfer, TMIR adds its lines, and END commits a whole one to the mirror and drops a damaged one. An ACK ends the
transfer it names and counts it; a NAK with reason 1 has it sent again, up to three times. A lawful TWN_CKPT starts a
checkpoint. -/
def Obligations.TwinsAttachAndMirror : Prop :=
  ∀ (s : State),
    (s.portShut = false → s.dark = false →
      (∀ v : Word, bitAt v.toNat 16 = false →
        (bitAt v.toNat 15 = false → s.twinState = 0 → Completes (.twnAttach v) s (fun u =>
          u.twn.attreq = some s.tb ∧ u.flag aTwnCtrl 14 = true ∧ u.outcome = 0 ∧ u.twinState = 0 ∧ SameMemory s u)) ∧
        (bitAt v.toNat 15 = false → s.twinState ≠ 0 → Completes (.twnAttach v) s (fun u =>
          u.flag aTwnCtrl 14 = true ∧ u.outcome = 0 ∧ u.twn = s.twn ∧ u.twinState = s.twinState ∧ SameRegsBut [aTwnCtrl] s u ∧
          SameMemory s u)) ∧
        (s.twinState ≠ 5 → Completes (.twnDetach v) s (fun u => u.twinState = 0 ∧ u.flag aTwnErr 3 = true ∧ u.outcome = 0 ∧
          u.twn.inc = []))) ∧
      ((s.twinState = 0 ∨ s.twinState = 4 → Completes .mclr s (fun u => u.twn.mirror = [] ∧ u.outcome = 0 ∧ u.twinState = s.twinState ∧
          (∀ b, s.f aTwnMirBase 47 0 ≤ b → b < s.f aTwnMirBase 47 0 + 64 * 4096 → cellGet 0 u.hbm b = 0) ∧
          SameHbmBut (s.f aTwnMirBase 47 0) (64 * 4096) s u)) ∧
        (s.twinState ≠ 0 → s.twinState ≠ 4 → exec .mclr s = .next s.refuse))) ∧
    (∀ t0, s.twn.attreq = some t0 → s.twinState = 0 → t0 + 1000000 ≤ s.tb → Completes .attreqRetry s (fun u =>
      u.twn.attreq = some s.tb ∧ SameMemory s u)) ∧
    (∀ (port : Nat) (pkt : Packet), s.hears port pkt = true →
      let ctl := fun k => pOp pkt = 0x39 ∧ pAddr pkt % 16 = k
      let x := fieldAt pkt.data 0 2
      (ctl 1 → s.attachRefusal pkt = 0 → s.twinState = 0 → Completes (.attreq port pkt) s (fun u =>
        u.twinState = 1 ∧ u.twn.attreq = none ∧ u.twn.peerLvl = x)) ∧
      (ctl 1 → s.attachRefusal pkt ≠ 0 → Completes (.attreq port pkt) s (fun u =>
        u.flag aTwnErr 4 = true ∧ u.twn = s.twn ∧ u.twinState = s.twinState ∧ SameMemory s u)) ∧
      (s.fromTwin pkt = true →
        (ctl 2 → s.twinState = 0 → s.twn.attreq.isSome = true → Completes (.attack port pkt) s (fun u =>
          u.twinState = 1 ∧ u.twn.attreq = none ∧ u.twn.peerLvl = x)) ∧
        (ctl 8 → Completes (.attnak port pkt) s (fun u => u.twn.attreq = none ∧ u.twinState = s.twinState ∧ SameMemory s u)) ∧
        (ctl 3 → s.twinUp = true → Completes (.detach port pkt) s (fun u => u.twinState = 0 ∧ u.twn.mirror = [] ∧
          u.flag aTwnErr 3 = true)) ∧
        (ctl 4 → s.twinUp = true → Completes (.begin port pkt) s (fun u => SameMemory s u ∧
          u.twn.inc = s.twn.inc.filter (fun t => t.xid != pTag pkt) ++ [{
            xid := pTag pkt, ckpt := fieldAt pkt.data 0 1 == 1, ctx := fieldAt pkt.data 2 2
            step := word (fieldAt pkt.data 16 8), len := fieldAt pkt.data 4 4, crc := fieldAt pkt.data 8 4, lines := []
            poison := false }])) ∧
        (pOp pkt = 0x38 → s.twinUp = true → Completes (.tmir port pkt) s (fun u => SameMemory s u ∧
          u.twn.inc.length = s.twn.inc.length ∧ ∀ t ∈ s.twn.inc, t.xid = pTag pkt → ∃ t' ∈ u.twn.inc, t'.xid = t.xid ∧
            ∀ i < pLen pkt, tabFind t'.lines (pAddr pkt / 128 + i) = some (sliceBytes pkt.data (128 * i) 128))) ∧
        (∀ t, ctl 5 → s.twinUp = true → s.twn.inc.find? (fun t => t.xid == pTag pkt) = some t →
          let gone := fun (u : State) => u.twn.inc = s.twn.inc.filter (fun u => u.xid != t.xid)
          (t.whole = none → Completes (.endDelta port pkt) s (fun u => gone u ∧ u.twn.mirror = s.twn.mirror ∧ SameMemory s u)) ∧
          (∀ data, t.whole = some data → t.ckpt = false →
            let c := fieldAt data 4 2 % 4096
            (deltaFlag data 2 = true → Completes (.endDelta port pkt) s (fun u => gone u ∧ u.mirrorOf c = mirror0)) ∧
            (deltaFlag data 2 = false → deltaFlag data 1 = true → Completes (.endDelta port pkt) s (fun u => gone u ∧
              u.mirrorOf c = (s.mirrorOf c).apply data))) ∧
          (∀ data m, t.whole = some data → t.ckpt = true → s.mirrorRoom (buffersFor data.length) = some m →
            Completes (.endDelta port pkt) s (fun u => gone u ∧
              (u.mirrorOf (t.ctx % 4096)).units = (m, buffersFor data.length)))) ∧
        (∀ t, s.outOf pkt = some t →
          (ctl 6 → t.ckpt = false → Completes (.ack port pkt) s (fun u => u.reg aTwnCntDelta = s.reg aTwnCntDelta + 1 ∧
            (∀ o ∈ u.twn.out, o.xid ≠ t.xid) ∧ SameMemory s u)) ∧
          (ctl 6 → t.ckpt = true → Completes (.ack port pkt) s (fun u => u.reg aTwnCntCkpt = s.reg aTwnCntCkpt + 1 ∧
            (∀ o ∈ u.twn.out, o.xid ≠ t.xid) ∧ (u.ctx t.ctx).ckpt = none ∧ SameMemory s u)) ∧
          (ctl 7 → fieldAt pkt.data 0 1 = 1 → t.resent < 3 → Completes (.nak port pkt) s (fun u =>
            u.reg aTwnCntNak = s.reg aTwnCntNak + 1 ∧ u.flag aTwnErr 5 = true ∧
            { t with resent := t.resent + 1 } ∈ u.twn.out ∧ u.twinState = s.twinState ∧ SameMemory s u)) ∧
          (ctl 7 → fieldAt pkt.data 0 1 = 1 → 3 ≤ t.resent → Completes (.nak port pkt) s (fun u =>
            u.reg aTwnCntNak = s.reg aTwnCntNak + 1 ∧ u.twinState = 0))))) ∧
    (∀ v : Word, s.tenantShut = false → s.dark = false →
      let a := fld v.toNat 47 0
      let b := s.hbmRead a 32
      let x := fld (fieldAt b 0 8) 11 0
      a % 32 = 0 → s.hbmPoisoned a 32 = false → ckptDescOk b = true → x = fld v.toNat 59 48 → s.twinState = 2 →
      (s.ctx x).lastStep = some (word (fieldAt b 8 8)) → (s.ctx x).ckpt = none →
      s.checkLocal x (fieldAt b 0x10 8) (fieldAt b 0x18 8) permCsrc false = none →
      Completes (.twnCkpt v) s (fun u => u.outcome = 0 ∧ (u.ctx x).ckpt = some s.twn.xid ∧
        u.twn.xid = (s.twn.xid + 1) % 2 ^ 17 ∧ SameMemory s u))

/-- A twin that is up sends one heartbeat in its slot, counted. A heartbeat in time clears the miss run; a window that closes
without one is counted and lengthens it, and the fifth in a row makes a PAIRED engine SUSPECT, which tells the fabric
manager again every ms. CONFIRM makes the engine SURVIVOR with the twin's chip assumed, DENY returns it to PAIRED, FENCED
fences it, LOST breaks every group that holds the chip, and ASSUMED changes nothing. A lawful adoption loads the mirrored
context with its chain. A time exchange is shown and moves the lock; 100 ms without one loses it. READY is published
when discovery ends. -/
def Obligations.TwinsWatchAndTakeOver : Prop :=
  ∀ (s : State),
    (s.halted = false → s.twinUp = true →
      (s.twn.hbSent ≠ s.tb / 10000 → s.tb % 10000 ≤ 10 → Completes .heartbeatSlot s (fun u =>
        u.twn.hbSent = s.tb / 10000 ∧ u.reg aTwnCntHbtx = s.reg aTwnCntHbtx + 1 ∧ SameMemory s u)) ∧
      (∀ n, s.tbLock = true → 64 ≤ s.twn.hbCount → s.closedSlot = some n → Completes .heartbeatMiss s (fun u =>
        u.reg aTwnCntMiss = s.reg aTwnCntMiss + 1 ∧ u.twn.hbNext = n + 1 ∧
        u.f aTwnState 15 8 = min (s.f aTwnState 15 8 + 1) 255 ∧
        u.twinState = (if s.twinState = 2 ∧ 4 ≤ s.f aTwnState 15 8 then 3 else s.twinState) ∧ SameMemory s u))) ∧
    (s.twinState = 3 → s.twn.lastSuspect + 100000 ≤ s.tclk → s.twn.holdoff ≤ s.tclk → Completes .suspectResend s (fun u =>
      u.twn.lastSuspect = s.tclk ∧ u.twinState = 3 ∧ SameMemory s u)) ∧
    (∀ (port : Nat) (pkt : Packet), s.hears port pkt = true →
      let fm := fun k => pOp pkt = 0x3C ∧ pAddr pkt % 256 = k
      let lat : Int := (s.tb : Int) - pAddr pkt * 10000
      (pOp pkt = 0x3A → s.fromTwin pkt = true → s.twinUp = true → 2 * pAddr pkt ∉ s.twn.hbSeen → s.tbLock = true →
        bitAt (pTag pkt) 0 = false → 64 ≤ s.twn.hbCount → (lat - s.f aTwnHblat 15 0).natAbs ≤ 1000 →
        Completes (.thb port pkt) s (fun u => u.reg aTwnCntOntime = s.reg aTwnCntOntime + 1 ∧ u.f aTwnState 15 8 = 0 ∧
          u.twn.hbLast = s.tclk ∧ 2 * pAddr pkt ∈ u.twn.hbSeen ∧
          u.twinState = (if s.twinState = 3 then 2 else s.twinState) ∧ SameMemory s u)) ∧
      (fm 0x12 → s.twinState = 2 ∨ s.twinState = 3 → Completes (.confirm port pkt) s (fun u => u.twinState = 4 ∧
        u.f aTwnState 29 16 = fld (pAddr pkt) 21 8 ∧ u.flag aTwnState 30 = true ∧ u.flag aTwnErr 2 = true ∧ u.twn.inc = [])) ∧
      (fm 0x13 → s.twinState = 3 → Completes (.deny port pkt) s (fun u => u.twinState = 2 ∧ u.f aTwnState 15 8 = 0 ∧
        u.flag aTwnErr 1 = true ∧ u.twn.holdoff = s.tclk + s.f aTwnCtrl 47 32 * 100000 ∧ SameMemory s u)) ∧
      (fm 0x14 → Completes (.fenced port pkt) s (fun u => u.twinState = 5 ∧ u.flag aTwnErr 8 = true)) ∧
      (fm 0x15 → Completes (.lost port pkt) s (fun u => SameMemory s u ∧ ∀ g v, s.group g = some v →
        fld (pAddr pkt) 21 8 ∈ v.members → ∃ v', u.group g = some v' ∧ v'.broken = true ∧
          ∀ r, v.run = some r → r.ended = none → ∃ r', v'.run = some r' ∧ r'.ended = some (2, false))) ∧
      (fm 0x16 → Completes (.assumed port pkt) s (fun u => SameRegsBut [aFabCntRxpkt port, aAccFabRx (pCtx pkt)] s u ∧
        SameMemory s u ∧ u.twn = s.twn ∧ u.reg (aFabCntRxpkt port) = s.reg (aFabCntRxpkt port) + 1))) ∧
    (∀ (v : Word) (id : Nat) (q : Program), s.tenantShut = false → s.dark = false → s.twinState = 4 →
      let c := fld v.toNat 11 0
      let x := fld v.toNat 27 16
      let m := s.mirrorOf c
      let w := s.dir c 0
      let e := fieldAt m.entry 0 8
      let cfg := withFld (withFld (withFld (s.regN (aCtxCfg x)) 1 0 (fld w 4 3)) 7 2 (fld v.toNat 37 32)) 15 8 id
      let s1 := ((s.setReg (aCtxCfg x) (word (withFld cfg 47 32 (fld e 47 32)))).setReg (aCtxQuotaA x)
        (word (fieldAt m.entry 0x10 8))).setReg (aCtxQuotaB x) (word (fieldAt m.entry 0x18 8))
      s.hbmPoisoned (s.dirAt c) 64 = false → bitAt w 0 = true → s.ctxState x = 0 → s.seqClash m = false →
      s.progOf (fld w 63 32) = some (id, q) → ((s1.loadCtx x q).bind (fun t => t.adoptTable x m.table)).isSome = true →
      Completes (.twnAdopt v) s (fun u => u.outcome = 0 ∧ u.ctxState x = 1 ∧ (u.ctx x).assumed = true ∧
        (u.ctx x).chain = word (s.dir c 0x30))) ∧
    (∀ t1 t2 t3 t4 : Nat, s.pwr.inReset = false → s.portsIn ≠ [] → s.twinState ≠ 5 →
      let ofs : Int := (((t2 : Int) - t1) - ((t4 : Int) - t3)) / 2
      let offs := (ofs :: s.twn.offs).take 8
      Completes (.tsync t1 t2 t3 t4) s (fun u => u.reg aTwnTbofs = word (wrapN 32 ofs) ∧ u.twn.synced = true ∧
        u.twn.lastSync = s.tclk ∧ s.tb ≤ u.tb ∧ SameMemory s u ∧
        (s.twn.synced = true → u.tb = s.tb ∧ u.tbPend = -ofs) ∧
        u.tbLock = (if 500 < ofs.natAbs then false
          else if offs.length = 8 ∧ offs.all (fun o => decide (o.natAbs ≤ 50)) = true then true else s.tbLock))) ∧
    (s.twn.lastSync + 10000000 ≤ s.tclk → Completes .tsyncTimeout s (fun u => u.tbLock = false ∧
      (s.tbLock = true → u.flag aTwnErr 7 = true) ∧ SameMemory s u)) ∧
    (∀ t0, s.twn.discovering = some t0 → t0 + s.f aTwnCtrl 31 24 * 100000 ≤ s.tclk → Completes .twinDiscoveryExpire s (fun u =>
      u.ready = true ∧ u.f aPwrBoot 3 0 = 9 ∧ u.twn.discovering = none))
end

