-- ==== Sys2Proof/Laws/Tab.lean ====
section
/-! SUPPORT. Sparse arrays and memories: what a write leaves at its index and at every other one, and that the canonical
form is kept. -/

namespace Sys2Proof.Machine

section Tabs

variable {α : Type} [DecidableEq α]

omit [DecidableEq α] in
@[simp] theorem tabGet_nil (d : α) (i : Nat) : tabGet d [] i = d := rfl

omit [DecidableEq α] in
theorem tabGet_tabPut_same (d : α) (t : Tab α) (i : Nat) (v : α) : tabGet d (tabPut t i v) i = v := by
  induction t with
  | nil => simp [tabPut, tabGet]
  | cons e t ih =>
    obtain ⟨j, x⟩ := e
    rcases lt_trichotomy j i with h | h | h
    · simp [tabPut, tabGet, h, h.ne, ih]
    · simp [tabPut, tabGet, h]
    · simp [tabPut, tabGet, not_lt.2 h.le, h.ne']

omit [DecidableEq α] in
theorem tabGet_tabPut_other (d : α) (t : Tab α) {i k : Nat} (v : α) (h : k ≠ i) :
    tabGet d (tabPut t i v) k = tabGet d t k := by
  induction t with
  | nil => simp [tabPut, tabGet, h.symm]
  | cons e t ih =>
    obtain ⟨j, x⟩ := e
    rcases lt_trichotomy j i with g | g | g
    · simp [tabPut, tabGet, g, ih]
    · subst g; simp [tabPut, tabGet, h.symm]
    · simp [tabPut, tabGet, not_lt.2 g.le, g.ne', h.symm]

omit [DecidableEq α] in
theorem tabGet_tabErase_same (d : α) (t : Tab α) (i : Nat) : tabGet d (tabErase t i) i = d := by
  induction t with
  | nil => rfl
  | cons e t ih =>
    obtain ⟨j, x⟩ := e
    by_cases g : j = i <;> simp [tabErase, tabGet, g, ih]

omit [DecidableEq α] in
theorem tabGet_tabErase_other (d : α) (t : Tab α) {i k : Nat} (h : k ≠ i) :
    tabGet d (tabErase t i) k = tabGet d t k := by
  induction t with
  | nil => rfl
  | cons e t ih =>
    obtain ⟨j, x⟩ := e
    by_cases g : j = i
    · subst g; simp [tabErase, tabGet, h.symm, ih]
    · simp [tabErase, tabGet, g, ih]

/-- What was written is read back. -/
theorem tabGet_tabSet_same (d : α) (t : Tab α) (i : Nat) (v : α) : tabGet d (tabSet d t i v) i = v := by
  unfold tabSet
  split
  · next h => rw [h, tabGet_tabErase_same]
  · exact tabGet_tabPut_same d t i v

/-- A write leaves every other index. -/
theorem tabGet_tabSet_other (d : α) (t : Tab α) {i k : Nat} (v : α) (h : k ≠ i) :
    tabGet d (tabSet d t i v) k = tabGet d t k := by
  unfold tabSet
  split
  · exact tabGet_tabErase_other d t h
  · exact tabGet_tabPut_other d t v h


end Tabs

/-! ## Memories -/

@[simp] theorem cellGet_cellSet_same (d : Byte) (m : List Host.Cell) (a : Nat) (v : Byte) :
    cellGet d (cellSet d m a v) a = v := tabGet_tabSet_same d m a v

theorem cellGet_cellSet_other (d : Byte) (m : List Host.Cell) {a b : Nat} (v : Byte) (h : b ≠ a) :
    cellGet d (cellSet d m a v) b = cellGet d m b := tabGet_tabSet_other d m v h

/-- A byte outside a write is unchanged. -/
theorem cellGet_cellWrite_other (d : Byte) (m : List Host.Cell) (a : Nat) (bs : Bytes) (b : Nat)
    (h : b < a ∨ a + bs.length ≤ b) : cellGet d (cellWrite d m a bs) b = cellGet d m b := by
  induction bs generalizing a with
  | nil => rfl
  | cons x bs ih =>
    simp only [List.length_cons] at h
    rw [cellWrite, cellGet_cellSet_other d _ _ (by omega), ih _ (by omega)]

/-- A byte inside a write is the byte written. -/
theorem cellGet_cellWrite_inside (d : Byte) (m : List Host.Cell) (a : Nat) (bs : Bytes) (i : Nat) (h : i < bs.length) :
    cellGet d (cellWrite d m a bs) (a + i) = bs[i] := by
  induction bs generalizing a i with
  | nil => simp at h
  | cons x bs ih =>
    cases i with
    | zero => simp [cellWrite]
    | succ i =>
      rw [cellWrite, cellGet_cellSet_other d _ _ (by omega)]
      simp only [List.length_cons, Nat.add_lt_add_iff_right] at h
      have := ih (a + 1) i h
      simpa [Nat.add_assoc, Nat.add_comm 1 i] using this

/-- The canonical form as one chain of rising addresses without default bytes. -/
theorem wf_cons_iff (d : Byte) (e : Host.Cell) (m : List Host.Cell) :
    Memory.wf d (e :: m) = true ↔ e.2 ≠ d ∧ (∀ f ∈ m.head?, e.1 < f.1) ∧ Memory.wf d m = true := by
  obtain ⟨a, x⟩ := e
  cases m with
  | nil => simp [Memory.wf]
  | cons f m =>
    obtain ⟨b, y⟩ := f
    simp [Memory.wf, and_assoc]

theorem wf_tail {d : Byte} {e : Host.Cell} {m : List Host.Cell} (h : Memory.wf d (e :: m) = true) :
    Memory.wf d m = true := ((wf_cons_iff d e m).1 h).2.2

/-- All addresses behind the first one of a canonical memory are above it. -/
theorem wf_above {d : Byte} {e : Host.Cell} {m : List Host.Cell} (h : Memory.wf d (e :: m) = true) :
    ∀ f ∈ m, e.1 < f.1 := by
  induction m generalizing e with
  | nil => simp
  | cons g m ih =>
    have h1 := (wf_cons_iff d e (g :: m)).1 h
    intro f hf
    rcases List.mem_cons.1 hf with rfl | hf
    · exact h1.2.1 f (by simp)
    · exact lt_trans (h1.2.1 g (by simp)) (ih h1.2.2 f hf)

/-- A canonical memory from a canonical rest whose addresses are all above. -/
theorem wf_of_above {d : Byte} {e : Host.Cell} {m : List Host.Cell} (h1 : e.2 ≠ d) (h2 : ∀ f ∈ m, e.1 < f.1)
    (h3 : Memory.wf d m = true) : Memory.wf d (e :: m) = true :=
  (wf_cons_iff d e m).2 ⟨h1, fun f hf => h2 f (List.mem_of_mem_head? hf), h3⟩

/-- Every kept entry of a canonical memory stays in order. -/
theorem wf_filter (d : Byte) (p : Host.Cell → Bool) (m : List Host.Cell) (h : Memory.wf d m = true) :
    Memory.wf d (m.filter p) = true := by
  induction m with
  | nil => rfl
  | cons e m ih =>
    by_cases hp : p e
    · rw [List.filter_cons_of_pos hp]
      exact wf_of_above ((wf_cons_iff d e m).1 h).1 (fun f hf => wf_above h f (List.mem_of_mem_filter hf))
        (ih (wf_tail h))
    · rw [List.filter_cons_of_neg hp]
      exact ih (wf_tail h)

theorem mem_tabErase {α : Type} {t : Tab α} {i : Nat} {e : Nat × α} (h : e ∈ tabErase t i) : e ∈ t := by
  induction t with
  | nil => exact h
  | cons f t ih =>
    obtain ⟨j, x⟩ := f
    by_cases g : j = i
    · simp only [tabErase, g, beq_self_eq_true, if_true] at h
      exact List.mem_cons_of_mem _ (ih h)
    · simp only [tabErase, beq_iff_eq, g, if_false, List.mem_cons] at h
      rcases h with h | h
      · exact h ▸ List.mem_cons_self
      · exact List.mem_cons_of_mem _ (ih h)

theorem mem_tabPut {α : Type} {t : Tab α} {i : Nat} {v : α} {e : Nat × α} (h : e ∈ tabPut t i v) :
    e = (i, v) ∨ e ∈ t := by
  induction t with
  | nil => simpa [tabPut] using h
  | cons f t ih =>
    obtain ⟨j, x⟩ := f
    rcases lt_trichotomy j i with g | g | g
    · simp only [tabPut, g, if_true, List.mem_cons] at h ⊢
      rcases h with h | h
      · exact Or.inr (Or.inl h)
      · exact (ih h).imp_right Or.inr
    · subst g
      simp only [tabPut, lt_irrefl, if_false, beq_self_eq_true, if_true, List.mem_cons] at h ⊢
      exact h.imp_right Or.inr
    · simp only [tabPut, not_lt.2 g.le, beq_iff_eq, g.ne', if_false, List.mem_cons] at h ⊢
      exact h

/-- Erasing an address keeps the canonical form. -/
theorem wf_tabErase (d : Byte) (m : List Host.Cell) (a : Nat) (h : Memory.wf d m = true) :
    Memory.wf d (tabErase m a) = true := by
  induction m with
  | nil => rfl
  | cons e m ih =>
    obtain ⟨j, x⟩ := e
    by_cases g : j = a
    · simpa [tabErase, g] using ih (wf_tail h)
    · simp only [tabErase, beq_iff_eq, g, if_false]
      exact wf_of_above ((wf_cons_iff d (j, x) m).1 h).1 (fun f hf => wf_above h f (mem_tabErase hf)) (ih (wf_tail h))

/-- Listing a byte that is not the default keeps the canonical form. -/
theorem wf_tabPut (d : Byte) (m : List Host.Cell) (a : Nat) (v : Byte) (hv : v ≠ d) (h : Memory.wf d m = true) :
    Memory.wf d (tabPut m a v) = true := by
  induction m with
  | nil => simp [tabPut, Memory.wf, hv]
  | cons e m ih =>
    obtain ⟨j, x⟩ := e
    have hx := ((wf_cons_iff d (j, x) m).1 h).1
    rcases lt_trichotomy j a with g | g | g
    · simp only [tabPut, g, if_true]
      refine wf_of_above hx (fun f hf => ?_) (ih (wf_tail h))
      rcases mem_tabPut hf with rfl | hf
      · exact g
      · exact wf_above h f hf
    · subst g
      simp only [tabPut, lt_irrefl, if_false, beq_self_eq_true, if_true]
      exact wf_of_above hv (fun f hf => wf_above (e := (j, x)) h f hf) (wf_tail h)
    · simp only [tabPut, not_lt.2 g.le, beq_iff_eq, g.ne', if_false]
      refine wf_of_above hv (fun f hf => ?_) h
      rcases List.mem_cons.1 hf with rfl | hf
      · exact g
      · exact lt_trans g (wf_above h f hf)

/-- A write of one byte keeps the canonical form. -/
theorem wf_cellSet (d : Byte) (m : List Host.Cell) (a : Nat) (v : Byte) (h : Memory.wf d m = true) :
    Memory.wf d (cellSet d m a v) = true := by
  unfold cellSet tabSet
  split
  · exact wf_tabErase d m a h
  · next hv => exact wf_tabPut d m a v hv h

/-- A write of a byte string keeps the canonical form. -/
theorem wf_cellWrite (d : Byte) (m : List Host.Cell) (a : Nat) (bs : Bytes) (h : Memory.wf d m = true) :
    Memory.wf d (cellWrite d m a bs) = true := by
  induction bs generalizing a with
  | nil => exact h
  | cons x bs ih => exact wf_cellSet d _ a x (ih (a + 1))

end Sys2Proof.Machine
end

