-- ==== Sys2Proof/Laws/State.lean ====
section
/-! SUPPORT. What each basic update of the state leaves unchanged, and what a register reads after a write. -/

namespace Sys2Proof.Machine

/-! ## setReg -/

@[simp] theorem State.setReg_pending (s : State) (a : Nat) (v : Word) : (s.setReg a v).pending = s.pending := rfl
@[simp] theorem State.setReg_hbm (s : State) (a : Nat) (v : Word) : (s.setReg a v).hbm = s.hbm := rfl
@[simp] theorem State.setReg_hbmPoison (s : State) (a : Nat) (v : Word) : (s.setReg a v).hbmPoison = s.hbmPoison := rfl
@[simp] theorem State.setReg_stk (s : State) (a : Nat) (v : Word) : (s.setReg a v).stk = s.stk := rfl
@[simp] theorem State.setReg_stkPoison (s : State) (a : Nat) (v : Word) : (s.setReg a v).stkPoison = s.stkPoison := rfl
@[simp] theorem State.setReg_flash (s : State) (a : Nat) (v : Word) : (s.setReg a v).flash = s.flash := rfl
@[simp] theorem State.setReg_tclk (s : State) (a : Nat) (v : Word) : (s.setReg a v).tclk = s.tclk := rfl
@[simp] theorem State.setReg_tb (s : State) (a : Nat) (v : Word) : (s.setReg a v).tb = s.tb := rfl
@[simp] theorem State.setReg_freeCtr (s : State) (a : Nat) (v : Word) : (s.setReg a v).freeCtr = s.freeCtr := rfl
@[simp] theorem State.setReg_reply (s : State) (a : Nat) (v : Word) : (s.setReg a v).reply = s.reply := rfl
@[simp] theorem State.setReg_atn (s : State) (a : Nat) (v : Word) : (s.setReg a v).atn = s.atn := rfl
@[simp] theorem State.setReg_rgm (s : State) (a : Nat) (v : Word) : (s.setReg a v).rgm = s.rgm := rfl
@[simp] theorem State.setReg_car (s : State) (a : Nat) (v : Word) : (s.setReg a v).car = s.car := rfl
@[simp] theorem State.setReg_lanes (s : State) (a : Nat) (v : Word) : (s.setReg a v).lanes = s.lanes := rfl
@[simp] theorem State.setReg_sca (s : State) (a : Nat) (v : Word) : (s.setReg a v).sca = s.sca := rfl
@[simp] theorem State.setReg_shd (s : State) (a : Nat) (v : Word) : (s.setReg a v).shd = s.shd := rfl
@[simp] theorem State.setReg_dlm (s : State) (a : Nat) (v : Word) : (s.setReg a v).dlm = s.dlm := rfl
@[simp] theorem State.setReg_pol (s : State) (a : Nat) (v : Word) : (s.setReg a v).pol = s.pol := rfl
@[simp] theorem State.setReg_pwr (s : State) (a : Nat) (v : Word) : (s.setReg a v).pwr = s.pwr := rfl
@[simp] theorem State.setReg_fab (s : State) (a : Nat) (v : Word) : (s.setReg a v).fab = s.fab := rfl
@[simp] theorem State.setReg_ring (s : State) (a : Nat) (v : Word) : (s.setReg a v).ring = s.ring := rfl
@[simp] theorem State.setReg_ctxs (s : State) (a : Nat) (v : Word) : (s.setReg a v).ctxs = s.ctxs := rfl
@[simp] theorem State.setReg_col (s : State) (a : Nat) (v : Word) : (s.setReg a v).col = s.col := rfl
@[simp] theorem State.setReg_twn (s : State) (a : Nat) (v : Word) : (s.setReg a v).twn = s.twn := rfl
@[simp] theorem State.setReg_way (s : State) (a : Nat) (v : Word) : (s.setReg a v).way = s.way := rfl
@[simp] theorem State.setReg_mgt (s : State) (a : Nat) (v : Word) : (s.setReg a v).mgt = s.mgt := rfl
@[simp] theorem State.setReg_cfg (s : State) (a : Nat) (v : Word) : (s.setReg a v).cfg = s.cfg := rfl
@[simp] theorem State.setReg_stack (s : State) (a : Nat) (v : Word) : (s.setReg a v).stack = s.stack := rfl
@[simp] theorem State.setReg_slices (s : State) (a : Nat) (v : Word) : (s.setReg a v).slices = s.slices := rfl
@[simp] theorem State.setReg_tap (s : State) (a : Nat) (v : Word) : (s.setReg a v).tap = s.tap := rfl
@[simp] theorem State.setReg_tbPend (s : State) (a : Nat) (v : Word) : (s.setReg a v).tbPend = s.tbPend := rfl
@[simp] theorem State.setReg_slStat (s : State) (a : Nat) (v : Word) : (s.setReg a v).slStat = s.slStat := rfl
@[simp] theorem State.setReg_i3cReply (s : State) (a : Nat) (v : Word) : (s.setReg a v).i3cReply = s.i3cReply := rfl
@[simp] theorem State.setReg_i3cOut (s : State) (a : Nat) (v : Word) : (s.setReg a v).i3cOut = s.i3cOut := rfl

/-! ## setF -/

@[simp] theorem State.setF_pending (s : State) (a hi lo v : Nat) : (s.setF a hi lo v).pending = s.pending := rfl
@[simp] theorem State.setF_hbm (s : State) (a hi lo v : Nat) : (s.setF a hi lo v).hbm = s.hbm := rfl
@[simp] theorem State.setF_hbmPoison (s : State) (a hi lo v : Nat) : (s.setF a hi lo v).hbmPoison = s.hbmPoison := rfl
@[simp] theorem State.setF_stk (s : State) (a hi lo v : Nat) : (s.setF a hi lo v).stk = s.stk := rfl
@[simp] theorem State.setF_stkPoison (s : State) (a hi lo v : Nat) : (s.setF a hi lo v).stkPoison = s.stkPoison := rfl
@[simp] theorem State.setF_flash (s : State) (a hi lo v : Nat) : (s.setF a hi lo v).flash = s.flash := rfl
@[simp] theorem State.setF_tclk (s : State) (a hi lo v : Nat) : (s.setF a hi lo v).tclk = s.tclk := rfl
@[simp] theorem State.setF_tb (s : State) (a hi lo v : Nat) : (s.setF a hi lo v).tb = s.tb := rfl
@[simp] theorem State.setF_freeCtr (s : State) (a hi lo v : Nat) : (s.setF a hi lo v).freeCtr = s.freeCtr := rfl
@[simp] theorem State.setF_reply (s : State) (a hi lo v : Nat) : (s.setF a hi lo v).reply = s.reply := rfl
@[simp] theorem State.setF_atn (s : State) (a hi lo v : Nat) : (s.setF a hi lo v).atn = s.atn := rfl
@[simp] theorem State.setF_rgm (s : State) (a hi lo v : Nat) : (s.setF a hi lo v).rgm = s.rgm := rfl
@[simp] theorem State.setF_car (s : State) (a hi lo v : Nat) : (s.setF a hi lo v).car = s.car := rfl
@[simp] theorem State.setF_lanes (s : State) (a hi lo v : Nat) : (s.setF a hi lo v).lanes = s.lanes := rfl
@[simp] theorem State.setF_sca (s : State) (a hi lo v : Nat) : (s.setF a hi lo v).sca = s.sca := rfl
@[simp] theorem State.setF_shd (s : State) (a hi lo v : Nat) : (s.setF a hi lo v).shd = s.shd := rfl
@[simp] theorem State.setF_dlm (s : State) (a hi lo v : Nat) : (s.setF a hi lo v).dlm = s.dlm := rfl
@[simp] theorem State.setF_pol (s : State) (a hi lo v : Nat) : (s.setF a hi lo v).pol = s.pol := rfl
@[simp] theorem State.setF_pwr (s : State) (a hi lo v : Nat) : (s.setF a hi lo v).pwr = s.pwr := rfl
@[simp] theorem State.setF_fab (s : State) (a hi lo v : Nat) : (s.setF a hi lo v).fab = s.fab := rfl
@[simp] theorem State.setF_ring (s : State) (a hi lo v : Nat) : (s.setF a hi lo v).ring = s.ring := rfl
@[simp] theorem State.setF_ctxs (s : State) (a hi lo v : Nat) : (s.setF a hi lo v).ctxs = s.ctxs := rfl
@[simp] theorem State.setF_col (s : State) (a hi lo v : Nat) : (s.setF a hi lo v).col = s.col := rfl
@[simp] theorem State.setF_twn (s : State) (a hi lo v : Nat) : (s.setF a hi lo v).twn = s.twn := rfl
@[simp] theorem State.setF_way (s : State) (a hi lo v : Nat) : (s.setF a hi lo v).way = s.way := rfl
@[simp] theorem State.setF_mgt (s : State) (a hi lo v : Nat) : (s.setF a hi lo v).mgt = s.mgt := rfl
@[simp] theorem State.setF_cfg (s : State) (a hi lo v : Nat) : (s.setF a hi lo v).cfg = s.cfg := rfl
@[simp] theorem State.setF_stack (s : State) (a hi lo v : Nat) : (s.setF a hi lo v).stack = s.stack := rfl
@[simp] theorem State.setF_slices (s : State) (a hi lo v : Nat) : (s.setF a hi lo v).slices = s.slices := rfl
@[simp] theorem State.setF_tap (s : State) (a hi lo v : Nat) : (s.setF a hi lo v).tap = s.tap := rfl
@[simp] theorem State.setF_tbPend (s : State) (a hi lo v : Nat) : (s.setF a hi lo v).tbPend = s.tbPend := rfl
@[simp] theorem State.setF_slStat (s : State) (a hi lo v : Nat) : (s.setF a hi lo v).slStat = s.slStat := rfl
@[simp] theorem State.setF_i3cReply (s : State) (a hi lo v : Nat) : (s.setF a hi lo v).i3cReply = s.i3cReply := rfl
@[simp] theorem State.setF_i3cOut (s : State) (a hi lo v : Nat) : (s.setF a hi lo v).i3cOut = s.i3cOut := rfl

/-! ## addCtr -/

@[simp] theorem State.addCtr_pending (s : State) (a n : Nat) : (s.addCtr a n).pending = s.pending := rfl
@[simp] theorem State.addCtr_hbm (s : State) (a n : Nat) : (s.addCtr a n).hbm = s.hbm := rfl
@[simp] theorem State.addCtr_hbmPoison (s : State) (a n : Nat) : (s.addCtr a n).hbmPoison = s.hbmPoison := rfl
@[simp] theorem State.addCtr_stk (s : State) (a n : Nat) : (s.addCtr a n).stk = s.stk := rfl
@[simp] theorem State.addCtr_stkPoison (s : State) (a n : Nat) : (s.addCtr a n).stkPoison = s.stkPoison := rfl
@[simp] theorem State.addCtr_flash (s : State) (a n : Nat) : (s.addCtr a n).flash = s.flash := rfl
@[simp] theorem State.addCtr_tclk (s : State) (a n : Nat) : (s.addCtr a n).tclk = s.tclk := rfl
@[simp] theorem State.addCtr_tb (s : State) (a n : Nat) : (s.addCtr a n).tb = s.tb := rfl
@[simp] theorem State.addCtr_freeCtr (s : State) (a n : Nat) : (s.addCtr a n).freeCtr = s.freeCtr := rfl
@[simp] theorem State.addCtr_reply (s : State) (a n : Nat) : (s.addCtr a n).reply = s.reply := rfl
@[simp] theorem State.addCtr_atn (s : State) (a n : Nat) : (s.addCtr a n).atn = s.atn := rfl
@[simp] theorem State.addCtr_rgm (s : State) (a n : Nat) : (s.addCtr a n).rgm = s.rgm := rfl
@[simp] theorem State.addCtr_car (s : State) (a n : Nat) : (s.addCtr a n).car = s.car := rfl
@[simp] theorem State.addCtr_lanes (s : State) (a n : Nat) : (s.addCtr a n).lanes = s.lanes := rfl
@[simp] theorem State.addCtr_sca (s : State) (a n : Nat) : (s.addCtr a n).sca = s.sca := rfl
@[simp] theorem State.addCtr_shd (s : State) (a n : Nat) : (s.addCtr a n).shd = s.shd := rfl
@[simp] theorem State.addCtr_dlm (s : State) (a n : Nat) : (s.addCtr a n).dlm = s.dlm := rfl
@[simp] theorem State.addCtr_pol (s : State) (a n : Nat) : (s.addCtr a n).pol = s.pol := rfl
@[simp] theorem State.addCtr_pwr (s : State) (a n : Nat) : (s.addCtr a n).pwr = s.pwr := rfl
@[simp] theorem State.addCtr_fab (s : State) (a n : Nat) : (s.addCtr a n).fab = s.fab := rfl
@[simp] theorem State.addCtr_ring (s : State) (a n : Nat) : (s.addCtr a n).ring = s.ring := rfl
@[simp] theorem State.addCtr_ctxs (s : State) (a n : Nat) : (s.addCtr a n).ctxs = s.ctxs := rfl
@[simp] theorem State.addCtr_col (s : State) (a n : Nat) : (s.addCtr a n).col = s.col := rfl
@[simp] theorem State.addCtr_twn (s : State) (a n : Nat) : (s.addCtr a n).twn = s.twn := rfl
@[simp] theorem State.addCtr_way (s : State) (a n : Nat) : (s.addCtr a n).way = s.way := rfl
@[simp] theorem State.addCtr_mgt (s : State) (a n : Nat) : (s.addCtr a n).mgt = s.mgt := rfl
@[simp] theorem State.addCtr_cfg (s : State) (a n : Nat) : (s.addCtr a n).cfg = s.cfg := rfl
@[simp] theorem State.addCtr_stack (s : State) (a n : Nat) : (s.addCtr a n).stack = s.stack := rfl
@[simp] theorem State.addCtr_slices (s : State) (a n : Nat) : (s.addCtr a n).slices = s.slices := rfl
@[simp] theorem State.addCtr_tap (s : State) (a n : Nat) : (s.addCtr a n).tap = s.tap := rfl
@[simp] theorem State.addCtr_tbPend (s : State) (a n : Nat) : (s.addCtr a n).tbPend = s.tbPend := rfl
@[simp] theorem State.addCtr_slStat (s : State) (a n : Nat) : (s.addCtr a n).slStat = s.slStat := rfl
@[simp] theorem State.addCtr_i3cReply (s : State) (a n : Nat) : (s.addCtr a n).i3cReply = s.i3cReply := rfl
@[simp] theorem State.addCtr_i3cOut (s : State) (a n : Nat) : (s.addCtr a n).i3cOut = s.i3cOut := rfl

/-! ## bump -/

@[simp] theorem State.bump_pending (s : State) (a : Nat) : (s.bump a).pending = s.pending := rfl
@[simp] theorem State.bump_hbm (s : State) (a : Nat) : (s.bump a).hbm = s.hbm := rfl
@[simp] theorem State.bump_hbmPoison (s : State) (a : Nat) : (s.bump a).hbmPoison = s.hbmPoison := rfl
@[simp] theorem State.bump_stk (s : State) (a : Nat) : (s.bump a).stk = s.stk := rfl
@[simp] theorem State.bump_stkPoison (s : State) (a : Nat) : (s.bump a).stkPoison = s.stkPoison := rfl
@[simp] theorem State.bump_flash (s : State) (a : Nat) : (s.bump a).flash = s.flash := rfl
@[simp] theorem State.bump_tclk (s : State) (a : Nat) : (s.bump a).tclk = s.tclk := rfl
@[simp] theorem State.bump_tb (s : State) (a : Nat) : (s.bump a).tb = s.tb := rfl
@[simp] theorem State.bump_freeCtr (s : State) (a : Nat) : (s.bump a).freeCtr = s.freeCtr := rfl
@[simp] theorem State.bump_reply (s : State) (a : Nat) : (s.bump a).reply = s.reply := rfl
@[simp] theorem State.bump_atn (s : State) (a : Nat) : (s.bump a).atn = s.atn := rfl
@[simp] theorem State.bump_rgm (s : State) (a : Nat) : (s.bump a).rgm = s.rgm := rfl
@[simp] theorem State.bump_car (s : State) (a : Nat) : (s.bump a).car = s.car := rfl
@[simp] theorem State.bump_lanes (s : State) (a : Nat) : (s.bump a).lanes = s.lanes := rfl
@[simp] theorem State.bump_sca (s : State) (a : Nat) : (s.bump a).sca = s.sca := rfl
@[simp] theorem State.bump_shd (s : State) (a : Nat) : (s.bump a).shd = s.shd := rfl
@[simp] theorem State.bump_dlm (s : State) (a : Nat) : (s.bump a).dlm = s.dlm := rfl
@[simp] theorem State.bump_pol (s : State) (a : Nat) : (s.bump a).pol = s.pol := rfl
@[simp] theorem State.bump_pwr (s : State) (a : Nat) : (s.bump a).pwr = s.pwr := rfl
@[simp] theorem State.bump_fab (s : State) (a : Nat) : (s.bump a).fab = s.fab := rfl
@[simp] theorem State.bump_ring (s : State) (a : Nat) : (s.bump a).ring = s.ring := rfl
@[simp] theorem State.bump_ctxs (s : State) (a : Nat) : (s.bump a).ctxs = s.ctxs := rfl
@[simp] theorem State.bump_col (s : State) (a : Nat) : (s.bump a).col = s.col := rfl
@[simp] theorem State.bump_twn (s : State) (a : Nat) : (s.bump a).twn = s.twn := rfl
@[simp] theorem State.bump_way (s : State) (a : Nat) : (s.bump a).way = s.way := rfl
@[simp] theorem State.bump_mgt (s : State) (a : Nat) : (s.bump a).mgt = s.mgt := rfl
@[simp] theorem State.bump_cfg (s : State) (a : Nat) : (s.bump a).cfg = s.cfg := rfl
@[simp] theorem State.bump_stack (s : State) (a : Nat) : (s.bump a).stack = s.stack := rfl
@[simp] theorem State.bump_slices (s : State) (a : Nat) : (s.bump a).slices = s.slices := rfl
@[simp] theorem State.bump_tap (s : State) (a : Nat) : (s.bump a).tap = s.tap := rfl
@[simp] theorem State.bump_tbPend (s : State) (a : Nat) : (s.bump a).tbPend = s.tbPend := rfl
@[simp] theorem State.bump_slStat (s : State) (a : Nat) : (s.bump a).slStat = s.slStat := rfl
@[simp] theorem State.bump_i3cReply (s : State) (a : Nat) : (s.bump a).i3cReply = s.i3cReply := rfl
@[simp] theorem State.bump_i3cOut (s : State) (a : Nat) : (s.bump a).i3cOut = s.i3cOut := rfl

/-! ## setBit -/

@[simp] theorem State.setBit_pending (s : State) (a n : Nat) : (s.setBit a n).pending = s.pending := rfl
@[simp] theorem State.setBit_hbm (s : State) (a n : Nat) : (s.setBit a n).hbm = s.hbm := rfl
@[simp] theorem State.setBit_hbmPoison (s : State) (a n : Nat) : (s.setBit a n).hbmPoison = s.hbmPoison := rfl
@[simp] theorem State.setBit_stk (s : State) (a n : Nat) : (s.setBit a n).stk = s.stk := rfl
@[simp] theorem State.setBit_stkPoison (s : State) (a n : Nat) : (s.setBit a n).stkPoison = s.stkPoison := rfl
@[simp] theorem State.setBit_flash (s : State) (a n : Nat) : (s.setBit a n).flash = s.flash := rfl
@[simp] theorem State.setBit_tclk (s : State) (a n : Nat) : (s.setBit a n).tclk = s.tclk := rfl
@[simp] theorem State.setBit_tb (s : State) (a n : Nat) : (s.setBit a n).tb = s.tb := rfl
@[simp] theorem State.setBit_freeCtr (s : State) (a n : Nat) : (s.setBit a n).freeCtr = s.freeCtr := rfl
@[simp] theorem State.setBit_reply (s : State) (a n : Nat) : (s.setBit a n).reply = s.reply := rfl
@[simp] theorem State.setBit_atn (s : State) (a n : Nat) : (s.setBit a n).atn = s.atn := rfl
@[simp] theorem State.setBit_rgm (s : State) (a n : Nat) : (s.setBit a n).rgm = s.rgm := rfl
@[simp] theorem State.setBit_car (s : State) (a n : Nat) : (s.setBit a n).car = s.car := rfl
@[simp] theorem State.setBit_lanes (s : State) (a n : Nat) : (s.setBit a n).lanes = s.lanes := rfl
@[simp] theorem State.setBit_sca (s : State) (a n : Nat) : (s.setBit a n).sca = s.sca := rfl
@[simp] theorem State.setBit_shd (s : State) (a n : Nat) : (s.setBit a n).shd = s.shd := rfl
@[simp] theorem State.setBit_dlm (s : State) (a n : Nat) : (s.setBit a n).dlm = s.dlm := rfl
@[simp] theorem State.setBit_pol (s : State) (a n : Nat) : (s.setBit a n).pol = s.pol := rfl
@[simp] theorem State.setBit_pwr (s : State) (a n : Nat) : (s.setBit a n).pwr = s.pwr := rfl
@[simp] theorem State.setBit_fab (s : State) (a n : Nat) : (s.setBit a n).fab = s.fab := rfl
@[simp] theorem State.setBit_ring (s : State) (a n : Nat) : (s.setBit a n).ring = s.ring := rfl
@[simp] theorem State.setBit_ctxs (s : State) (a n : Nat) : (s.setBit a n).ctxs = s.ctxs := rfl
@[simp] theorem State.setBit_col (s : State) (a n : Nat) : (s.setBit a n).col = s.col := rfl
@[simp] theorem State.setBit_twn (s : State) (a n : Nat) : (s.setBit a n).twn = s.twn := rfl
@[simp] theorem State.setBit_way (s : State) (a n : Nat) : (s.setBit a n).way = s.way := rfl
@[simp] theorem State.setBit_mgt (s : State) (a n : Nat) : (s.setBit a n).mgt = s.mgt := rfl
@[simp] theorem State.setBit_cfg (s : State) (a n : Nat) : (s.setBit a n).cfg = s.cfg := rfl
@[simp] theorem State.setBit_stack (s : State) (a n : Nat) : (s.setBit a n).stack = s.stack := rfl
@[simp] theorem State.setBit_slices (s : State) (a n : Nat) : (s.setBit a n).slices = s.slices := rfl
@[simp] theorem State.setBit_tap (s : State) (a n : Nat) : (s.setBit a n).tap = s.tap := rfl
@[simp] theorem State.setBit_tbPend (s : State) (a n : Nat) : (s.setBit a n).tbPend = s.tbPend := rfl
@[simp] theorem State.setBit_slStat (s : State) (a n : Nat) : (s.setBit a n).slStat = s.slStat := rfl
@[simp] theorem State.setBit_i3cReply (s : State) (a n : Nat) : (s.setBit a n).i3cReply = s.i3cReply := rfl
@[simp] theorem State.setBit_i3cOut (s : State) (a n : Nat) : (s.setBit a n).i3cOut = s.i3cOut := rfl

/-! ## satAdd -/

@[simp] theorem State.satAdd_pending (s : State) (a hi lo n : Nat) : (s.satAdd a hi lo n).pending = s.pending := rfl
@[simp] theorem State.satAdd_hbm (s : State) (a hi lo n : Nat) : (s.satAdd a hi lo n).hbm = s.hbm := rfl
@[simp] theorem State.satAdd_hbmPoison (s : State) (a hi lo n : Nat) : (s.satAdd a hi lo n).hbmPoison = s.hbmPoison := rfl
@[simp] theorem State.satAdd_stk (s : State) (a hi lo n : Nat) : (s.satAdd a hi lo n).stk = s.stk := rfl
@[simp] theorem State.satAdd_stkPoison (s : State) (a hi lo n : Nat) : (s.satAdd a hi lo n).stkPoison = s.stkPoison := rfl
@[simp] theorem State.satAdd_flash (s : State) (a hi lo n : Nat) : (s.satAdd a hi lo n).flash = s.flash := rfl
@[simp] theorem State.satAdd_tclk (s : State) (a hi lo n : Nat) : (s.satAdd a hi lo n).tclk = s.tclk := rfl
@[simp] theorem State.satAdd_tb (s : State) (a hi lo n : Nat) : (s.satAdd a hi lo n).tb = s.tb := rfl
@[simp] theorem State.satAdd_freeCtr (s : State) (a hi lo n : Nat) : (s.satAdd a hi lo n).freeCtr = s.freeCtr := rfl
@[simp] theorem State.satAdd_reply (s : State) (a hi lo n : Nat) : (s.satAdd a hi lo n).reply = s.reply := rfl
@[simp] theorem State.satAdd_atn (s : State) (a hi lo n : Nat) : (s.satAdd a hi lo n).atn = s.atn := rfl
@[simp] theorem State.satAdd_rgm (s : State) (a hi lo n : Nat) : (s.satAdd a hi lo n).rgm = s.rgm := rfl
@[simp] theorem State.satAdd_car (s : State) (a hi lo n : Nat) : (s.satAdd a hi lo n).car = s.car := rfl
@[simp] theorem State.satAdd_lanes (s : State) (a hi lo n : Nat) : (s.satAdd a hi lo n).lanes = s.lanes := rfl
@[simp] theorem State.satAdd_sca (s : State) (a hi lo n : Nat) : (s.satAdd a hi lo n).sca = s.sca := rfl
@[simp] theorem State.satAdd_shd (s : State) (a hi lo n : Nat) : (s.satAdd a hi lo n).shd = s.shd := rfl
@[simp] theorem State.satAdd_dlm (s : State) (a hi lo n : Nat) : (s.satAdd a hi lo n).dlm = s.dlm := rfl
@[simp] theorem State.satAdd_pol (s : State) (a hi lo n : Nat) : (s.satAdd a hi lo n).pol = s.pol := rfl
@[simp] theorem State.satAdd_pwr (s : State) (a hi lo n : Nat) : (s.satAdd a hi lo n).pwr = s.pwr := rfl
@[simp] theorem State.satAdd_fab (s : State) (a hi lo n : Nat) : (s.satAdd a hi lo n).fab = s.fab := rfl
@[simp] theorem State.satAdd_ring (s : State) (a hi lo n : Nat) : (s.satAdd a hi lo n).ring = s.ring := rfl
@[simp] theorem State.satAdd_ctxs (s : State) (a hi lo n : Nat) : (s.satAdd a hi lo n).ctxs = s.ctxs := rfl
@[simp] theorem State.satAdd_col (s : State) (a hi lo n : Nat) : (s.satAdd a hi lo n).col = s.col := rfl
@[simp] theorem State.satAdd_twn (s : State) (a hi lo n : Nat) : (s.satAdd a hi lo n).twn = s.twn := rfl
@[simp] theorem State.satAdd_way (s : State) (a hi lo n : Nat) : (s.satAdd a hi lo n).way = s.way := rfl
@[simp] theorem State.satAdd_mgt (s : State) (a hi lo n : Nat) : (s.satAdd a hi lo n).mgt = s.mgt := rfl
@[simp] theorem State.satAdd_cfg (s : State) (a hi lo n : Nat) : (s.satAdd a hi lo n).cfg = s.cfg := rfl
@[simp] theorem State.satAdd_stack (s : State) (a hi lo n : Nat) : (s.satAdd a hi lo n).stack = s.stack := rfl
@[simp] theorem State.satAdd_slices (s : State) (a hi lo n : Nat) : (s.satAdd a hi lo n).slices = s.slices := rfl
@[simp] theorem State.satAdd_tap (s : State) (a hi lo n : Nat) : (s.satAdd a hi lo n).tap = s.tap := rfl
@[simp] theorem State.satAdd_tbPend (s : State) (a hi lo n : Nat) : (s.satAdd a hi lo n).tbPend = s.tbPend := rfl
@[simp] theorem State.satAdd_slStat (s : State) (a hi lo n : Nat) : (s.satAdd a hi lo n).slStat = s.slStat := rfl
@[simp] theorem State.satAdd_i3cReply (s : State) (a hi lo n : Nat) : (s.satAdd a hi lo n).i3cReply = s.i3cReply := rfl
@[simp] theorem State.satAdd_i3cOut (s : State) (a hi lo n : Nat) : (s.satAdd a hi lo n).i3cOut = s.i3cOut := rfl

/-! ## setReply -/

@[simp] theorem State.setReply_pending (s : State) (w : Word) (o : Nat) : (s.setReply w o).pending = s.pending := by
  unfold State.setReply; split <;> rfl
@[simp] theorem State.setReply_regs (s : State) (w : Word) (o : Nat) : (s.setReply w o).regs = s.regs := by
  unfold State.setReply; split <;> rfl
@[simp] theorem State.setReply_hbm (s : State) (w : Word) (o : Nat) : (s.setReply w o).hbm = s.hbm := by
  unfold State.setReply; split <;> rfl
@[simp] theorem State.setReply_hbmPoison (s : State) (w : Word) (o : Nat) : (s.setReply w o).hbmPoison = s.hbmPoison := by
  unfold State.setReply; split <;> rfl
@[simp] theorem State.setReply_stk (s : State) (w : Word) (o : Nat) : (s.setReply w o).stk = s.stk := by
  unfold State.setReply; split <;> rfl
@[simp] theorem State.setReply_stkPoison (s : State) (w : Word) (o : Nat) : (s.setReply w o).stkPoison = s.stkPoison := by
  unfold State.setReply; split <;> rfl
@[simp] theorem State.setReply_flash (s : State) (w : Word) (o : Nat) : (s.setReply w o).flash = s.flash := by
  unfold State.setReply; split <;> rfl
@[simp] theorem State.setReply_tclk (s : State) (w : Word) (o : Nat) : (s.setReply w o).tclk = s.tclk := by
  unfold State.setReply; split <;> rfl
@[simp] theorem State.setReply_tb (s : State) (w : Word) (o : Nat) : (s.setReply w o).tb = s.tb := by
  unfold State.setReply; split <;> rfl
@[simp] theorem State.setReply_freeCtr (s : State) (w : Word) (o : Nat) : (s.setReply w o).freeCtr = s.freeCtr := by
  unfold State.setReply; split <;> rfl
@[simp] theorem State.setReply_atn (s : State) (w : Word) (o : Nat) : (s.setReply w o).atn = s.atn := by
  unfold State.setReply; split <;> rfl
@[simp] theorem State.setReply_rgm (s : State) (w : Word) (o : Nat) : (s.setReply w o).rgm = s.rgm := by
  unfold State.setReply; split <;> rfl
@[simp] theorem State.setReply_car (s : State) (w : Word) (o : Nat) : (s.setReply w o).car = s.car := by
  unfold State.setReply; split <;> rfl
@[simp] theorem State.setReply_lanes (s : State) (w : Word) (o : Nat) : (s.setReply w o).lanes = s.lanes := by
  unfold State.setReply; split <;> rfl
@[simp] theorem State.setReply_sca (s : State) (w : Word) (o : Nat) : (s.setReply w o).sca = s.sca := by
  unfold State.setReply; split <;> rfl
@[simp] theorem State.setReply_shd (s : State) (w : Word) (o : Nat) : (s.setReply w o).shd = s.shd := by
  unfold State.setReply; split <;> rfl
@[simp] theorem State.setReply_dlm (s : State) (w : Word) (o : Nat) : (s.setReply w o).dlm = s.dlm := by
  unfold State.setReply; split <;> rfl
@[simp] theorem State.setReply_pol (s : State) (w : Word) (o : Nat) : (s.setReply w o).pol = s.pol := by
  unfold State.setReply; split <;> rfl
@[simp] theorem State.setReply_pwr (s : State) (w : Word) (o : Nat) : (s.setReply w o).pwr = s.pwr := by
  unfold State.setReply; split <;> rfl
@[simp] theorem State.setReply_fab (s : State) (w : Word) (o : Nat) : (s.setReply w o).fab = s.fab := by
  unfold State.setReply; split <;> rfl
@[simp] theorem State.setReply_ring (s : State) (w : Word) (o : Nat) : (s.setReply w o).ring = s.ring := by
  unfold State.setReply; split <;> rfl
@[simp] theorem State.setReply_ctxs (s : State) (w : Word) (o : Nat) : (s.setReply w o).ctxs = s.ctxs := by
  unfold State.setReply; split <;> rfl
@[simp] theorem State.setReply_col (s : State) (w : Word) (o : Nat) : (s.setReply w o).col = s.col := by
  unfold State.setReply; split <;> rfl
@[simp] theorem State.setReply_twn (s : State) (w : Word) (o : Nat) : (s.setReply w o).twn = s.twn := by
  unfold State.setReply; split <;> rfl
@[simp] theorem State.setReply_way (s : State) (w : Word) (o : Nat) : (s.setReply w o).way = s.way := by
  unfold State.setReply; split <;> rfl
@[simp] theorem State.setReply_mgt (s : State) (w : Word) (o : Nat) : (s.setReply w o).mgt = s.mgt := by
  unfold State.setReply; split <;> rfl
@[simp] theorem State.setReply_cfg (s : State) (w : Word) (o : Nat) : (s.setReply w o).cfg = s.cfg := by
  unfold State.setReply; split <;> rfl
@[simp] theorem State.setReply_stack (s : State) (w : Word) (o : Nat) : (s.setReply w o).stack = s.stack := by
  unfold State.setReply; split <;> rfl
@[simp] theorem State.setReply_slices (s : State) (w : Word) (o : Nat) : (s.setReply w o).slices = s.slices := by
  unfold State.setReply; split <;> rfl
@[simp] theorem State.setReply_tap (s : State) (w : Word) (o : Nat) : (s.setReply w o).tap = s.tap := by
  unfold State.setReply; split <;> rfl
@[simp] theorem State.setReply_tbPend (s : State) (w : Word) (o : Nat) : (s.setReply w o).tbPend = s.tbPend := by
  unfold State.setReply; split <;> rfl
@[simp] theorem State.setReply_slStat (s : State) (w : Word) (o : Nat) : (s.setReply w o).slStat = s.slStat := by
  unfold State.setReply; split <;> rfl
@[simp] theorem State.setReply_i3cReply (s : State) (w : Word) (o : Nat) : (s.setReply w o).i3cReply = s.i3cReply := by
  unfold State.setReply; split <;> rfl
@[simp] theorem State.setReply_i3cOut (s : State) (w : Word) (o : Nat) : (s.setReply w o).i3cOut = s.i3cOut := by
  unfold State.setReply; split <;> rfl

/-! ## done -/

@[simp] theorem State.done_pending (s : State) : (s.done).pending = s.pending := State.setReply_pending s 0 0
@[simp] theorem State.done_regs (s : State) : (s.done).regs = s.regs := State.setReply_regs s 0 0
@[simp] theorem State.done_hbm (s : State) : (s.done).hbm = s.hbm := State.setReply_hbm s 0 0
@[simp] theorem State.done_hbmPoison (s : State) : (s.done).hbmPoison = s.hbmPoison := State.setReply_hbmPoison s 0 0
@[simp] theorem State.done_stk (s : State) : (s.done).stk = s.stk := State.setReply_stk s 0 0
@[simp] theorem State.done_stkPoison (s : State) : (s.done).stkPoison = s.stkPoison := State.setReply_stkPoison s 0 0
@[simp] theorem State.done_flash (s : State) : (s.done).flash = s.flash := State.setReply_flash s 0 0
@[simp] theorem State.done_tclk (s : State) : (s.done).tclk = s.tclk := State.setReply_tclk s 0 0
@[simp] theorem State.done_tb (s : State) : (s.done).tb = s.tb := State.setReply_tb s 0 0
@[simp] theorem State.done_freeCtr (s : State) : (s.done).freeCtr = s.freeCtr := State.setReply_freeCtr s 0 0
@[simp] theorem State.done_atn (s : State) : (s.done).atn = s.atn := State.setReply_atn s 0 0
@[simp] theorem State.done_rgm (s : State) : (s.done).rgm = s.rgm := State.setReply_rgm s 0 0
@[simp] theorem State.done_car (s : State) : (s.done).car = s.car := State.setReply_car s 0 0
@[simp] theorem State.done_lanes (s : State) : (s.done).lanes = s.lanes := State.setReply_lanes s 0 0
@[simp] theorem State.done_sca (s : State) : (s.done).sca = s.sca := State.setReply_sca s 0 0
@[simp] theorem State.done_shd (s : State) : (s.done).shd = s.shd := State.setReply_shd s 0 0
@[simp] theorem State.done_dlm (s : State) : (s.done).dlm = s.dlm := State.setReply_dlm s 0 0
@[simp] theorem State.done_pol (s : State) : (s.done).pol = s.pol := State.setReply_pol s 0 0
@[simp] theorem State.done_pwr (s : State) : (s.done).pwr = s.pwr := State.setReply_pwr s 0 0
@[simp] theorem State.done_fab (s : State) : (s.done).fab = s.fab := State.setReply_fab s 0 0
@[simp] theorem State.done_ring (s : State) : (s.done).ring = s.ring := State.setReply_ring s 0 0
@[simp] theorem State.done_ctxs (s : State) : (s.done).ctxs = s.ctxs := State.setReply_ctxs s 0 0
@[simp] theorem State.done_col (s : State) : (s.done).col = s.col := State.setReply_col s 0 0
@[simp] theorem State.done_twn (s : State) : (s.done).twn = s.twn := State.setReply_twn s 0 0
@[simp] theorem State.done_way (s : State) : (s.done).way = s.way := State.setReply_way s 0 0
@[simp] theorem State.done_mgt (s : State) : (s.done).mgt = s.mgt := State.setReply_mgt s 0 0
@[simp] theorem State.done_cfg (s : State) : (s.done).cfg = s.cfg := State.setReply_cfg s 0 0
@[simp] theorem State.done_stack (s : State) : (s.done).stack = s.stack := State.setReply_stack s 0 0
@[simp] theorem State.done_slices (s : State) : (s.done).slices = s.slices := State.setReply_slices s 0 0
@[simp] theorem State.done_tap (s : State) : (s.done).tap = s.tap := State.setReply_tap s 0 0
@[simp] theorem State.done_tbPend (s : State) : (s.done).tbPend = s.tbPend := State.setReply_tbPend s 0 0
@[simp] theorem State.done_slStat (s : State) : (s.done).slStat = s.slStat := State.setReply_slStat s 0 0
@[simp] theorem State.done_i3cReply (s : State) : (s.done).i3cReply = s.i3cReply := State.setReply_i3cReply s 0 0
@[simp] theorem State.done_i3cOut (s : State) : (s.done).i3cOut = s.i3cOut := State.setReply_i3cOut s 0 0

/-! ## refuse -/

@[simp] theorem State.refuse_pending (s : State) : (s.refuse).pending = s.pending := State.setReply_pending s 0 2
@[simp] theorem State.refuse_regs (s : State) : (s.refuse).regs = s.regs := State.setReply_regs s 0 2
@[simp] theorem State.refuse_hbm (s : State) : (s.refuse).hbm = s.hbm := State.setReply_hbm s 0 2
@[simp] theorem State.refuse_hbmPoison (s : State) : (s.refuse).hbmPoison = s.hbmPoison := State.setReply_hbmPoison s 0 2
@[simp] theorem State.refuse_stk (s : State) : (s.refuse).stk = s.stk := State.setReply_stk s 0 2
@[simp] theorem State.refuse_stkPoison (s : State) : (s.refuse).stkPoison = s.stkPoison := State.setReply_stkPoison s 0 2
@[simp] theorem State.refuse_flash (s : State) : (s.refuse).flash = s.flash := State.setReply_flash s 0 2
@[simp] theorem State.refuse_tclk (s : State) : (s.refuse).tclk = s.tclk := State.setReply_tclk s 0 2
@[simp] theorem State.refuse_tb (s : State) : (s.refuse).tb = s.tb := State.setReply_tb s 0 2
@[simp] theorem State.refuse_freeCtr (s : State) : (s.refuse).freeCtr = s.freeCtr := State.setReply_freeCtr s 0 2
@[simp] theorem State.refuse_atn (s : State) : (s.refuse).atn = s.atn := State.setReply_atn s 0 2
@[simp] theorem State.refuse_rgm (s : State) : (s.refuse).rgm = s.rgm := State.setReply_rgm s 0 2
@[simp] theorem State.refuse_car (s : State) : (s.refuse).car = s.car := State.setReply_car s 0 2
@[simp] theorem State.refuse_lanes (s : State) : (s.refuse).lanes = s.lanes := State.setReply_lanes s 0 2
@[simp] theorem State.refuse_sca (s : State) : (s.refuse).sca = s.sca := State.setReply_sca s 0 2
@[simp] theorem State.refuse_shd (s : State) : (s.refuse).shd = s.shd := State.setReply_shd s 0 2
@[simp] theorem State.refuse_dlm (s : State) : (s.refuse).dlm = s.dlm := State.setReply_dlm s 0 2
@[simp] theorem State.refuse_pol (s : State) : (s.refuse).pol = s.pol := State.setReply_pol s 0 2
@[simp] theorem State.refuse_pwr (s : State) : (s.refuse).pwr = s.pwr := State.setReply_pwr s 0 2
@[simp] theorem State.refuse_fab (s : State) : (s.refuse).fab = s.fab := State.setReply_fab s 0 2
@[simp] theorem State.refuse_ring (s : State) : (s.refuse).ring = s.ring := State.setReply_ring s 0 2
@[simp] theorem State.refuse_ctxs (s : State) : (s.refuse).ctxs = s.ctxs := State.setReply_ctxs s 0 2
@[simp] theorem State.refuse_col (s : State) : (s.refuse).col = s.col := State.setReply_col s 0 2
@[simp] theorem State.refuse_twn (s : State) : (s.refuse).twn = s.twn := State.setReply_twn s 0 2
@[simp] theorem State.refuse_way (s : State) : (s.refuse).way = s.way := State.setReply_way s 0 2
@[simp] theorem State.refuse_mgt (s : State) : (s.refuse).mgt = s.mgt := State.setReply_mgt s 0 2
@[simp] theorem State.refuse_cfg (s : State) : (s.refuse).cfg = s.cfg := State.setReply_cfg s 0 2
@[simp] theorem State.refuse_stack (s : State) : (s.refuse).stack = s.stack := State.setReply_stack s 0 2
@[simp] theorem State.refuse_slices (s : State) : (s.refuse).slices = s.slices := State.setReply_slices s 0 2
@[simp] theorem State.refuse_tap (s : State) : (s.refuse).tap = s.tap := State.setReply_tap s 0 2
@[simp] theorem State.refuse_tbPend (s : State) : (s.refuse).tbPend = s.tbPend := State.setReply_tbPend s 0 2
@[simp] theorem State.refuse_slStat (s : State) : (s.refuse).slStat = s.slStat := State.setReply_slStat s 0 2
@[simp] theorem State.refuse_i3cReply (s : State) : (s.refuse).i3cReply = s.i3cReply := State.setReply_i3cReply s 0 2
@[simp] theorem State.refuse_i3cOut (s : State) : (s.refuse).i3cOut = s.i3cOut := State.setReply_i3cOut s 0 2

/-! ## hbmWriteP -/

@[simp] theorem State.hbmWriteP_pending (s : State) (a : Nat) (bs : Bytes) (p : Bool) : (s.hbmWriteP a bs p).pending = s.pending := rfl
@[simp] theorem State.hbmWriteP_regs (s : State) (a : Nat) (bs : Bytes) (p : Bool) : (s.hbmWriteP a bs p).regs = s.regs := rfl
@[simp] theorem State.hbmWriteP_stk (s : State) (a : Nat) (bs : Bytes) (p : Bool) : (s.hbmWriteP a bs p).stk = s.stk := rfl
@[simp] theorem State.hbmWriteP_stkPoison (s : State) (a : Nat) (bs : Bytes) (p : Bool) : (s.hbmWriteP a bs p).stkPoison = s.stkPoison := rfl
@[simp] theorem State.hbmWriteP_flash (s : State) (a : Nat) (bs : Bytes) (p : Bool) : (s.hbmWriteP a bs p).flash = s.flash := rfl
@[simp] theorem State.hbmWriteP_tclk (s : State) (a : Nat) (bs : Bytes) (p : Bool) : (s.hbmWriteP a bs p).tclk = s.tclk := rfl
@[simp] theorem State.hbmWriteP_tb (s : State) (a : Nat) (bs : Bytes) (p : Bool) : (s.hbmWriteP a bs p).tb = s.tb := rfl
@[simp] theorem State.hbmWriteP_freeCtr (s : State) (a : Nat) (bs : Bytes) (p : Bool) : (s.hbmWriteP a bs p).freeCtr = s.freeCtr := rfl
@[simp] theorem State.hbmWriteP_reply (s : State) (a : Nat) (bs : Bytes) (p : Bool) : (s.hbmWriteP a bs p).reply = s.reply := rfl
@[simp] theorem State.hbmWriteP_atn (s : State) (a : Nat) (bs : Bytes) (p : Bool) : (s.hbmWriteP a bs p).atn = s.atn := rfl
@[simp] theorem State.hbmWriteP_rgm (s : State) (a : Nat) (bs : Bytes) (p : Bool) : (s.hbmWriteP a bs p).rgm = s.rgm := rfl
@[simp] theorem State.hbmWriteP_car (s : State) (a : Nat) (bs : Bytes) (p : Bool) : (s.hbmWriteP a bs p).car = s.car := rfl
@[simp] theorem State.hbmWriteP_lanes (s : State) (a : Nat) (bs : Bytes) (p : Bool) : (s.hbmWriteP a bs p).lanes = s.lanes := rfl
@[simp] theorem State.hbmWriteP_sca (s : State) (a : Nat) (bs : Bytes) (p : Bool) : (s.hbmWriteP a bs p).sca = s.sca := rfl
@[simp] theorem State.hbmWriteP_shd (s : State) (a : Nat) (bs : Bytes) (p : Bool) : (s.hbmWriteP a bs p).shd = s.shd := rfl
@[simp] theorem State.hbmWriteP_dlm (s : State) (a : Nat) (bs : Bytes) (p : Bool) : (s.hbmWriteP a bs p).dlm = s.dlm := rfl
@[simp] theorem State.hbmWriteP_pol (s : State) (a : Nat) (bs : Bytes) (p : Bool) : (s.hbmWriteP a bs p).pol = s.pol := rfl
@[simp] theorem State.hbmWriteP_pwr (s : State) (a : Nat) (bs : Bytes) (p : Bool) : (s.hbmWriteP a bs p).pwr = s.pwr := rfl
@[simp] theorem State.hbmWriteP_fab (s : State) (a : Nat) (bs : Bytes) (p : Bool) : (s.hbmWriteP a bs p).fab = s.fab := rfl
@[simp] theorem State.hbmWriteP_ring (s : State) (a : Nat) (bs : Bytes) (p : Bool) : (s.hbmWriteP a bs p).ring = s.ring := rfl
@[simp] theorem State.hbmWriteP_ctxs (s : State) (a : Nat) (bs : Bytes) (p : Bool) : (s.hbmWriteP a bs p).ctxs = s.ctxs := rfl
@[simp] theorem State.hbmWriteP_col (s : State) (a : Nat) (bs : Bytes) (p : Bool) : (s.hbmWriteP a bs p).col = s.col := rfl
@[simp] theorem State.hbmWriteP_twn (s : State) (a : Nat) (bs : Bytes) (p : Bool) : (s.hbmWriteP a bs p).twn = s.twn := rfl
@[simp] theorem State.hbmWriteP_way (s : State) (a : Nat) (bs : Bytes) (p : Bool) : (s.hbmWriteP a bs p).way = s.way := rfl
@[simp] theorem State.hbmWriteP_mgt (s : State) (a : Nat) (bs : Bytes) (p : Bool) : (s.hbmWriteP a bs p).mgt = s.mgt := rfl
@[simp] theorem State.hbmWriteP_cfg (s : State) (a : Nat) (bs : Bytes) (p : Bool) : (s.hbmWriteP a bs p).cfg = s.cfg := rfl
@[simp] theorem State.hbmWriteP_stack (s : State) (a : Nat) (bs : Bytes) (p : Bool) : (s.hbmWriteP a bs p).stack = s.stack := rfl
@[simp] theorem State.hbmWriteP_slices (s : State) (a : Nat) (bs : Bytes) (p : Bool) : (s.hbmWriteP a bs p).slices = s.slices := rfl
@[simp] theorem State.hbmWriteP_tap (s : State) (a : Nat) (bs : Bytes) (p : Bool) : (s.hbmWriteP a bs p).tap = s.tap := rfl
@[simp] theorem State.hbmWriteP_tbPend (s : State) (a : Nat) (bs : Bytes) (p : Bool) : (s.hbmWriteP a bs p).tbPend = s.tbPend := rfl
@[simp] theorem State.hbmWriteP_slStat (s : State) (a : Nat) (bs : Bytes) (p : Bool) : (s.hbmWriteP a bs p).slStat = s.slStat := rfl
@[simp] theorem State.hbmWriteP_i3cReply (s : State) (a : Nat) (bs : Bytes) (p : Bool) : (s.hbmWriteP a bs p).i3cReply = s.i3cReply := rfl
@[simp] theorem State.hbmWriteP_i3cOut (s : State) (a : Nat) (bs : Bytes) (p : Bool) : (s.hbmWriteP a bs p).i3cOut = s.i3cOut := rfl

/-! ## hbmWrite -/

@[simp] theorem State.hbmWrite_pending (s : State) (a : Nat) (bs : Bytes) : (s.hbmWrite a bs).pending = s.pending := rfl
@[simp] theorem State.hbmWrite_regs (s : State) (a : Nat) (bs : Bytes) : (s.hbmWrite a bs).regs = s.regs := rfl
@[simp] theorem State.hbmWrite_stk (s : State) (a : Nat) (bs : Bytes) : (s.hbmWrite a bs).stk = s.stk := rfl
@[simp] theorem State.hbmWrite_stkPoison (s : State) (a : Nat) (bs : Bytes) : (s.hbmWrite a bs).stkPoison = s.stkPoison := rfl
@[simp] theorem State.hbmWrite_flash (s : State) (a : Nat) (bs : Bytes) : (s.hbmWrite a bs).flash = s.flash := rfl
@[simp] theorem State.hbmWrite_tclk (s : State) (a : Nat) (bs : Bytes) : (s.hbmWrite a bs).tclk = s.tclk := rfl
@[simp] theorem State.hbmWrite_tb (s : State) (a : Nat) (bs : Bytes) : (s.hbmWrite a bs).tb = s.tb := rfl
@[simp] theorem State.hbmWrite_freeCtr (s : State) (a : Nat) (bs : Bytes) : (s.hbmWrite a bs).freeCtr = s.freeCtr := rfl
@[simp] theorem State.hbmWrite_reply (s : State) (a : Nat) (bs : Bytes) : (s.hbmWrite a bs).reply = s.reply := rfl
@[simp] theorem State.hbmWrite_atn (s : State) (a : Nat) (bs : Bytes) : (s.hbmWrite a bs).atn = s.atn := rfl
@[simp] theorem State.hbmWrite_rgm (s : State) (a : Nat) (bs : Bytes) : (s.hbmWrite a bs).rgm = s.rgm := rfl
@[simp] theorem State.hbmWrite_car (s : State) (a : Nat) (bs : Bytes) : (s.hbmWrite a bs).car = s.car := rfl
@[simp] theorem State.hbmWrite_lanes (s : State) (a : Nat) (bs : Bytes) : (s.hbmWrite a bs).lanes = s.lanes := rfl
@[simp] theorem State.hbmWrite_sca (s : State) (a : Nat) (bs : Bytes) : (s.hbmWrite a bs).sca = s.sca := rfl
@[simp] theorem State.hbmWrite_shd (s : State) (a : Nat) (bs : Bytes) : (s.hbmWrite a bs).shd = s.shd := rfl
@[simp] theorem State.hbmWrite_dlm (s : State) (a : Nat) (bs : Bytes) : (s.hbmWrite a bs).dlm = s.dlm := rfl
@[simp] theorem State.hbmWrite_pol (s : State) (a : Nat) (bs : Bytes) : (s.hbmWrite a bs).pol = s.pol := rfl
@[simp] theorem State.hbmWrite_pwr (s : State) (a : Nat) (bs : Bytes) : (s.hbmWrite a bs).pwr = s.pwr := rfl
@[simp] theorem State.hbmWrite_fab (s : State) (a : Nat) (bs : Bytes) : (s.hbmWrite a bs).fab = s.fab := rfl
@[simp] theorem State.hbmWrite_ring (s : State) (a : Nat) (bs : Bytes) : (s.hbmWrite a bs).ring = s.ring := rfl
@[simp] theorem State.hbmWrite_ctxs (s : State) (a : Nat) (bs : Bytes) : (s.hbmWrite a bs).ctxs = s.ctxs := rfl
@[simp] theorem State.hbmWrite_col (s : State) (a : Nat) (bs : Bytes) : (s.hbmWrite a bs).col = s.col := rfl
@[simp] theorem State.hbmWrite_twn (s : State) (a : Nat) (bs : Bytes) : (s.hbmWrite a bs).twn = s.twn := rfl
@[simp] theorem State.hbmWrite_way (s : State) (a : Nat) (bs : Bytes) : (s.hbmWrite a bs).way = s.way := rfl
@[simp] theorem State.hbmWrite_mgt (s : State) (a : Nat) (bs : Bytes) : (s.hbmWrite a bs).mgt = s.mgt := rfl
@[simp] theorem State.hbmWrite_cfg (s : State) (a : Nat) (bs : Bytes) : (s.hbmWrite a bs).cfg = s.cfg := rfl
@[simp] theorem State.hbmWrite_stack (s : State) (a : Nat) (bs : Bytes) : (s.hbmWrite a bs).stack = s.stack := rfl
@[simp] theorem State.hbmWrite_slices (s : State) (a : Nat) (bs : Bytes) : (s.hbmWrite a bs).slices = s.slices := rfl
@[simp] theorem State.hbmWrite_tap (s : State) (a : Nat) (bs : Bytes) : (s.hbmWrite a bs).tap = s.tap := rfl
@[simp] theorem State.hbmWrite_tbPend (s : State) (a : Nat) (bs : Bytes) : (s.hbmWrite a bs).tbPend = s.tbPend := rfl
@[simp] theorem State.hbmWrite_slStat (s : State) (a : Nat) (bs : Bytes) : (s.hbmWrite a bs).slStat = s.slStat := rfl
@[simp] theorem State.hbmWrite_i3cReply (s : State) (a : Nat) (bs : Bytes) : (s.hbmWrite a bs).i3cReply = s.i3cReply := rfl
@[simp] theorem State.hbmWrite_i3cOut (s : State) (a : Nat) (bs : Bytes) : (s.hbmWrite a bs).i3cOut = s.i3cOut := rfl

/-! ## stkWrite -/

@[simp] theorem State.stkWrite_pending (s : State) (a : Nat) (bs : Bytes) : (s.stkWrite a bs).pending = s.pending := rfl
@[simp] theorem State.stkWrite_regs (s : State) (a : Nat) (bs : Bytes) : (s.stkWrite a bs).regs = s.regs := rfl
@[simp] theorem State.stkWrite_hbm (s : State) (a : Nat) (bs : Bytes) : (s.stkWrite a bs).hbm = s.hbm := rfl
@[simp] theorem State.stkWrite_hbmPoison (s : State) (a : Nat) (bs : Bytes) : (s.stkWrite a bs).hbmPoison = s.hbmPoison := rfl
@[simp] theorem State.stkWrite_flash (s : State) (a : Nat) (bs : Bytes) : (s.stkWrite a bs).flash = s.flash := rfl
@[simp] theorem State.stkWrite_tclk (s : State) (a : Nat) (bs : Bytes) : (s.stkWrite a bs).tclk = s.tclk := rfl
@[simp] theorem State.stkWrite_tb (s : State) (a : Nat) (bs : Bytes) : (s.stkWrite a bs).tb = s.tb := rfl
@[simp] theorem State.stkWrite_freeCtr (s : State) (a : Nat) (bs : Bytes) : (s.stkWrite a bs).freeCtr = s.freeCtr := rfl
@[simp] theorem State.stkWrite_reply (s : State) (a : Nat) (bs : Bytes) : (s.stkWrite a bs).reply = s.reply := rfl
@[simp] theorem State.stkWrite_atn (s : State) (a : Nat) (bs : Bytes) : (s.stkWrite a bs).atn = s.atn := rfl
@[simp] theorem State.stkWrite_rgm (s : State) (a : Nat) (bs : Bytes) : (s.stkWrite a bs).rgm = s.rgm := rfl
@[simp] theorem State.stkWrite_car (s : State) (a : Nat) (bs : Bytes) : (s.stkWrite a bs).car = s.car := rfl
@[simp] theorem State.stkWrite_lanes (s : State) (a : Nat) (bs : Bytes) : (s.stkWrite a bs).lanes = s.lanes := rfl
@[simp] theorem State.stkWrite_sca (s : State) (a : Nat) (bs : Bytes) : (s.stkWrite a bs).sca = s.sca := rfl
@[simp] theorem State.stkWrite_shd (s : State) (a : Nat) (bs : Bytes) : (s.stkWrite a bs).shd = s.shd := rfl
@[simp] theorem State.stkWrite_dlm (s : State) (a : Nat) (bs : Bytes) : (s.stkWrite a bs).dlm = s.dlm := rfl
@[simp] theorem State.stkWrite_pol (s : State) (a : Nat) (bs : Bytes) : (s.stkWrite a bs).pol = s.pol := rfl
@[simp] theorem State.stkWrite_pwr (s : State) (a : Nat) (bs : Bytes) : (s.stkWrite a bs).pwr = s.pwr := rfl
@[simp] theorem State.stkWrite_fab (s : State) (a : Nat) (bs : Bytes) : (s.stkWrite a bs).fab = s.fab := rfl
@[simp] theorem State.stkWrite_ring (s : State) (a : Nat) (bs : Bytes) : (s.stkWrite a bs).ring = s.ring := rfl
@[simp] theorem State.stkWrite_ctxs (s : State) (a : Nat) (bs : Bytes) : (s.stkWrite a bs).ctxs = s.ctxs := rfl
@[simp] theorem State.stkWrite_col (s : State) (a : Nat) (bs : Bytes) : (s.stkWrite a bs).col = s.col := rfl
@[simp] theorem State.stkWrite_twn (s : State) (a : Nat) (bs : Bytes) : (s.stkWrite a bs).twn = s.twn := rfl
@[simp] theorem State.stkWrite_way (s : State) (a : Nat) (bs : Bytes) : (s.stkWrite a bs).way = s.way := rfl
@[simp] theorem State.stkWrite_mgt (s : State) (a : Nat) (bs : Bytes) : (s.stkWrite a bs).mgt = s.mgt := rfl
@[simp] theorem State.stkWrite_cfg (s : State) (a : Nat) (bs : Bytes) : (s.stkWrite a bs).cfg = s.cfg := rfl
@[simp] theorem State.stkWrite_stack (s : State) (a : Nat) (bs : Bytes) : (s.stkWrite a bs).stack = s.stack := rfl
@[simp] theorem State.stkWrite_slices (s : State) (a : Nat) (bs : Bytes) : (s.stkWrite a bs).slices = s.slices := rfl
@[simp] theorem State.stkWrite_tap (s : State) (a : Nat) (bs : Bytes) : (s.stkWrite a bs).tap = s.tap := rfl
@[simp] theorem State.stkWrite_tbPend (s : State) (a : Nat) (bs : Bytes) : (s.stkWrite a bs).tbPend = s.tbPend := rfl
@[simp] theorem State.stkWrite_slStat (s : State) (a : Nat) (bs : Bytes) : (s.stkWrite a bs).slStat = s.slStat := rfl
@[simp] theorem State.stkWrite_i3cReply (s : State) (a : Nat) (bs : Bytes) : (s.stkWrite a bs).i3cReply = s.i3cReply := rfl
@[simp] theorem State.stkWrite_i3cOut (s : State) (a : Nat) (bs : Bytes) : (s.stkWrite a bs).i3cOut = s.i3cOut := rfl

/-! ## flashWrite -/

@[simp] theorem State.flashWrite_pending (s : State) (a : Nat) (bs : Bytes) : (s.flashWrite a bs).pending = s.pending := rfl
@[simp] theorem State.flashWrite_regs (s : State) (a : Nat) (bs : Bytes) : (s.flashWrite a bs).regs = s.regs := rfl
@[simp] theorem State.flashWrite_hbm (s : State) (a : Nat) (bs : Bytes) : (s.flashWrite a bs).hbm = s.hbm := rfl
@[simp] theorem State.flashWrite_hbmPoison (s : State) (a : Nat) (bs : Bytes) : (s.flashWrite a bs).hbmPoison = s.hbmPoison := rfl
@[simp] theorem State.flashWrite_stk (s : State) (a : Nat) (bs : Bytes) : (s.flashWrite a bs).stk = s.stk := rfl
@[simp] theorem State.flashWrite_stkPoison (s : State) (a : Nat) (bs : Bytes) : (s.flashWrite a bs).stkPoison = s.stkPoison := rfl
@[simp] theorem State.flashWrite_tclk (s : State) (a : Nat) (bs : Bytes) : (s.flashWrite a bs).tclk = s.tclk := rfl
@[simp] theorem State.flashWrite_tb (s : State) (a : Nat) (bs : Bytes) : (s.flashWrite a bs).tb = s.tb := rfl
@[simp] theorem State.flashWrite_freeCtr (s : State) (a : Nat) (bs : Bytes) : (s.flashWrite a bs).freeCtr = s.freeCtr := rfl
@[simp] theorem State.flashWrite_reply (s : State) (a : Nat) (bs : Bytes) : (s.flashWrite a bs).reply = s.reply := rfl
@[simp] theorem State.flashWrite_atn (s : State) (a : Nat) (bs : Bytes) : (s.flashWrite a bs).atn = s.atn := rfl
@[simp] theorem State.flashWrite_rgm (s : State) (a : Nat) (bs : Bytes) : (s.flashWrite a bs).rgm = s.rgm := rfl
@[simp] theorem State.flashWrite_car (s : State) (a : Nat) (bs : Bytes) : (s.flashWrite a bs).car = s.car := rfl
@[simp] theorem State.flashWrite_lanes (s : State) (a : Nat) (bs : Bytes) : (s.flashWrite a bs).lanes = s.lanes := rfl
@[simp] theorem State.flashWrite_sca (s : State) (a : Nat) (bs : Bytes) : (s.flashWrite a bs).sca = s.sca := rfl
@[simp] theorem State.flashWrite_shd (s : State) (a : Nat) (bs : Bytes) : (s.flashWrite a bs).shd = s.shd := rfl
@[simp] theorem State.flashWrite_dlm (s : State) (a : Nat) (bs : Bytes) : (s.flashWrite a bs).dlm = s.dlm := rfl
@[simp] theorem State.flashWrite_pol (s : State) (a : Nat) (bs : Bytes) : (s.flashWrite a bs).pol = s.pol := rfl
@[simp] theorem State.flashWrite_pwr (s : State) (a : Nat) (bs : Bytes) : (s.flashWrite a bs).pwr = s.pwr := rfl
@[simp] theorem State.flashWrite_fab (s : State) (a : Nat) (bs : Bytes) : (s.flashWrite a bs).fab = s.fab := rfl
@[simp] theorem State.flashWrite_ring (s : State) (a : Nat) (bs : Bytes) : (s.flashWrite a bs).ring = s.ring := rfl
@[simp] theorem State.flashWrite_ctxs (s : State) (a : Nat) (bs : Bytes) : (s.flashWrite a bs).ctxs = s.ctxs := rfl
@[simp] theorem State.flashWrite_col (s : State) (a : Nat) (bs : Bytes) : (s.flashWrite a bs).col = s.col := rfl
@[simp] theorem State.flashWrite_twn (s : State) (a : Nat) (bs : Bytes) : (s.flashWrite a bs).twn = s.twn := rfl
@[simp] theorem State.flashWrite_way (s : State) (a : Nat) (bs : Bytes) : (s.flashWrite a bs).way = s.way := rfl
@[simp] theorem State.flashWrite_mgt (s : State) (a : Nat) (bs : Bytes) : (s.flashWrite a bs).mgt = s.mgt := rfl
@[simp] theorem State.flashWrite_cfg (s : State) (a : Nat) (bs : Bytes) : (s.flashWrite a bs).cfg = s.cfg := rfl
@[simp] theorem State.flashWrite_stack (s : State) (a : Nat) (bs : Bytes) : (s.flashWrite a bs).stack = s.stack := rfl
@[simp] theorem State.flashWrite_slices (s : State) (a : Nat) (bs : Bytes) : (s.flashWrite a bs).slices = s.slices := rfl
@[simp] theorem State.flashWrite_tap (s : State) (a : Nat) (bs : Bytes) : (s.flashWrite a bs).tap = s.tap := rfl
@[simp] theorem State.flashWrite_tbPend (s : State) (a : Nat) (bs : Bytes) : (s.flashWrite a bs).tbPend = s.tbPend := rfl
@[simp] theorem State.flashWrite_slStat (s : State) (a : Nat) (bs : Bytes) : (s.flashWrite a bs).slStat = s.slStat := rfl
@[simp] theorem State.flashWrite_i3cReply (s : State) (a : Nat) (bs : Bytes) : (s.flashWrite a bs).i3cReply = s.i3cReply := rfl
@[simp] theorem State.flashWrite_i3cOut (s : State) (a : Nat) (bs : Bytes) : (s.flashWrite a bs).i3cOut = s.i3cOut := rfl

/-! ## flashErase -/

@[simp] theorem State.flashErase_pending (s : State) (a n : Nat) : (s.flashErase a n).pending = s.pending := rfl
@[simp] theorem State.flashErase_regs (s : State) (a n : Nat) : (s.flashErase a n).regs = s.regs := rfl
@[simp] theorem State.flashErase_hbm (s : State) (a n : Nat) : (s.flashErase a n).hbm = s.hbm := rfl
@[simp] theorem State.flashErase_hbmPoison (s : State) (a n : Nat) : (s.flashErase a n).hbmPoison = s.hbmPoison := rfl
@[simp] theorem State.flashErase_stk (s : State) (a n : Nat) : (s.flashErase a n).stk = s.stk := rfl
@[simp] theorem State.flashErase_stkPoison (s : State) (a n : Nat) : (s.flashErase a n).stkPoison = s.stkPoison := rfl
@[simp] theorem State.flashErase_tclk (s : State) (a n : Nat) : (s.flashErase a n).tclk = s.tclk := rfl
@[simp] theorem State.flashErase_tb (s : State) (a n : Nat) : (s.flashErase a n).tb = s.tb := rfl
@[simp] theorem State.flashErase_freeCtr (s : State) (a n : Nat) : (s.flashErase a n).freeCtr = s.freeCtr := rfl
@[simp] theorem State.flashErase_reply (s : State) (a n : Nat) : (s.flashErase a n).reply = s.reply := rfl
@[simp] theorem State.flashErase_atn (s : State) (a n : Nat) : (s.flashErase a n).atn = s.atn := rfl
@[simp] theorem State.flashErase_rgm (s : State) (a n : Nat) : (s.flashErase a n).rgm = s.rgm := rfl
@[simp] theorem State.flashErase_car (s : State) (a n : Nat) : (s.flashErase a n).car = s.car := rfl
@[simp] theorem State.flashErase_lanes (s : State) (a n : Nat) : (s.flashErase a n).lanes = s.lanes := rfl
@[simp] theorem State.flashErase_sca (s : State) (a n : Nat) : (s.flashErase a n).sca = s.sca := rfl
@[simp] theorem State.flashErase_shd (s : State) (a n : Nat) : (s.flashErase a n).shd = s.shd := rfl
@[simp] theorem State.flashErase_dlm (s : State) (a n : Nat) : (s.flashErase a n).dlm = s.dlm := rfl
@[simp] theorem State.flashErase_pol (s : State) (a n : Nat) : (s.flashErase a n).pol = s.pol := rfl
@[simp] theorem State.flashErase_pwr (s : State) (a n : Nat) : (s.flashErase a n).pwr = s.pwr := rfl
@[simp] theorem State.flashErase_fab (s : State) (a n : Nat) : (s.flashErase a n).fab = s.fab := rfl
@[simp] theorem State.flashErase_ring (s : State) (a n : Nat) : (s.flashErase a n).ring = s.ring := rfl
@[simp] theorem State.flashErase_ctxs (s : State) (a n : Nat) : (s.flashErase a n).ctxs = s.ctxs := rfl
@[simp] theorem State.flashErase_col (s : State) (a n : Nat) : (s.flashErase a n).col = s.col := rfl
@[simp] theorem State.flashErase_twn (s : State) (a n : Nat) : (s.flashErase a n).twn = s.twn := rfl
@[simp] theorem State.flashErase_way (s : State) (a n : Nat) : (s.flashErase a n).way = s.way := rfl
@[simp] theorem State.flashErase_mgt (s : State) (a n : Nat) : (s.flashErase a n).mgt = s.mgt := rfl
@[simp] theorem State.flashErase_cfg (s : State) (a n : Nat) : (s.flashErase a n).cfg = s.cfg := rfl
@[simp] theorem State.flashErase_stack (s : State) (a n : Nat) : (s.flashErase a n).stack = s.stack := rfl
@[simp] theorem State.flashErase_slices (s : State) (a n : Nat) : (s.flashErase a n).slices = s.slices := rfl
@[simp] theorem State.flashErase_tap (s : State) (a n : Nat) : (s.flashErase a n).tap = s.tap := rfl
@[simp] theorem State.flashErase_tbPend (s : State) (a n : Nat) : (s.flashErase a n).tbPend = s.tbPend := rfl
@[simp] theorem State.flashErase_slStat (s : State) (a n : Nat) : (s.flashErase a n).slStat = s.slStat := rfl
@[simp] theorem State.flashErase_i3cReply (s : State) (a n : Nat) : (s.flashErase a n).i3cReply = s.i3cReply := rfl
@[simp] theorem State.flashErase_i3cOut (s : State) (a n : Nat) : (s.flashErase a n).i3cOut = s.i3cOut := rfl

/-! ## setCtx -/

@[simp] theorem State.setCtx_pending (s : State) (x : Nat) (c : Ctx) : (s.setCtx x c).pending = s.pending := rfl
@[simp] theorem State.setCtx_regs (s : State) (x : Nat) (c : Ctx) : (s.setCtx x c).regs = s.regs := rfl
@[simp] theorem State.setCtx_hbm (s : State) (x : Nat) (c : Ctx) : (s.setCtx x c).hbm = s.hbm := rfl
@[simp] theorem State.setCtx_hbmPoison (s : State) (x : Nat) (c : Ctx) : (s.setCtx x c).hbmPoison = s.hbmPoison := rfl
@[simp] theorem State.setCtx_stk (s : State) (x : Nat) (c : Ctx) : (s.setCtx x c).stk = s.stk := rfl
@[simp] theorem State.setCtx_stkPoison (s : State) (x : Nat) (c : Ctx) : (s.setCtx x c).stkPoison = s.stkPoison := rfl
@[simp] theorem State.setCtx_flash (s : State) (x : Nat) (c : Ctx) : (s.setCtx x c).flash = s.flash := rfl
@[simp] theorem State.setCtx_tclk (s : State) (x : Nat) (c : Ctx) : (s.setCtx x c).tclk = s.tclk := rfl
@[simp] theorem State.setCtx_tb (s : State) (x : Nat) (c : Ctx) : (s.setCtx x c).tb = s.tb := rfl
@[simp] theorem State.setCtx_freeCtr (s : State) (x : Nat) (c : Ctx) : (s.setCtx x c).freeCtr = s.freeCtr := rfl
@[simp] theorem State.setCtx_reply (s : State) (x : Nat) (c : Ctx) : (s.setCtx x c).reply = s.reply := rfl
@[simp] theorem State.setCtx_atn (s : State) (x : Nat) (c : Ctx) : (s.setCtx x c).atn = s.atn := rfl
@[simp] theorem State.setCtx_rgm (s : State) (x : Nat) (c : Ctx) : (s.setCtx x c).rgm = s.rgm := rfl
@[simp] theorem State.setCtx_car (s : State) (x : Nat) (c : Ctx) : (s.setCtx x c).car = s.car := rfl
@[simp] theorem State.setCtx_lanes (s : State) (x : Nat) (c : Ctx) : (s.setCtx x c).lanes = s.lanes := rfl
@[simp] theorem State.setCtx_sca (s : State) (x : Nat) (c : Ctx) : (s.setCtx x c).sca = s.sca := rfl
@[simp] theorem State.setCtx_shd (s : State) (x : Nat) (c : Ctx) : (s.setCtx x c).shd = s.shd := rfl
@[simp] theorem State.setCtx_dlm (s : State) (x : Nat) (c : Ctx) : (s.setCtx x c).dlm = s.dlm := rfl
@[simp] theorem State.setCtx_pol (s : State) (x : Nat) (c : Ctx) : (s.setCtx x c).pol = s.pol := rfl
@[simp] theorem State.setCtx_pwr (s : State) (x : Nat) (c : Ctx) : (s.setCtx x c).pwr = s.pwr := rfl
@[simp] theorem State.setCtx_fab (s : State) (x : Nat) (c : Ctx) : (s.setCtx x c).fab = s.fab := rfl
@[simp] theorem State.setCtx_ring (s : State) (x : Nat) (c : Ctx) : (s.setCtx x c).ring = s.ring := rfl
@[simp] theorem State.setCtx_col (s : State) (x : Nat) (c : Ctx) : (s.setCtx x c).col = s.col := rfl
@[simp] theorem State.setCtx_twn (s : State) (x : Nat) (c : Ctx) : (s.setCtx x c).twn = s.twn := rfl
@[simp] theorem State.setCtx_way (s : State) (x : Nat) (c : Ctx) : (s.setCtx x c).way = s.way := rfl
@[simp] theorem State.setCtx_mgt (s : State) (x : Nat) (c : Ctx) : (s.setCtx x c).mgt = s.mgt := rfl
@[simp] theorem State.setCtx_cfg (s : State) (x : Nat) (c : Ctx) : (s.setCtx x c).cfg = s.cfg := rfl
@[simp] theorem State.setCtx_stack (s : State) (x : Nat) (c : Ctx) : (s.setCtx x c).stack = s.stack := rfl
@[simp] theorem State.setCtx_slices (s : State) (x : Nat) (c : Ctx) : (s.setCtx x c).slices = s.slices := rfl
@[simp] theorem State.setCtx_tap (s : State) (x : Nat) (c : Ctx) : (s.setCtx x c).tap = s.tap := rfl
@[simp] theorem State.setCtx_tbPend (s : State) (x : Nat) (c : Ctx) : (s.setCtx x c).tbPend = s.tbPend := rfl
@[simp] theorem State.setCtx_slStat (s : State) (x : Nat) (c : Ctx) : (s.setCtx x c).slStat = s.slStat := rfl
@[simp] theorem State.setCtx_i3cReply (s : State) (x : Nat) (c : Ctx) : (s.setCtx x c).i3cReply = s.i3cReply := rfl
@[simp] theorem State.setCtx_i3cOut (s : State) (x : Nat) (c : Ctx) : (s.setCtx x c).i3cOut = s.i3cOut := rfl

/-! ## accAdd, chargeHbm, chargeStk: an ACC register, or nothing -/

/-- Whatever an added ACC register leaves alone is left alone. -/
theorem State.accAdd_frame {α : Type} (g : State → α) (h : ∀ (s : State) (a n : Nat), g (s.addCtr a n) = g s) (s : State)
    (a : Nat → Nat) (x n : Nat) : g (s.accAdd a x n) = g s := by
  unfold State.accAdd; split
  · rfl
  · exact h s (a x) n

@[simp] theorem State.accAdd_pending (s : State) (a : Nat → Nat) (x n : Nat) : (s.accAdd a x n).pending = s.pending :=
  State.accAdd_frame State.pending (fun _ _ _ => rfl) s a x n
@[simp] theorem State.accAdd_hbm (s : State) (a : Nat → Nat) (x n : Nat) : (s.accAdd a x n).hbm = s.hbm :=
  State.accAdd_frame State.hbm (fun _ _ _ => rfl) s a x n
@[simp] theorem State.accAdd_hbmPoison (s : State) (a : Nat → Nat) (x n : Nat) : (s.accAdd a x n).hbmPoison = s.hbmPoison :=
  State.accAdd_frame State.hbmPoison (fun _ _ _ => rfl) s a x n
@[simp] theorem State.accAdd_stk (s : State) (a : Nat → Nat) (x n : Nat) : (s.accAdd a x n).stk = s.stk :=
  State.accAdd_frame State.stk (fun _ _ _ => rfl) s a x n
@[simp] theorem State.accAdd_stkPoison (s : State) (a : Nat → Nat) (x n : Nat) : (s.accAdd a x n).stkPoison = s.stkPoison :=
  State.accAdd_frame State.stkPoison (fun _ _ _ => rfl) s a x n
@[simp] theorem State.accAdd_flash (s : State) (a : Nat → Nat) (x n : Nat) : (s.accAdd a x n).flash = s.flash :=
  State.accAdd_frame State.flash (fun _ _ _ => rfl) s a x n
@[simp] theorem State.accAdd_tclk (s : State) (a : Nat → Nat) (x n : Nat) : (s.accAdd a x n).tclk = s.tclk :=
  State.accAdd_frame State.tclk (fun _ _ _ => rfl) s a x n
@[simp] theorem State.accAdd_tb (s : State) (a : Nat → Nat) (x n : Nat) : (s.accAdd a x n).tb = s.tb :=
  State.accAdd_frame State.tb (fun _ _ _ => rfl) s a x n
@[simp] theorem State.accAdd_freeCtr (s : State) (a : Nat → Nat) (x n : Nat) : (s.accAdd a x n).freeCtr = s.freeCtr :=
  State.accAdd_frame State.freeCtr (fun _ _ _ => rfl) s a x n
@[simp] theorem State.accAdd_reply (s : State) (a : Nat → Nat) (x n : Nat) : (s.accAdd a x n).reply = s.reply :=
  State.accAdd_frame State.reply (fun _ _ _ => rfl) s a x n
@[simp] theorem State.accAdd_atn (s : State) (a : Nat → Nat) (x n : Nat) : (s.accAdd a x n).atn = s.atn :=
  State.accAdd_frame State.atn (fun _ _ _ => rfl) s a x n
@[simp] theorem State.accAdd_rgm (s : State) (a : Nat → Nat) (x n : Nat) : (s.accAdd a x n).rgm = s.rgm :=
  State.accAdd_frame State.rgm (fun _ _ _ => rfl) s a x n
@[simp] theorem State.accAdd_car (s : State) (a : Nat → Nat) (x n : Nat) : (s.accAdd a x n).car = s.car :=
  State.accAdd_frame State.car (fun _ _ _ => rfl) s a x n
@[simp] theorem State.accAdd_lanes (s : State) (a : Nat → Nat) (x n : Nat) : (s.accAdd a x n).lanes = s.lanes :=
  State.accAdd_frame State.lanes (fun _ _ _ => rfl) s a x n
@[simp] theorem State.accAdd_sca (s : State) (a : Nat → Nat) (x n : Nat) : (s.accAdd a x n).sca = s.sca :=
  State.accAdd_frame State.sca (fun _ _ _ => rfl) s a x n
@[simp] theorem State.accAdd_shd (s : State) (a : Nat → Nat) (x n : Nat) : (s.accAdd a x n).shd = s.shd :=
  State.accAdd_frame State.shd (fun _ _ _ => rfl) s a x n
@[simp] theorem State.accAdd_dlm (s : State) (a : Nat → Nat) (x n : Nat) : (s.accAdd a x n).dlm = s.dlm :=
  State.accAdd_frame State.dlm (fun _ _ _ => rfl) s a x n
@[simp] theorem State.accAdd_pol (s : State) (a : Nat → Nat) (x n : Nat) : (s.accAdd a x n).pol = s.pol :=
  State.accAdd_frame State.pol (fun _ _ _ => rfl) s a x n
@[simp] theorem State.accAdd_pwr (s : State) (a : Nat → Nat) (x n : Nat) : (s.accAdd a x n).pwr = s.pwr :=
  State.accAdd_frame State.pwr (fun _ _ _ => rfl) s a x n
@[simp] theorem State.accAdd_fab (s : State) (a : Nat → Nat) (x n : Nat) : (s.accAdd a x n).fab = s.fab :=
  State.accAdd_frame State.fab (fun _ _ _ => rfl) s a x n
@[simp] theorem State.accAdd_ring (s : State) (a : Nat → Nat) (x n : Nat) : (s.accAdd a x n).ring = s.ring :=
  State.accAdd_frame State.ring (fun _ _ _ => rfl) s a x n
@[simp] theorem State.accAdd_ctxs (s : State) (a : Nat → Nat) (x n : Nat) : (s.accAdd a x n).ctxs = s.ctxs :=
  State.accAdd_frame State.ctxs (fun _ _ _ => rfl) s a x n
@[simp] theorem State.accAdd_col (s : State) (a : Nat → Nat) (x n : Nat) : (s.accAdd a x n).col = s.col :=
  State.accAdd_frame State.col (fun _ _ _ => rfl) s a x n
@[simp] theorem State.accAdd_twn (s : State) (a : Nat → Nat) (x n : Nat) : (s.accAdd a x n).twn = s.twn :=
  State.accAdd_frame State.twn (fun _ _ _ => rfl) s a x n
@[simp] theorem State.accAdd_way (s : State) (a : Nat → Nat) (x n : Nat) : (s.accAdd a x n).way = s.way :=
  State.accAdd_frame State.way (fun _ _ _ => rfl) s a x n
@[simp] theorem State.accAdd_mgt (s : State) (a : Nat → Nat) (x n : Nat) : (s.accAdd a x n).mgt = s.mgt :=
  State.accAdd_frame State.mgt (fun _ _ _ => rfl) s a x n
@[simp] theorem State.accAdd_cfg (s : State) (a : Nat → Nat) (x n : Nat) : (s.accAdd a x n).cfg = s.cfg :=
  State.accAdd_frame State.cfg (fun _ _ _ => rfl) s a x n
@[simp] theorem State.accAdd_stack (s : State) (a : Nat → Nat) (x n : Nat) : (s.accAdd a x n).stack = s.stack :=
  State.accAdd_frame State.stack (fun _ _ _ => rfl) s a x n
@[simp] theorem State.accAdd_slices (s : State) (a : Nat → Nat) (x n : Nat) : (s.accAdd a x n).slices = s.slices :=
  State.accAdd_frame State.slices (fun _ _ _ => rfl) s a x n
@[simp] theorem State.accAdd_tap (s : State) (a : Nat → Nat) (x n : Nat) : (s.accAdd a x n).tap = s.tap :=
  State.accAdd_frame State.tap (fun _ _ _ => rfl) s a x n
@[simp] theorem State.accAdd_tbPend (s : State) (a : Nat → Nat) (x n : Nat) : (s.accAdd a x n).tbPend = s.tbPend :=
  State.accAdd_frame State.tbPend (fun _ _ _ => rfl) s a x n
@[simp] theorem State.accAdd_slStat (s : State) (a : Nat → Nat) (x n : Nat) : (s.accAdd a x n).slStat = s.slStat :=
  State.accAdd_frame State.slStat (fun _ _ _ => rfl) s a x n
@[simp] theorem State.accAdd_i3cReply (s : State) (a : Nat → Nat) (x n : Nat) : (s.accAdd a x n).i3cReply = s.i3cReply :=
  State.accAdd_frame State.i3cReply (fun _ _ _ => rfl) s a x n
@[simp] theorem State.accAdd_i3cOut (s : State) (a : Nat → Nat) (x n : Nat) : (s.accAdd a x n).i3cOut = s.i3cOut :=
  State.accAdd_frame State.i3cOut (fun _ _ _ => rfl) s a x n

/-! ## chargeHbm -/

@[simp] theorem State.chargeHbm_pending (s : State) (x n : Nat) : (s.chargeHbm x n).pending = s.pending :=
  s.accAdd_pending _ _ _
@[simp] theorem State.chargeHbm_hbm (s : State) (x n : Nat) : (s.chargeHbm x n).hbm = s.hbm :=
  s.accAdd_hbm _ _ _
@[simp] theorem State.chargeHbm_hbmPoison (s : State) (x n : Nat) : (s.chargeHbm x n).hbmPoison = s.hbmPoison :=
  s.accAdd_hbmPoison _ _ _
@[simp] theorem State.chargeHbm_stk (s : State) (x n : Nat) : (s.chargeHbm x n).stk = s.stk :=
  s.accAdd_stk _ _ _
@[simp] theorem State.chargeHbm_stkPoison (s : State) (x n : Nat) : (s.chargeHbm x n).stkPoison = s.stkPoison :=
  s.accAdd_stkPoison _ _ _
@[simp] theorem State.chargeHbm_flash (s : State) (x n : Nat) : (s.chargeHbm x n).flash = s.flash :=
  s.accAdd_flash _ _ _
@[simp] theorem State.chargeHbm_tclk (s : State) (x n : Nat) : (s.chargeHbm x n).tclk = s.tclk :=
  s.accAdd_tclk _ _ _
@[simp] theorem State.chargeHbm_tb (s : State) (x n : Nat) : (s.chargeHbm x n).tb = s.tb :=
  s.accAdd_tb _ _ _
@[simp] theorem State.chargeHbm_freeCtr (s : State) (x n : Nat) : (s.chargeHbm x n).freeCtr = s.freeCtr :=
  s.accAdd_freeCtr _ _ _
@[simp] theorem State.chargeHbm_reply (s : State) (x n : Nat) : (s.chargeHbm x n).reply = s.reply :=
  s.accAdd_reply _ _ _
@[simp] theorem State.chargeHbm_atn (s : State) (x n : Nat) : (s.chargeHbm x n).atn = s.atn :=
  s.accAdd_atn _ _ _
@[simp] theorem State.chargeHbm_rgm (s : State) (x n : Nat) : (s.chargeHbm x n).rgm = s.rgm :=
  s.accAdd_rgm _ _ _
@[simp] theorem State.chargeHbm_car (s : State) (x n : Nat) : (s.chargeHbm x n).car = s.car :=
  s.accAdd_car _ _ _
@[simp] theorem State.chargeHbm_lanes (s : State) (x n : Nat) : (s.chargeHbm x n).lanes = s.lanes :=
  s.accAdd_lanes _ _ _
@[simp] theorem State.chargeHbm_sca (s : State) (x n : Nat) : (s.chargeHbm x n).sca = s.sca :=
  s.accAdd_sca _ _ _
@[simp] theorem State.chargeHbm_shd (s : State) (x n : Nat) : (s.chargeHbm x n).shd = s.shd :=
  s.accAdd_shd _ _ _
@[simp] theorem State.chargeHbm_dlm (s : State) (x n : Nat) : (s.chargeHbm x n).dlm = s.dlm :=
  s.accAdd_dlm _ _ _
@[simp] theorem State.chargeHbm_pol (s : State) (x n : Nat) : (s.chargeHbm x n).pol = s.pol :=
  s.accAdd_pol _ _ _
@[simp] theorem State.chargeHbm_pwr (s : State) (x n : Nat) : (s.chargeHbm x n).pwr = s.pwr :=
  s.accAdd_pwr _ _ _
@[simp] theorem State.chargeHbm_fab (s : State) (x n : Nat) : (s.chargeHbm x n).fab = s.fab :=
  s.accAdd_fab _ _ _
@[simp] theorem State.chargeHbm_ring (s : State) (x n : Nat) : (s.chargeHbm x n).ring = s.ring :=
  s.accAdd_ring _ _ _
@[simp] theorem State.chargeHbm_ctxs (s : State) (x n : Nat) : (s.chargeHbm x n).ctxs = s.ctxs :=
  s.accAdd_ctxs _ _ _
@[simp] theorem State.chargeHbm_col (s : State) (x n : Nat) : (s.chargeHbm x n).col = s.col :=
  s.accAdd_col _ _ _
@[simp] theorem State.chargeHbm_twn (s : State) (x n : Nat) : (s.chargeHbm x n).twn = s.twn :=
  s.accAdd_twn _ _ _
@[simp] theorem State.chargeHbm_way (s : State) (x n : Nat) : (s.chargeHbm x n).way = s.way :=
  s.accAdd_way _ _ _
@[simp] theorem State.chargeHbm_mgt (s : State) (x n : Nat) : (s.chargeHbm x n).mgt = s.mgt :=
  s.accAdd_mgt _ _ _
@[simp] theorem State.chargeHbm_cfg (s : State) (x n : Nat) : (s.chargeHbm x n).cfg = s.cfg :=
  s.accAdd_cfg _ _ _
@[simp] theorem State.chargeHbm_stack (s : State) (x n : Nat) : (s.chargeHbm x n).stack = s.stack :=
  s.accAdd_stack _ _ _
@[simp] theorem State.chargeHbm_slices (s : State) (x n : Nat) : (s.chargeHbm x n).slices = s.slices :=
  s.accAdd_slices _ _ _
@[simp] theorem State.chargeHbm_tap (s : State) (x n : Nat) : (s.chargeHbm x n).tap = s.tap :=
  s.accAdd_tap _ _ _
@[simp] theorem State.chargeHbm_tbPend (s : State) (x n : Nat) : (s.chargeHbm x n).tbPend = s.tbPend :=
  s.accAdd_tbPend _ _ _
@[simp] theorem State.chargeHbm_slStat (s : State) (x n : Nat) : (s.chargeHbm x n).slStat = s.slStat :=
  s.accAdd_slStat _ _ _
@[simp] theorem State.chargeHbm_i3cReply (s : State) (x n : Nat) : (s.chargeHbm x n).i3cReply = s.i3cReply :=
  s.accAdd_i3cReply _ _ _
@[simp] theorem State.chargeHbm_i3cOut (s : State) (x n : Nat) : (s.chargeHbm x n).i3cOut = s.i3cOut :=
  s.accAdd_i3cOut _ _ _

/-! ## chargeStk -/

@[simp] theorem State.chargeStk_pending (s : State) (x n : Nat) : (s.chargeStk x n).pending = s.pending :=
  s.accAdd_pending _ _ _
@[simp] theorem State.chargeStk_hbm (s : State) (x n : Nat) : (s.chargeStk x n).hbm = s.hbm :=
  s.accAdd_hbm _ _ _
@[simp] theorem State.chargeStk_hbmPoison (s : State) (x n : Nat) : (s.chargeStk x n).hbmPoison = s.hbmPoison :=
  s.accAdd_hbmPoison _ _ _
@[simp] theorem State.chargeStk_stk (s : State) (x n : Nat) : (s.chargeStk x n).stk = s.stk :=
  s.accAdd_stk _ _ _
@[simp] theorem State.chargeStk_stkPoison (s : State) (x n : Nat) : (s.chargeStk x n).stkPoison = s.stkPoison :=
  s.accAdd_stkPoison _ _ _
@[simp] theorem State.chargeStk_flash (s : State) (x n : Nat) : (s.chargeStk x n).flash = s.flash :=
  s.accAdd_flash _ _ _
@[simp] theorem State.chargeStk_tclk (s : State) (x n : Nat) : (s.chargeStk x n).tclk = s.tclk :=
  s.accAdd_tclk _ _ _
@[simp] theorem State.chargeStk_tb (s : State) (x n : Nat) : (s.chargeStk x n).tb = s.tb :=
  s.accAdd_tb _ _ _
@[simp] theorem State.chargeStk_freeCtr (s : State) (x n : Nat) : (s.chargeStk x n).freeCtr = s.freeCtr :=
  s.accAdd_freeCtr _ _ _
@[simp] theorem State.chargeStk_reply (s : State) (x n : Nat) : (s.chargeStk x n).reply = s.reply :=
  s.accAdd_reply _ _ _
@[simp] theorem State.chargeStk_atn (s : State) (x n : Nat) : (s.chargeStk x n).atn = s.atn :=
  s.accAdd_atn _ _ _
@[simp] theorem State.chargeStk_rgm (s : State) (x n : Nat) : (s.chargeStk x n).rgm = s.rgm :=
  s.accAdd_rgm _ _ _
@[simp] theorem State.chargeStk_car (s : State) (x n : Nat) : (s.chargeStk x n).car = s.car :=
  s.accAdd_car _ _ _
@[simp] theorem State.chargeStk_lanes (s : State) (x n : Nat) : (s.chargeStk x n).lanes = s.lanes :=
  s.accAdd_lanes _ _ _
@[simp] theorem State.chargeStk_sca (s : State) (x n : Nat) : (s.chargeStk x n).sca = s.sca :=
  s.accAdd_sca _ _ _
@[simp] theorem State.chargeStk_shd (s : State) (x n : Nat) : (s.chargeStk x n).shd = s.shd :=
  s.accAdd_shd _ _ _
@[simp] theorem State.chargeStk_dlm (s : State) (x n : Nat) : (s.chargeStk x n).dlm = s.dlm :=
  s.accAdd_dlm _ _ _
@[simp] theorem State.chargeStk_pol (s : State) (x n : Nat) : (s.chargeStk x n).pol = s.pol :=
  s.accAdd_pol _ _ _
@[simp] theorem State.chargeStk_pwr (s : State) (x n : Nat) : (s.chargeStk x n).pwr = s.pwr :=
  s.accAdd_pwr _ _ _
@[simp] theorem State.chargeStk_fab (s : State) (x n : Nat) : (s.chargeStk x n).fab = s.fab :=
  s.accAdd_fab _ _ _
@[simp] theorem State.chargeStk_ring (s : State) (x n : Nat) : (s.chargeStk x n).ring = s.ring :=
  s.accAdd_ring _ _ _
@[simp] theorem State.chargeStk_ctxs (s : State) (x n : Nat) : (s.chargeStk x n).ctxs = s.ctxs :=
  s.accAdd_ctxs _ _ _
@[simp] theorem State.chargeStk_col (s : State) (x n : Nat) : (s.chargeStk x n).col = s.col :=
  s.accAdd_col _ _ _
@[simp] theorem State.chargeStk_twn (s : State) (x n : Nat) : (s.chargeStk x n).twn = s.twn :=
  s.accAdd_twn _ _ _
@[simp] theorem State.chargeStk_way (s : State) (x n : Nat) : (s.chargeStk x n).way = s.way :=
  s.accAdd_way _ _ _
@[simp] theorem State.chargeStk_mgt (s : State) (x n : Nat) : (s.chargeStk x n).mgt = s.mgt :=
  s.accAdd_mgt _ _ _
@[simp] theorem State.chargeStk_cfg (s : State) (x n : Nat) : (s.chargeStk x n).cfg = s.cfg :=
  s.accAdd_cfg _ _ _
@[simp] theorem State.chargeStk_stack (s : State) (x n : Nat) : (s.chargeStk x n).stack = s.stack :=
  s.accAdd_stack _ _ _
@[simp] theorem State.chargeStk_slices (s : State) (x n : Nat) : (s.chargeStk x n).slices = s.slices :=
  s.accAdd_slices _ _ _
@[simp] theorem State.chargeStk_tap (s : State) (x n : Nat) : (s.chargeStk x n).tap = s.tap :=
  s.accAdd_tap _ _ _
@[simp] theorem State.chargeStk_tbPend (s : State) (x n : Nat) : (s.chargeStk x n).tbPend = s.tbPend :=
  s.accAdd_tbPend _ _ _
@[simp] theorem State.chargeStk_slStat (s : State) (x n : Nat) : (s.chargeStk x n).slStat = s.slStat :=
  s.accAdd_slStat _ _ _
@[simp] theorem State.chargeStk_i3cReply (s : State) (x n : Nat) : (s.chargeStk x n).i3cReply = s.i3cReply :=
  s.accAdd_i3cReply _ _ _
@[simp] theorem State.chargeStk_i3cOut (s : State) (x n : Nat) : (s.chargeStk x n).i3cOut = s.i3cOut :=
  s.accAdd_i3cOut _ _ _
/-! ## Registers -/

@[simp] theorem State.reg_setReg_same (s : State) (a : Nat) (v : Word) : (s.setReg a v).reg a = v :=
  tabGet_tabSet_same _ _ _ _

theorem State.reg_setReg_other (s : State) {a b : Nat} (v : Word) (h : b ≠ a) : (s.setReg a v).reg b = s.reg b := by
  unfold State.reg State.setReg tabSet
  split
  · exact tabGet_tabErase_other _ _ h
  · exact tabGet_tabPut_other _ _ _ h

theorem State.reg_setF_other (s : State) {a b : Nat} (hi lo v : Nat) (h : b ≠ a) : (s.setF a hi lo v).reg b = s.reg b :=
  s.reg_setReg_other _ h

theorem State.reg_addCtr_other (s : State) {a b : Nat} (n : Nat) (h : b ≠ a) : (s.addCtr a n).reg b = s.reg b :=
  s.reg_setReg_other _ h

@[simp] theorem State.reg_addCtr_same (s : State) (a n : Nat) : (s.addCtr a n).reg a = s.reg a + BitVec.ofNat 64 n :=
  s.reg_setReg_same a _

@[simp] theorem State.reg_bump_same (s : State) (a : Nat) : (s.bump a).reg a = s.reg a + 1 := s.reg_addCtr_same a 1

theorem State.reg_bump_other (s : State) {a b : Nat} (h : b ≠ a) : (s.bump a).reg b = s.reg b :=
  s.reg_addCtr_other 1 h

/-- Two states with the same registers read alike. -/
theorem State.reg_congr {s t : State} (h : t.regs = s.regs) (a : Nat) : t.reg a = s.reg a := by
  unfold State.reg; rw [h]

@[simp] theorem State.reg_setReply (s : State) (w : Word) (o a : Nat) : (s.setReply w o).reg a = s.reg a :=
  State.reg_congr (by simp) a

@[simp] theorem State.reg_done (s : State) (a : Nat) : s.done.reg a = s.reg a := s.reg_setReply 0 0 a

@[simp] theorem State.reg_refuse (s : State) (a : Nat) : s.refuse.reg a = s.reg a := s.reg_setReply 0 2 a

@[simp] theorem State.f_setReply (s : State) (w : Word) (o a hi lo : Nat) : (s.setReply w o).f a hi lo = s.f a hi lo := by
  simp [State.f, State.regN]

@[simp] theorem State.f_done (s : State) (a hi lo : Nat) : s.done.f a hi lo = s.f a hi lo := s.f_setReply 0 0 a hi lo

@[simp] theorem State.f_refuse (s : State) (a hi lo : Nat) : s.refuse.f a hi lo = s.f a hi lo := s.f_setReply 0 2 a hi lo

/-- A field read back from a number it was put into. -/
theorem fld_withFld_same (w hi lo v : Nat) (h : lo ≤ hi) : fld (withFld w hi lo v) hi lo = v % 2 ^ (hi - lo + 1) := by
  unfold fld withFld
  have hl : w % 2 ^ lo < 2 ^ lo := Nat.mod_lt _ (by positivity)
  rw [Nat.shiftLeft_eq, Nat.shiftLeft_eq, Nat.shiftRight_eq_div_pow]
  have e : 2 ^ (hi + 1) = 2 ^ (hi - lo + 1) * 2 ^ lo := by
    rw [← pow_add]; congr 1; omega
  rw [e, ← mul_assoc, ← add_mul, Nat.add_comm, Nat.add_mul_div_right _ _ (by positivity), Nat.div_eq_of_lt hl, zero_add,
    Nat.add_mod, Nat.mul_mod_left, zero_add, Nat.mod_mod, Nat.mod_mod]

/-- A 64-bit register's field reads what was stored into it. -/
theorem State.f_setF_same (s : State) (a hi lo v : Nat) (h : lo ≤ hi) (h64 : hi < 64) :
    (s.setF a hi lo v).f a hi lo = v % 2 ^ (hi - lo + 1) := by
  have hw : withFld (s.regN a) hi lo v < 2 ^ 64 := by
    unfold withFld
    have h0 : s.regN a < 2 ^ 64 := (s.reg a).isLt
    have hl : s.regN a % 2 ^ lo < 2 ^ lo := Nat.mod_lt _ (by positivity)
    have hv : v % 2 ^ (hi - lo + 1) < 2 ^ (hi - lo + 1) := Nat.mod_lt _ (by positivity)
    have e : 2 ^ (hi + 1) = 2 ^ (hi - lo + 1) * 2 ^ lo := by rw [← pow_add]; congr 1; omega
    have e6 : (2 : Nat) ^ 64 = 2 ^ (63 - hi) * 2 ^ (hi + 1) := by rw [← pow_add]; congr 1; omega
    rw [Nat.shiftLeft_eq, Nat.shiftLeft_eq, Nat.shiftRight_eq_div_pow]
    have hq : s.regN a / 2 ^ (hi + 1) + 1 ≤ 2 ^ (63 - hi) :=
      Nat.div_lt_of_lt_mul (by rw [e6] at h0; rwa [Nat.mul_comm] at h0)
    calc s.regN a / 2 ^ (hi + 1) * 2 ^ (hi + 1) + v % 2 ^ (hi - lo + 1) * 2 ^ lo + s.regN a % 2 ^ lo
        < s.regN a / 2 ^ (hi + 1) * 2 ^ (hi + 1) + (v % 2 ^ (hi - lo + 1) + 1) * 2 ^ lo := by
          rw [Nat.add_mul]; omega
      _ ≤ s.regN a / 2 ^ (hi + 1) * 2 ^ (hi + 1) + 2 ^ (hi - lo + 1) * 2 ^ lo :=
          Nat.add_le_add_left (Nat.mul_le_mul_right _ hv) _
      _ = (s.regN a / 2 ^ (hi + 1) + 1) * 2 ^ (hi + 1) := by rw [Nat.add_mul, e]; simp
      _ ≤ 2 ^ (63 - hi) * 2 ^ (hi + 1) := Nat.mul_le_mul_right _ hq
      _ = 2 ^ 64 := e6.symm
  have : (s.setF a hi lo v).regN a = withFld (s.regN a) hi lo v := by
    unfold State.regN State.setF
    rw [State.reg_setReg_same, BitVec.toNat_ofNat]
    exact Nat.mod_eq_of_lt hw
  unfold State.f
  rw [this, fld_withFld_same _ _ _ _ h]

theorem State.f_setF_other (s : State) {a b : Nat} (hi lo v hi' lo' : Nat) (h : b ≠ a) :
    (s.setF a hi lo v).f b hi' lo' = s.f b hi' lo' := by
  unfold State.f State.regN; rw [s.reg_setF_other hi lo v h]

/-- A reply is seen unless nothing answers. -/
theorem State.setReply_reply (s : State) (w : Word) (o : Nat) (h : s.dark = false) :
    (s.setReply w o).reply = (w, BitVec.ofNat 4 (o + 4 * s.f aAtnCause 35 34)) := by
  simp [State.setReply, h]

/-! ## Memories -/

/-- Bytes of host HBM outside a write are unchanged. -/
theorem State.hbmWriteP_outside (s : State) (a : Nat) (bs : Bytes) (p : Bool) (b : Nat)
    (h : b < a ∨ a + bs.length ≤ b) : cellGet 0 (s.hbmWriteP a bs p).hbm b = cellGet 0 s.hbm b :=
  cellGet_cellWrite_other 0 s.hbm a bs b h

/-- Bytes of the stack outside a write are unchanged. -/
theorem State.stkWrite_outside (s : State) (a : Nat) (bs : Bytes) (b : Nat)
    (h : b < a ∨ a + bs.length ≤ b) : cellGet 0 (s.stkWrite a bs).stk b = cellGet 0 s.stk b :=
  cellGet_cellWrite_other 0 s.stk a bs b h

theorem State.memWf_iff (s : State) :
    s.memWf = true ↔ Memory.wf 0 s.hbm = true ∧ Memory.wf 0 s.stk = true ∧ Memory.wf 0xFF s.flash = true := by
  simp [State.memWf, and_assoc]

theorem State.memWf_congr {s t : State} (h1 : t.hbm = s.hbm) (h2 : t.stk = s.stk) (h3 : t.flash = s.flash) :
    t.memWf = s.memWf := by
  unfold State.memWf; rw [h1, h2, h3]

theorem State.memWf_hbmWriteP (s : State) (a : Nat) (bs : Bytes) (p : Bool) (h : s.memWf = true) :
    (s.hbmWriteP a bs p).memWf = true := by
  rw [State.memWf_iff] at h ⊢
  exact ⟨wf_cellWrite 0 _ _ _ h.1, h.2.1, h.2.2⟩

theorem State.memWf_stkWrite (s : State) (a : Nat) (bs : Bytes) (h : s.memWf = true) : (s.stkWrite a bs).memWf = true := by
  rw [State.memWf_iff] at h ⊢
  exact ⟨h.1, wf_cellWrite 0 _ _ _ h.2.1, h.2.2⟩

theorem State.memWf_flashWrite (s : State) (a : Nat) (bs : Bytes) (h : s.memWf = true) :
    (s.flashWrite a bs).memWf = true := by
  rw [State.memWf_iff] at h ⊢
  exact ⟨h.1, h.2.1, wf_cellWrite 0xFF _ _ _ h.2.2⟩

theorem State.memWf_flashErase (s : State) (a n : Nat) (h : s.memWf = true) : (s.flashErase a n).memWf = true := by
  rw [State.memWf_iff] at h ⊢
  exact ⟨h.1, h.2.1, wf_filter 0xFF _ _ h.2.2⟩

end Sys2Proof.Machine
end

