-- ==== Sys2Proof/Laws/Attention.lean ====
section
/-! SUPPORT. What raising attention and making an event readable can change: the ATN registers, the levels, and the queue of
the flash log; nothing else. -/

namespace Sys2Proof.Machine

/-- Two states differ at most in the ATN registers, the attention levels and the flash log's queue. -/
def AttentionOnly (s t : State) : Prop :=
  ∃ regs atn flash, t = { s with regs := regs, atn := atn, way := { s.way with flash := flash } } ∧
    ∀ a, a < 0x1000 ∨ 0x2000 ≤ a → t.reg a = s.reg a

theorem AttentionOnly.refl (s : State) : AttentionOnly s s := ⟨s.regs, s.atn, s.way.flash, rfl, fun _ _ => rfl⟩

theorem AttentionOnly.trans {s t u : State} (h : AttentionOnly s t) (k : AttentionOnly t u) : AttentionOnly s u := by
  obtain ⟨r, a, f, rfl, hr⟩ := h
  obtain ⟨r', a', f', rfl, hr'⟩ := k
  exact ⟨r', a', f', rfl, fun x hx => (hr' x hx).trans (hr x hx)⟩

theorem AttentionOnly.setReg (s : State) {a : Nat} (v : Word) (h : 0x1000 ≤ a ∧ a < 0x2000) :
    AttentionOnly s (s.setReg a v) :=
  ⟨_, s.atn, s.way.flash, rfl, fun _ hb => s.reg_setReg_other v (by omega)⟩

theorem AttentionOnly.setF (s : State) {a : Nat} (hi lo v : Nat) (h : 0x1000 ≤ a ∧ a < 0x2000) :
    AttentionOnly s (s.setF a hi lo v) := .setReg s _ h

theorem AttentionOnly.bump (s : State) {a : Nat} (h : 0x1000 ≤ a ∧ a < 0x2000) : AttentionOnly s (s.bump a) := .setReg s _ h

theorem AttentionOnly.setAtn (s : State) (a : Atn) : AttentionOnly s { s with atn := a } :=
  ⟨s.regs, a, s.way.flash, rfl, fun _ _ => rfl⟩

theorem State.showLevel_only (s : State) : AttentionOnly s s.showLevel := .setF s _ _ _ (by decide)

theorem State.logEvent_only (s : State) (w1 arg : Word) : AttentionOnly s (s.logEvent w1 arg) := by
  have hk : (s.regN aAtnEseq + 1) % 64 < 64 := Nat.mod_lt _ (by decide)
  have hl : ∀ i < 4, 0x1000 ≤ aAtnLog (4 * ((s.regN aAtnEseq + 1) % 64) + i) ∧
      aAtnLog (4 * ((s.regN aAtnEseq + 1) % 64) + i) < 0x2000 := by
    intro i hi; constructor <;> (unfold aAtnLog; omega)
  have h5 := fun (w2 w3 w4 w5 : Word) => ((((AttentionOnly.setReg s w2 (hl 0 (by decide))).trans
    (.setReg _ w1 (hl 1 (by decide)))).trans (.setReg _ w3 (hl 2 (by decide)))).trans
    (.setReg _ w4 (hl 3 (by decide)))).trans (AttentionOnly.setReg _ (a := aAtnEseq) w5 (by decide))
  unfold State.logEvent
  dsimp only
  split
  · exact (h5 _ _ _ _).trans (.bump _ (by decide))
  · exact h5 _ _ _ _

theorem State.noteFault_only (s : State) (cause level island : Nat) : AttentionOnly s (s.noteFault cause level island) := by
  unfold State.noteFault State.queueFlash
  dsimp only
  split
  · exact .refl _
  · exact ⟨s.regs, s.atn, _, rfl, fun _ _ => rfl⟩

theorem State.raiseCore_only (s : State) (cause island : Nat) : AttentionOnly s (s.raiseCore cause island) := by
  have h0 : AttentionOnly s (if faultLogged cause then
      (s.bump aAtnCntRaise).noteFault cause (causeLevel cause) island else s.bump aAtnCntRaise) := by
    split
    · exact .trans (.bump s (by decide)) (State.noteFault_only _ _ _ _)
    · exact .bump s (by decide)
  unfold State.raiseCore
  dsimp only
  generalize (if faultLogged cause then
      (s.bump aAtnCntRaise).noteFault cause (causeLevel cause) island else s.bump aAtnCntRaise) = u at h0
  split
  · refine h0.trans (.trans ?_ (.trans (State.logEvent_only _ _ _) (State.showLevel_only _)))
    exact .trans (.setF _ _ _ _ (by decide)) (.trans (.setF _ _ _ _ (by decide)) (.trans (.setF _ _ _ _ (by decide))
      (.trans (.bump _ (by decide)) (.setAtn _ _))))
  · refine h0.trans (.trans ?_ (.trans (State.logEvent_only _ _ _) (State.showLevel_only _)))
    exact .trans (.setF _ _ _ _ (by decide)) (.trans (.setF _ _ _ _ (by decide)) (.trans (.setF _ _ _ _ (by decide))
      (.setAtn _ _)))

theorem State.settleLoss_only (s : State) (w : Word) : AttentionOnly s (s.settleLoss w) := by
  unfold State.settleLoss
  split
  · exact .trans (.setAtn s _) (State.raiseCore_only _ _ _)
  · exact .refl s

theorem State.raiseAt_only (s : State) (cause island : Nat) : AttentionOnly s (s.raiseAt cause island) :=
  (s.raiseCore_only cause island).trans (State.settleLoss_only _ _)

theorem State.raise_only (s : State) (cause : Nat) : AttentionOnly s (s.raise cause) := s.raiseAt_only cause 0xFFFF

theorem State.event_only (s : State) (w1 arg : Word) : AttentionOnly s (s.event w1 arg) :=
  (s.logEvent_only w1 arg).trans (State.settleLoss_only _ _)

/-- Setting an error bit with its cause changes, of all registers outside ATN, at most the one named. -/
theorem State.reg_errBit_other (s : State) {a b : Nat} (n cause : Nat) (h : b < 0x1000 ∨ 0x2000 ≤ b) (hb : b ≠ a) :
    (s.errBit a n cause).reg b = s.reg b := by
  obtain ⟨_, _, _, _, hr⟩ := (s.setBit a n).raise_only cause
  exact (hr b h).trans (s.reg_setF_other _ _ _ hb)

/-- The error bit named reads 1. -/
theorem State.flag_errBit (s : State) {a : Nat} (n cause : Nat) (h : a < 0x1000 ∨ 0x2000 ≤ a) (hn : n < 64) :
    (s.errBit a n cause).flag a n = true := by
  obtain ⟨_, _, _, _, hr⟩ := (s.setBit a n).raise_only cause
  have := s.f_setF_same a n n 1 (Nat.le_refl n) hn
  unfold State.f fld at this
  simp only [Nat.sub_self, Nat.zero_add, pow_one] at this
  unfold State.flag bitAt State.errBit State.regN
  rw [hr a h]
  have h2 : ((s.setBit a n).reg a).toNat >>> n % 2 = 1 := this
  rw [h2]; rfl

/-! ## raiseAt -/

@[simp] theorem State.raiseAt_pending (s : State) (c i : Nat) : (s.raiseAt c i).pending = s.pending := by
  obtain ⟨_, _, _, h, _⟩ := s.raiseAt_only c i
  rw [h]
@[simp] theorem State.raiseAt_hbm (s : State) (c i : Nat) : (s.raiseAt c i).hbm = s.hbm := by
  obtain ⟨_, _, _, h, _⟩ := s.raiseAt_only c i
  rw [h]
@[simp] theorem State.raiseAt_hbmPoison (s : State) (c i : Nat) : (s.raiseAt c i).hbmPoison = s.hbmPoison := by
  obtain ⟨_, _, _, h, _⟩ := s.raiseAt_only c i
  rw [h]
@[simp] theorem State.raiseAt_stk (s : State) (c i : Nat) : (s.raiseAt c i).stk = s.stk := by
  obtain ⟨_, _, _, h, _⟩ := s.raiseAt_only c i
  rw [h]
@[simp] theorem State.raiseAt_stkPoison (s : State) (c i : Nat) : (s.raiseAt c i).stkPoison = s.stkPoison := by
  obtain ⟨_, _, _, h, _⟩ := s.raiseAt_only c i
  rw [h]
@[simp] theorem State.raiseAt_flash (s : State) (c i : Nat) : (s.raiseAt c i).flash = s.flash := by
  obtain ⟨_, _, _, h, _⟩ := s.raiseAt_only c i
  rw [h]
@[simp] theorem State.raiseAt_tclk (s : State) (c i : Nat) : (s.raiseAt c i).tclk = s.tclk := by
  obtain ⟨_, _, _, h, _⟩ := s.raiseAt_only c i
  rw [h]
@[simp] theorem State.raiseAt_tb (s : State) (c i : Nat) : (s.raiseAt c i).tb = s.tb := by
  obtain ⟨_, _, _, h, _⟩ := s.raiseAt_only c i
  rw [h]
@[simp] theorem State.raiseAt_freeCtr (s : State) (c i : Nat) : (s.raiseAt c i).freeCtr = s.freeCtr := by
  obtain ⟨_, _, _, h, _⟩ := s.raiseAt_only c i
  rw [h]
@[simp] theorem State.raiseAt_reply (s : State) (c i : Nat) : (s.raiseAt c i).reply = s.reply := by
  obtain ⟨_, _, _, h, _⟩ := s.raiseAt_only c i
  rw [h]
@[simp] theorem State.raiseAt_rgm (s : State) (c i : Nat) : (s.raiseAt c i).rgm = s.rgm := by
  obtain ⟨_, _, _, h, _⟩ := s.raiseAt_only c i
  rw [h]
@[simp] theorem State.raiseAt_car (s : State) (c i : Nat) : (s.raiseAt c i).car = s.car := by
  obtain ⟨_, _, _, h, _⟩ := s.raiseAt_only c i
  rw [h]
@[simp] theorem State.raiseAt_lanes (s : State) (c i : Nat) : (s.raiseAt c i).lanes = s.lanes := by
  obtain ⟨_, _, _, h, _⟩ := s.raiseAt_only c i
  rw [h]
@[simp] theorem State.raiseAt_sca (s : State) (c i : Nat) : (s.raiseAt c i).sca = s.sca := by
  obtain ⟨_, _, _, h, _⟩ := s.raiseAt_only c i
  rw [h]
@[simp] theorem State.raiseAt_shd (s : State) (c i : Nat) : (s.raiseAt c i).shd = s.shd := by
  obtain ⟨_, _, _, h, _⟩ := s.raiseAt_only c i
  rw [h]
@[simp] theorem State.raiseAt_dlm (s : State) (c i : Nat) : (s.raiseAt c i).dlm = s.dlm := by
  obtain ⟨_, _, _, h, _⟩ := s.raiseAt_only c i
  rw [h]
@[simp] theorem State.raiseAt_pol (s : State) (c i : Nat) : (s.raiseAt c i).pol = s.pol := by
  obtain ⟨_, _, _, h, _⟩ := s.raiseAt_only c i
  rw [h]
@[simp] theorem State.raiseAt_pwr (s : State) (c i : Nat) : (s.raiseAt c i).pwr = s.pwr := by
  obtain ⟨_, _, _, h, _⟩ := s.raiseAt_only c i
  rw [h]
@[simp] theorem State.raiseAt_fab (s : State) (c i : Nat) : (s.raiseAt c i).fab = s.fab := by
  obtain ⟨_, _, _, h, _⟩ := s.raiseAt_only c i
  rw [h]
@[simp] theorem State.raiseAt_ring (s : State) (c i : Nat) : (s.raiseAt c i).ring = s.ring := by
  obtain ⟨_, _, _, h, _⟩ := s.raiseAt_only c i
  rw [h]
@[simp] theorem State.raiseAt_ctxs (s : State) (c i : Nat) : (s.raiseAt c i).ctxs = s.ctxs := by
  obtain ⟨_, _, _, h, _⟩ := s.raiseAt_only c i
  rw [h]
@[simp] theorem State.raiseAt_col (s : State) (c i : Nat) : (s.raiseAt c i).col = s.col := by
  obtain ⟨_, _, _, h, _⟩ := s.raiseAt_only c i
  rw [h]
@[simp] theorem State.raiseAt_twn (s : State) (c i : Nat) : (s.raiseAt c i).twn = s.twn := by
  obtain ⟨_, _, _, h, _⟩ := s.raiseAt_only c i
  rw [h]
@[simp] theorem State.raiseAt_mgt (s : State) (c i : Nat) : (s.raiseAt c i).mgt = s.mgt := by
  obtain ⟨_, _, _, h, _⟩ := s.raiseAt_only c i
  rw [h]
@[simp] theorem State.raiseAt_cfg (s : State) (c i : Nat) : (s.raiseAt c i).cfg = s.cfg := by
  obtain ⟨_, _, _, h, _⟩ := s.raiseAt_only c i
  rw [h]
@[simp] theorem State.raiseAt_stack (s : State) (c i : Nat) : (s.raiseAt c i).stack = s.stack := by
  obtain ⟨_, _, _, h, _⟩ := s.raiseAt_only c i
  rw [h]
@[simp] theorem State.raiseAt_slices (s : State) (c i : Nat) : (s.raiseAt c i).slices = s.slices := by
  obtain ⟨_, _, _, h, _⟩ := s.raiseAt_only c i
  rw [h]
@[simp] theorem State.raiseAt_tap (s : State) (c i : Nat) : (s.raiseAt c i).tap = s.tap := by
  obtain ⟨_, _, _, h, _⟩ := s.raiseAt_only c i
  rw [h]
@[simp] theorem State.raiseAt_tbPend (s : State) (c i : Nat) : (s.raiseAt c i).tbPend = s.tbPend := by
  obtain ⟨_, _, _, h, _⟩ := s.raiseAt_only c i
  rw [h]
@[simp] theorem State.raiseAt_slStat (s : State) (c i : Nat) : (s.raiseAt c i).slStat = s.slStat := by
  obtain ⟨_, _, _, h, _⟩ := s.raiseAt_only c i
  rw [h]
@[simp] theorem State.raiseAt_i3cReply (s : State) (c i : Nat) : (s.raiseAt c i).i3cReply = s.i3cReply := by
  obtain ⟨_, _, _, h, _⟩ := s.raiseAt_only c i
  rw [h]
@[simp] theorem State.raiseAt_i3cOut (s : State) (c i : Nat) : (s.raiseAt c i).i3cOut = s.i3cOut := by
  obtain ⟨_, _, _, h, _⟩ := s.raiseAt_only c i
  rw [h]

/-! ## raise -/

@[simp] theorem State.raise_pending (s : State) (c : Nat) : (s.raise c).pending = s.pending := by
  obtain ⟨_, _, _, h, _⟩ := s.raise_only c
  rw [h]
@[simp] theorem State.raise_hbm (s : State) (c : Nat) : (s.raise c).hbm = s.hbm := by
  obtain ⟨_, _, _, h, _⟩ := s.raise_only c
  rw [h]
@[simp] theorem State.raise_hbmPoison (s : State) (c : Nat) : (s.raise c).hbmPoison = s.hbmPoison := by
  obtain ⟨_, _, _, h, _⟩ := s.raise_only c
  rw [h]
@[simp] theorem State.raise_stk (s : State) (c : Nat) : (s.raise c).stk = s.stk := by
  obtain ⟨_, _, _, h, _⟩ := s.raise_only c
  rw [h]
@[simp] theorem State.raise_stkPoison (s : State) (c : Nat) : (s.raise c).stkPoison = s.stkPoison := by
  obtain ⟨_, _, _, h, _⟩ := s.raise_only c
  rw [h]
@[simp] theorem State.raise_flash (s : State) (c : Nat) : (s.raise c).flash = s.flash := by
  obtain ⟨_, _, _, h, _⟩ := s.raise_only c
  rw [h]
@[simp] theorem State.raise_tclk (s : State) (c : Nat) : (s.raise c).tclk = s.tclk := by
  obtain ⟨_, _, _, h, _⟩ := s.raise_only c
  rw [h]
@[simp] theorem State.raise_tb (s : State) (c : Nat) : (s.raise c).tb = s.tb := by
  obtain ⟨_, _, _, h, _⟩ := s.raise_only c
  rw [h]
@[simp] theorem State.raise_freeCtr (s : State) (c : Nat) : (s.raise c).freeCtr = s.freeCtr := by
  obtain ⟨_, _, _, h, _⟩ := s.raise_only c
  rw [h]
@[simp] theorem State.raise_reply (s : State) (c : Nat) : (s.raise c).reply = s.reply := by
  obtain ⟨_, _, _, h, _⟩ := s.raise_only c
  rw [h]
@[simp] theorem State.raise_rgm (s : State) (c : Nat) : (s.raise c).rgm = s.rgm := by
  obtain ⟨_, _, _, h, _⟩ := s.raise_only c
  rw [h]
@[simp] theorem State.raise_car (s : State) (c : Nat) : (s.raise c).car = s.car := by
  obtain ⟨_, _, _, h, _⟩ := s.raise_only c
  rw [h]
@[simp] theorem State.raise_lanes (s : State) (c : Nat) : (s.raise c).lanes = s.lanes := by
  obtain ⟨_, _, _, h, _⟩ := s.raise_only c
  rw [h]
@[simp] theorem State.raise_sca (s : State) (c : Nat) : (s.raise c).sca = s.sca := by
  obtain ⟨_, _, _, h, _⟩ := s.raise_only c
  rw [h]
@[simp] theorem State.raise_shd (s : State) (c : Nat) : (s.raise c).shd = s.shd := by
  obtain ⟨_, _, _, h, _⟩ := s.raise_only c
  rw [h]
@[simp] theorem State.raise_dlm (s : State) (c : Nat) : (s.raise c).dlm = s.dlm := by
  obtain ⟨_, _, _, h, _⟩ := s.raise_only c
  rw [h]
@[simp] theorem State.raise_pol (s : State) (c : Nat) : (s.raise c).pol = s.pol := by
  obtain ⟨_, _, _, h, _⟩ := s.raise_only c
  rw [h]
@[simp] theorem State.raise_pwr (s : State) (c : Nat) : (s.raise c).pwr = s.pwr := by
  obtain ⟨_, _, _, h, _⟩ := s.raise_only c
  rw [h]
@[simp] theorem State.raise_fab (s : State) (c : Nat) : (s.raise c).fab = s.fab := by
  obtain ⟨_, _, _, h, _⟩ := s.raise_only c
  rw [h]
@[simp] theorem State.raise_ring (s : State) (c : Nat) : (s.raise c).ring = s.ring := by
  obtain ⟨_, _, _, h, _⟩ := s.raise_only c
  rw [h]
@[simp] theorem State.raise_ctxs (s : State) (c : Nat) : (s.raise c).ctxs = s.ctxs := by
  obtain ⟨_, _, _, h, _⟩ := s.raise_only c
  rw [h]
@[simp] theorem State.raise_col (s : State) (c : Nat) : (s.raise c).col = s.col := by
  obtain ⟨_, _, _, h, _⟩ := s.raise_only c
  rw [h]
@[simp] theorem State.raise_twn (s : State) (c : Nat) : (s.raise c).twn = s.twn := by
  obtain ⟨_, _, _, h, _⟩ := s.raise_only c
  rw [h]
@[simp] theorem State.raise_mgt (s : State) (c : Nat) : (s.raise c).mgt = s.mgt := by
  obtain ⟨_, _, _, h, _⟩ := s.raise_only c
  rw [h]
@[simp] theorem State.raise_cfg (s : State) (c : Nat) : (s.raise c).cfg = s.cfg := by
  obtain ⟨_, _, _, h, _⟩ := s.raise_only c
  rw [h]
@[simp] theorem State.raise_stack (s : State) (c : Nat) : (s.raise c).stack = s.stack := by
  obtain ⟨_, _, _, h, _⟩ := s.raise_only c
  rw [h]
@[simp] theorem State.raise_slices (s : State) (c : Nat) : (s.raise c).slices = s.slices := by
  obtain ⟨_, _, _, h, _⟩ := s.raise_only c
  rw [h]
@[simp] theorem State.raise_tap (s : State) (c : Nat) : (s.raise c).tap = s.tap := by
  obtain ⟨_, _, _, h, _⟩ := s.raise_only c
  rw [h]
@[simp] theorem State.raise_tbPend (s : State) (c : Nat) : (s.raise c).tbPend = s.tbPend := by
  obtain ⟨_, _, _, h, _⟩ := s.raise_only c
  rw [h]
@[simp] theorem State.raise_slStat (s : State) (c : Nat) : (s.raise c).slStat = s.slStat := by
  obtain ⟨_, _, _, h, _⟩ := s.raise_only c
  rw [h]
@[simp] theorem State.raise_i3cReply (s : State) (c : Nat) : (s.raise c).i3cReply = s.i3cReply := by
  obtain ⟨_, _, _, h, _⟩ := s.raise_only c
  rw [h]
@[simp] theorem State.raise_i3cOut (s : State) (c : Nat) : (s.raise c).i3cOut = s.i3cOut := by
  obtain ⟨_, _, _, h, _⟩ := s.raise_only c
  rw [h]

/-! ## event -/

@[simp] theorem State.event_pending (s : State) (w a : Word) : (s.event w a).pending = s.pending := by
  obtain ⟨_, _, _, h, _⟩ := s.event_only w a
  rw [h]
@[simp] theorem State.event_hbm (s : State) (w a : Word) : (s.event w a).hbm = s.hbm := by
  obtain ⟨_, _, _, h, _⟩ := s.event_only w a
  rw [h]
@[simp] theorem State.event_hbmPoison (s : State) (w a : Word) : (s.event w a).hbmPoison = s.hbmPoison := by
  obtain ⟨_, _, _, h, _⟩ := s.event_only w a
  rw [h]
@[simp] theorem State.event_stk (s : State) (w a : Word) : (s.event w a).stk = s.stk := by
  obtain ⟨_, _, _, h, _⟩ := s.event_only w a
  rw [h]
@[simp] theorem State.event_stkPoison (s : State) (w a : Word) : (s.event w a).stkPoison = s.stkPoison := by
  obtain ⟨_, _, _, h, _⟩ := s.event_only w a
  rw [h]
@[simp] theorem State.event_flash (s : State) (w a : Word) : (s.event w a).flash = s.flash := by
  obtain ⟨_, _, _, h, _⟩ := s.event_only w a
  rw [h]
@[simp] theorem State.event_tclk (s : State) (w a : Word) : (s.event w a).tclk = s.tclk := by
  obtain ⟨_, _, _, h, _⟩ := s.event_only w a
  rw [h]
@[simp] theorem State.event_tb (s : State) (w a : Word) : (s.event w a).tb = s.tb := by
  obtain ⟨_, _, _, h, _⟩ := s.event_only w a
  rw [h]
@[simp] theorem State.event_freeCtr (s : State) (w a : Word) : (s.event w a).freeCtr = s.freeCtr := by
  obtain ⟨_, _, _, h, _⟩ := s.event_only w a
  rw [h]
@[simp] theorem State.event_reply (s : State) (w a : Word) : (s.event w a).reply = s.reply := by
  obtain ⟨_, _, _, h, _⟩ := s.event_only w a
  rw [h]
@[simp] theorem State.event_rgm (s : State) (w a : Word) : (s.event w a).rgm = s.rgm := by
  obtain ⟨_, _, _, h, _⟩ := s.event_only w a
  rw [h]
@[simp] theorem State.event_car (s : State) (w a : Word) : (s.event w a).car = s.car := by
  obtain ⟨_, _, _, h, _⟩ := s.event_only w a
  rw [h]
@[simp] theorem State.event_lanes (s : State) (w a : Word) : (s.event w a).lanes = s.lanes := by
  obtain ⟨_, _, _, h, _⟩ := s.event_only w a
  rw [h]
@[simp] theorem State.event_sca (s : State) (w a : Word) : (s.event w a).sca = s.sca := by
  obtain ⟨_, _, _, h, _⟩ := s.event_only w a
  rw [h]
@[simp] theorem State.event_shd (s : State) (w a : Word) : (s.event w a).shd = s.shd := by
  obtain ⟨_, _, _, h, _⟩ := s.event_only w a
  rw [h]
@[simp] theorem State.event_dlm (s : State) (w a : Word) : (s.event w a).dlm = s.dlm := by
  obtain ⟨_, _, _, h, _⟩ := s.event_only w a
  rw [h]
@[simp] theorem State.event_pol (s : State) (w a : Word) : (s.event w a).pol = s.pol := by
  obtain ⟨_, _, _, h, _⟩ := s.event_only w a
  rw [h]
@[simp] theorem State.event_pwr (s : State) (w a : Word) : (s.event w a).pwr = s.pwr := by
  obtain ⟨_, _, _, h, _⟩ := s.event_only w a
  rw [h]
@[simp] theorem State.event_fab (s : State) (w a : Word) : (s.event w a).fab = s.fab := by
  obtain ⟨_, _, _, h, _⟩ := s.event_only w a
  rw [h]
@[simp] theorem State.event_ring (s : State) (w a : Word) : (s.event w a).ring = s.ring := by
  obtain ⟨_, _, _, h, _⟩ := s.event_only w a
  rw [h]
@[simp] theorem State.event_ctxs (s : State) (w a : Word) : (s.event w a).ctxs = s.ctxs := by
  obtain ⟨_, _, _, h, _⟩ := s.event_only w a
  rw [h]
@[simp] theorem State.event_col (s : State) (w a : Word) : (s.event w a).col = s.col := by
  obtain ⟨_, _, _, h, _⟩ := s.event_only w a
  rw [h]
@[simp] theorem State.event_twn (s : State) (w a : Word) : (s.event w a).twn = s.twn := by
  obtain ⟨_, _, _, h, _⟩ := s.event_only w a
  rw [h]
@[simp] theorem State.event_mgt (s : State) (w a : Word) : (s.event w a).mgt = s.mgt := by
  obtain ⟨_, _, _, h, _⟩ := s.event_only w a
  rw [h]
@[simp] theorem State.event_cfg (s : State) (w a : Word) : (s.event w a).cfg = s.cfg := by
  obtain ⟨_, _, _, h, _⟩ := s.event_only w a
  rw [h]
@[simp] theorem State.event_stack (s : State) (w a : Word) : (s.event w a).stack = s.stack := by
  obtain ⟨_, _, _, h, _⟩ := s.event_only w a
  rw [h]
@[simp] theorem State.event_slices (s : State) (w a : Word) : (s.event w a).slices = s.slices := by
  obtain ⟨_, _, _, h, _⟩ := s.event_only w a
  rw [h]
@[simp] theorem State.event_tap (s : State) (w a : Word) : (s.event w a).tap = s.tap := by
  obtain ⟨_, _, _, h, _⟩ := s.event_only w a
  rw [h]
@[simp] theorem State.event_tbPend (s : State) (w a : Word) : (s.event w a).tbPend = s.tbPend := by
  obtain ⟨_, _, _, h, _⟩ := s.event_only w a
  rw [h]
@[simp] theorem State.event_slStat (s : State) (w a : Word) : (s.event w a).slStat = s.slStat := by
  obtain ⟨_, _, _, h, _⟩ := s.event_only w a
  rw [h]
@[simp] theorem State.event_i3cReply (s : State) (w a : Word) : (s.event w a).i3cReply = s.i3cReply := by
  obtain ⟨_, _, _, h, _⟩ := s.event_only w a
  rw [h]
@[simp] theorem State.event_i3cOut (s : State) (w a : Word) : (s.event w a).i3cOut = s.i3cOut := by
  obtain ⟨_, _, _, h, _⟩ := s.event_only w a
  rw [h]

/-! ## errBit -/

@[simp] theorem State.errBit_pending (s : State) (a n c : Nat) : (s.errBit a n c).pending = s.pending := by
  simp [State.errBit]
@[simp] theorem State.errBit_hbm (s : State) (a n c : Nat) : (s.errBit a n c).hbm = s.hbm := by
  simp [State.errBit]
@[simp] theorem State.errBit_hbmPoison (s : State) (a n c : Nat) : (s.errBit a n c).hbmPoison = s.hbmPoison := by
  simp [State.errBit]
@[simp] theorem State.errBit_stk (s : State) (a n c : Nat) : (s.errBit a n c).stk = s.stk := by
  simp [State.errBit]
@[simp] theorem State.errBit_stkPoison (s : State) (a n c : Nat) : (s.errBit a n c).stkPoison = s.stkPoison := by
  simp [State.errBit]
@[simp] theorem State.errBit_flash (s : State) (a n c : Nat) : (s.errBit a n c).flash = s.flash := by
  simp [State.errBit]
@[simp] theorem State.errBit_tclk (s : State) (a n c : Nat) : (s.errBit a n c).tclk = s.tclk := by
  simp [State.errBit]
@[simp] theorem State.errBit_tb (s : State) (a n c : Nat) : (s.errBit a n c).tb = s.tb := by
  simp [State.errBit]
@[simp] theorem State.errBit_freeCtr (s : State) (a n c : Nat) : (s.errBit a n c).freeCtr = s.freeCtr := by
  simp [State.errBit]
@[simp] theorem State.errBit_reply (s : State) (a n c : Nat) : (s.errBit a n c).reply = s.reply := by
  simp [State.errBit]
@[simp] theorem State.errBit_rgm (s : State) (a n c : Nat) : (s.errBit a n c).rgm = s.rgm := by
  simp [State.errBit]
@[simp] theorem State.errBit_car (s : State) (a n c : Nat) : (s.errBit a n c).car = s.car := by
  simp [State.errBit]
@[simp] theorem State.errBit_lanes (s : State) (a n c : Nat) : (s.errBit a n c).lanes = s.lanes := by
  simp [State.errBit]
@[simp] theorem State.errBit_sca (s : State) (a n c : Nat) : (s.errBit a n c).sca = s.sca := by
  simp [State.errBit]
@[simp] theorem State.errBit_shd (s : State) (a n c : Nat) : (s.errBit a n c).shd = s.shd := by
  simp [State.errBit]
@[simp] theorem State.errBit_dlm (s : State) (a n c : Nat) : (s.errBit a n c).dlm = s.dlm := by
  simp [State.errBit]
@[simp] theorem State.errBit_pol (s : State) (a n c : Nat) : (s.errBit a n c).pol = s.pol := by
  simp [State.errBit]
@[simp] theorem State.errBit_pwr (s : State) (a n c : Nat) : (s.errBit a n c).pwr = s.pwr := by
  simp [State.errBit]
@[simp] theorem State.errBit_fab (s : State) (a n c : Nat) : (s.errBit a n c).fab = s.fab := by
  simp [State.errBit]
@[simp] theorem State.errBit_ring (s : State) (a n c : Nat) : (s.errBit a n c).ring = s.ring := by
  simp [State.errBit]
@[simp] theorem State.errBit_ctxs (s : State) (a n c : Nat) : (s.errBit a n c).ctxs = s.ctxs := by
  simp [State.errBit]
@[simp] theorem State.errBit_col (s : State) (a n c : Nat) : (s.errBit a n c).col = s.col := by
  simp [State.errBit]
@[simp] theorem State.errBit_twn (s : State) (a n c : Nat) : (s.errBit a n c).twn = s.twn := by
  simp [State.errBit]
@[simp] theorem State.errBit_mgt (s : State) (a n c : Nat) : (s.errBit a n c).mgt = s.mgt := by
  simp [State.errBit]
@[simp] theorem State.errBit_cfg (s : State) (a n c : Nat) : (s.errBit a n c).cfg = s.cfg := by
  simp [State.errBit]
@[simp] theorem State.errBit_stack (s : State) (a n c : Nat) : (s.errBit a n c).stack = s.stack := by
  simp [State.errBit]
@[simp] theorem State.errBit_slices (s : State) (a n c : Nat) : (s.errBit a n c).slices = s.slices := by
  simp [State.errBit]
@[simp] theorem State.errBit_tap (s : State) (a n c : Nat) : (s.errBit a n c).tap = s.tap := by
  simp [State.errBit]
@[simp] theorem State.errBit_tbPend (s : State) (a n c : Nat) : (s.errBit a n c).tbPend = s.tbPend := by
  simp [State.errBit]
@[simp] theorem State.errBit_slStat (s : State) (a n c : Nat) : (s.errBit a n c).slStat = s.slStat := by
  simp [State.errBit]
@[simp] theorem State.errBit_i3cReply (s : State) (a n c : Nat) : (s.errBit a n c).i3cReply = s.i3cReply := by
  simp [State.errBit]
@[simp] theorem State.errBit_i3cOut (s : State) (a n c : Nat) : (s.errBit a n c).i3cOut = s.i3cOut := by
  simp [State.errBit]

end Sys2Proof.Machine
end

