-- ==== Sys2Proof/Laws/Fabric.lean ====
section
/-! SUPPORT. What sending can change: the fabric's packets, the counters of the ports and the ACC registers; and what receipt
does with a packet this engine hears. -/

namespace Sys2Proof.Machine

/-- Two states differ at most in the fabric's lists and in registers of FAB and ACC. -/
def FabricOnly (s t : State) : Prop :=
  ∃ regs fab, t = { s with regs := regs, fab := fab } ∧
    ∀ a, a < 0x80000 ∨ 0xC0000 ≤ a ∧ a < 0x140000 ∨ 0x150000 ≤ a → t.reg a = s.reg a

theorem FabricOnly.refl (s : State) : FabricOnly s s := ⟨s.regs, s.fab, rfl, fun _ _ => rfl⟩

theorem FabricOnly.trans {s t u : State} (h : FabricOnly s t) (k : FabricOnly t u) : FabricOnly s u := by
  obtain ⟨r, f, rfl, hr⟩ := h
  obtain ⟨r', f', rfl, hr'⟩ := k
  exact ⟨r', f', rfl, fun x hx => (hr' x hx).trans (hr x hx)⟩

theorem FabricOnly.setReg (s : State) {a : Nat} (v : Word) (h : 0x80000 ≤ a ∧ a < 0xC0000 ∨ 0x140000 ≤ a ∧ a < 0x150000) :
    FabricOnly s (s.setReg a v) :=
  ⟨_, s.fab, rfl, fun _ hb => s.reg_setReg_other v (by omega)⟩

theorem FabricOnly.setFab (s : State) (f : Fab) : FabricOnly s { s with fab := f } := ⟨s.regs, f, rfl, fun _ _ => rfl⟩

theorem FabricOnly.foldl {α : Type} (g : State → α → State) (h : ∀ s a, FabricOnly s (g s a)) (l : List α) (s : State) :
    FabricOnly s (l.foldl g s) := by
  induction l generalizing s with
  | nil => exact .refl s
  | cons a l ih => exact (h s a).trans (ih _)

/-- A register of FAB and the ACC registers of a context may change. -/
theorem FabricOnly.accAdd (s : State) {a : Nat → Nat} {x : Nat} (n : Nat)
    (h : 0x80000 ≤ a x ∧ a x < 0xC0000 ∨ 0x140000 ≤ a x ∧ a x < 0x150000) : FabricOnly s (s.accAdd a x n) := by
  unfold State.accAdd
  split
  · exact .refl s
  · exact .setReg s _ h

theorem pCtx_lt (p : Packet) : pCtx p < 4096 := Nat.mod_lt _ (by decide)

theorem State.sendOn_only (s : State) {n : Nat} (p : Packet) (h : n < 16) : FabricOnly s (s.sendOn n p) := by
  have hc := pCtx_lt (s.dress n p)
  unfold State.sendOn
  split
  · exact .refl s
  · dsimp only
    refine FabricOnly.trans ?_ (.setFab _ _)
    refine FabricOnly.trans ?_ (.accAdd _ _ (by unfold aAccFabTx; omega))
    exact (FabricOnly.setReg s _ (by unfold aFabCntTxpkt; omega)).trans (.setReg _ _ (by unfold aFabCntTxbyte; omega))

/-- A port that a hash picks is one of the sixteen. -/
theorem State.pickPort_lt {s : State} {x src dst vc n : Nat} (h : s.pickPort x src dst vc = some n) : n < 16 := by
  unfold State.pickPort at h
  dsimp only at h
  split at h
  · cases h
  · have := List.mem_of_getElem? h
    simp only [List.mem_filter, State.portIn, Bool.and_eq_true, decide_eq_true_eq] at this
    exact this.2.1.1.1

theorem State.sendKept_only (s : State) (p : Packet) : FabricOnly s (s.sendKept p) := by
  unfold State.sendKept
  dsimp only
  split
  · exact .setFab s _
  · split
    · exact .setFab s _
    · next h => exact (s.sendOn_only p (State.pickPort_lt h)).trans (.setFab _ _)

theorem State.tctl_only (s : State) (dst kind xid ctx : Nat) (data : Bytes) : FabricOnly s (s.tctl dst kind xid ctx data) :=
  s.sendKept_only _

theorem State.sendVia_only (s : State) {ports : List Nat} (p : Packet) (h : ∀ n ∈ ports, n < 16) :
    FabricOnly s (s.sendVia ports p) := by
  unfold State.sendVia
  split
  · next n hn => exact s.sendOn_only p (h n (List.mem_of_find?_eq_some hn))
  · exact .refl s

theorem State.fmSend_only (s : State) (kind chip survivor ctx : Nat) (data : Bytes) :
    FabricOnly s (s.fmSend kind chip survivor ctx data) := by
  exact s.sendVia_only _ (fun n hn => by
    simp only [State.portsIn, List.mem_filter, List.mem_range] at hn
    exact hn.1)

theorem State.sendTransfer_only (s : State) (t : XferOut) : FabricOnly s (s.sendTransfer t) := by
  unfold State.sendTransfer
  dsimp only
  exact ((s.tctl_only _ _ _ _ _).trans (.foldl _ (fun _ _ => State.sendKept_only _ _) _ _)).trans (State.tctl_only _ _ _ _ _ _)

theorem State.countRx_only (s : State) {n : Nat} (p : Packet) (h : n < 16) : FabricOnly s (s.countRx n p) := by
  have hc := pCtx_lt p
  unfold State.countRx
  dsimp only
  have h1 : FabricOnly s (s.bump (aFabCntRxpkt n)) := .setReg s _ (by unfold aFabCntRxpkt; omega)
  split
  · exact h1
  · exact h1.trans (.accAdd _ _ (by unfold aAccFabRx; omega))

/-- Counting a packet changes two counters. -/
theorem State.countRx_reg (s : State) (n : Nat) (p : Packet) {a : Nat} (h : a ≠ aFabCntRxpkt n) (k : a ≠ aAccFabRx (pCtx p)) :
    (s.countRx n p).reg a = s.reg a := by
  unfold State.countRx State.accAdd
  dsimp only
  split
  · exact s.reg_bump_other h
  · split
    · exact s.reg_bump_other h
    · exact (State.reg_addCtr_other _ _ k).trans (s.reg_bump_other h)

theorem State.countRx_f (s : State) (n : Nat) (p : Packet) {a : Nat} (h : a ≠ aFabCntRxpkt n) (k : a ≠ aAccFabRx (pCtx p))
    (hi lo : Nat) : (s.countRx n p).f a hi lo = s.f a hi lo := by
  unfold State.f State.regN; rw [s.countRx_reg n p h k]

/-- A packet this engine hears, of a row's own opcode, runs the row on the state that has counted it. -/
theorem State.receive_heard {s : State} {n : Nat} {p : Packet} {mine : Nat → Bool} {k : State → State}
    (h : s.hears n p = true) (hm : mine (pOp p) = true) : s.receive n p mine k = .next (k (s.countRx n p)) := by
  simp only [State.hears, Bool.and_eq_true, decide_eq_true_eq, beq_iff_eq, Bool.not_eq_true'] at h
  obtain ⟨⟨⟨⟨hn, hl⟩, hh⟩, hp⟩, hi⟩ := h
  have hc := pCtx_lt p
  have h1 : (s.countRx n p).halted = s.halted := by
    obtain ⟨r, f, h, -⟩ := s.countRx_only p hn
    rw [h]; rfl
  have h2 : (s.countRx n p).gen n = s.gen n := s.countRx_f n p (by unfold aFabState aFabCntRxpkt; omega) (by unfold aFabState aAccFabRx; omega) _ _
  have h3 : (s.countRx n p).isMine (pDst p) = s.isMine (pDst p) := by
    unfold State.isMine State.chip State.flag
    rw [s.countRx_f n p (a := aMsfChip) (by unfold aMsfChip aFabCntRxpkt; omega) (by unfold aMsfChip aAccFabRx; omega),
      s.countRx_f n p (a := aTwnState) (by unfold aTwnState aFabCntRxpkt; omega) (by unfold aTwnState aAccFabRx; omega)]
    unfold State.regN
    rw [s.countRx_reg n p (a := aTwnState) (by unfold aTwnState aFabCntRxpkt; omega) (by unfold aTwnState aAccFabRx; omega)]
  unfold State.receive State.receiveIf
  dsimp only
  rw [h1, h2, h3]
  simp [hl, hh, hp, hm, hi]
  omega

end Sys2Proof.Machine
end

