-- ==== Sys2Proof/Laws/Islands.lean ====
section
/-! SUPPORT. What counting correctable errors of an island can change: the counts of the management island, and attention. -/

namespace Sys2Proof.Machine

/-- Two states differ at most in the counts of correctable errors and in attention. -/
def CountOnly (s t : State) : Prop :=
  ∃ ces ceNote, AttentionOnly { s with mgt := { s.mgt with ces := ces, ceNote := ceNote } } t

theorem CountOnly.refl (s : State) : CountOnly s s := ⟨s.mgt.ces, s.mgt.ceNote, .refl s⟩

theorem CountOnly.trans {s t u : State} (h : CountOnly s t) (k : CountOnly t u) : CountOnly s u := by
  obtain ⟨c, n, r, a, f, rfl, hr⟩ := h
  obtain ⟨c', n', r', a', f', rfl, hr'⟩ := k
  exact ⟨c', n', r', a', f', rfl, fun x hx => (hr' x hx).trans (hr x hx)⟩

/-- Registers outside the ATN block stay. -/
theorem CountOnly.reg {s t : State} (h : CountOnly s t) {a : Nat} (ha : a < 0x1000 ∨ 0x2000 ≤ a) : t.reg a = s.reg a := by
  obtain ⟨_, _, _, _, _, _, hr⟩ := h
  exact hr a ha

theorem State.noteCe_only (s : State) (i : Nat) : CountOnly s (s.noteCe i) := by
  simp only [State.noteCe]
  split_ifs
  · exact ⟨_, _, State.raiseAt_only _ _ _⟩
  · exact ⟨_, s.mgt.ceNote, .refl _⟩

theorem State.noteCes_only (s : State) (i n : Nat) : CountOnly s (s.noteCes i n) := by
  unfold State.noteCes
  generalize List.range n = l
  induction l generalizing s with
  | nil => exact .refl s
  | cons _ _ ih => exact (s.noteCe_only i).trans (ih _)

end Sys2Proof.Machine
end

