-- ==== Sys2Proof/Laws/Memory.lean ====
section
/-! SUPPORT. Every operation over the memories keeps their canonical form, and the memories at reset have it. -/

namespace Sys2Proof.Machine

theorem memWf_iff (s : State) :
    s.memWf = true ↔ Memory.wf 0 s.hbm = true ∧ Memory.wf 0 s.stk = true ∧ Memory.wf 0xFF s.flash = true := by
  simp [State.memWf, and_assoc]

/-- A state with the same memories has them in canonical form as well. -/
theorem memWf_of_same {s t : State} (h1 : t.hbm = s.hbm) (h2 : t.stk = s.stk) (h3 : t.flash = s.flash)
    (h : s.memWf = true) : t.memWf = true := by
  unfold State.memWf at *
  rw [h1, h2, h3]; exact h

theorem State.reset_memWf : State.reset.memWf = true := by
  unfold State.memWf State.reset; rfl

theorem State.hbmWriteP_memWf (s : State) (a : Nat) (bs : Bytes) (p : Bool) (h : s.memWf = true) :
    (s.hbmWriteP a bs p).memWf = true := by
  rw [memWf_iff] at *
  exact ⟨wf_cellWrite _ _ _ _ h.1, h.2.1, h.2.2⟩

theorem State.hbmWrite_memWf (s : State) (a : Nat) (bs : Bytes) (h : s.memWf = true) : (s.hbmWrite a bs).memWf = true :=
  s.hbmWriteP_memWf a bs false h

theorem State.stkWrite_memWf (s : State) (a : Nat) (bs : Bytes) (h : s.memWf = true) : (s.stkWrite a bs).memWf = true := by
  rw [memWf_iff] at *
  exact ⟨h.1, wf_cellWrite _ _ _ _ h.2.1, h.2.2⟩

theorem State.flashWrite_memWf (s : State) (a : Nat) (bs : Bytes) (h : s.memWf = true) :
    (s.flashWrite a bs).memWf = true := by
  rw [memWf_iff] at *
  exact ⟨h.1, h.2.1, wf_cellWrite _ _ _ _ h.2.2⟩

theorem State.flashErase_memWf (s : State) (a n : Nat) (h : s.memWf = true) : (s.flashErase a n).memWf = true := by
  rw [memWf_iff] at *
  exact ⟨h.1, h.2.1, wf_filter _ _ _ h.2.2⟩

theorem State.hbmZero_memWf (s : State) (a n : Nat) (h : s.memWf = true) : (s.hbmZero a n).memWf = true := by
  rw [memWf_iff] at *
  exact ⟨wf_filter _ _ _ h.1, h.2.1, h.2.2⟩

theorem State.hbmPatch_memWf (s : State) (a : Nat) (bs : Bytes) (p : Bool) (h : s.memWf = true) :
    (s.hbmPatch a bs p).memWf = true := by
  unfold State.hbmPatch
  split
  · exact s.hbmWriteP_memWf a bs p h
  · dsimp only
    split
    · exact s.hbmWriteP_memWf a bs p h
    · exact memWf_of_same (s := s.hbmWriteP a bs p) rfl rfl rfl (s.hbmWriteP_memWf a bs p h)

/-- Bytes written to host HBM read back. -/
theorem State.hbmWrite_holds (s : State) (a : Nat) (bs : Bytes) : HbmHolds (s.hbmWrite a bs) a bs :=
  fun i h => cellGet_cellWrite_inside 0 s.hbm a bs i h

/-- A write to host HBM leaves every other byte. -/
theorem State.hbmWrite_other (s : State) (a : Nat) (bs : Bytes) : SameHbmBut a bs.length s (s.hbmWrite a bs) :=
  fun b h => cellGet_cellWrite_other 0 s.hbm a bs b h

end Sys2Proof.Machine
end

