-- ==== Sys2Proof/Laws/Pools.lean ====
section
/-! SUPPORT. What the pool operations can change: the pools, the stack, the registers of POL, and attention. -/

namespace Sys2Proof.Machine

/-- Two states differ at most in the pools, the stack, the registers of ATN and POL, the attention levels and the flash log's
queue; the memories keep their canonical form. -/
def PoolsOnly (s t : State) : Prop :=
  (∃ regs atn flash pol stk poison, t = { s with
    regs := regs, atn := atn, way := { s.way with flash := flash }, pol := pol, stk := stk, stkPoison := poison }) ∧
  (∀ a, a < 0x1000 ∨ 0x2000 ≤ a ∧ a < 0x120000 ∨ 0x130000 ≤ a → t.reg a = s.reg a) ∧
  (s.memWf = true → t.memWf = true)

theorem PoolsOnly.refl (s : State) : PoolsOnly s s := ⟨⟨s.regs, s.atn, s.way.flash, s.pol, s.stk, s.stkPoison, rfl⟩, fun _ _ => rfl, id⟩

theorem PoolsOnly.trans {s t u : State} (h : PoolsOnly s t) (k : PoolsOnly t u) : PoolsOnly s u := by
  obtain ⟨⟨r, a, f, p, m, q, rfl⟩, hr, hm⟩ := h
  obtain ⟨⟨r', a', f', p', m', q', rfl⟩, hr', hm'⟩ := k
  exact ⟨⟨r', a', f', p', m', q', rfl⟩, fun x hx => (hr' x hx).trans (hr x hx), hm' ∘ hm⟩

theorem AttentionOnly.pools {s t : State} (h : AttentionOnly s t) : PoolsOnly s t := by
  obtain ⟨r, a, f, rfl, hr⟩ := h
  exact ⟨⟨r, a, f, s.pol, s.stk, s.stkPoison, rfl⟩, fun x hx => hr x (by omega), id⟩

theorem PoolsOnly.setReg (s : State) {a : Nat} (v : Word) (h : 0x120000 ≤ a ∧ a < 0x130000) : PoolsOnly s (s.setReg a v) :=
  ⟨⟨_, s.atn, s.way.flash, s.pol, s.stk, s.stkPoison, rfl⟩, fun _ hb => s.reg_setReg_other v (by omega), id⟩

theorem PoolsOnly.setF (s : State) {a : Nat} (hi lo v : Nat) (h : 0x120000 ≤ a ∧ a < 0x130000) :
    PoolsOnly s (s.setF a hi lo v) := .setReg s _ h

theorem PoolsOnly.bump (s : State) {a : Nat} (h : 0x120000 ≤ a ∧ a < 0x130000) : PoolsOnly s (s.bump a) := .setReg s _ h

theorem PoolsOnly.setPol (s : State) (p : Pol) : PoolsOnly s { s with pol := p } :=
  ⟨⟨s.regs, s.atn, s.way.flash, p, s.stk, s.stkPoison, rfl⟩, fun _ _ => rfl, id⟩

theorem PoolsOnly.setPool (s : State) (c : Nat) (p : Pool) : PoolsOnly s (s.setPool c p) := .setPol s _

theorem PoolsOnly.stkWrite (s : State) (a : Nat) (bs : Bytes) : PoolsOnly s (s.stkWrite a bs) :=
  ⟨⟨s.regs, s.atn, s.way.flash, s.pol, _, _, rfl⟩, fun _ _ => rfl, s.stkWrite_memWf a bs⟩

theorem PoolsOnly.setEntry (s : State) (c i : Nat) (e : PolEntry) : PoolsOnly s (s.setEntry c i e) := by
  unfold State.setEntry
  dsimp only
  split
  · exact (PoolsOnly.setPool s _ _).trans (.stkWrite _ _ _)
  · exact .setPool s _ _

theorem PoolsOnly.errBit (s : State) {a : Nat} (n c : Nat) (h : 0x120000 ≤ a ∧ a < 0x130000) : PoolsOnly s (s.errBit a n c) :=
  (PoolsOnly.setReg s _ h).trans (State.raise_only _ c).pools

theorem PoolsOnly.foldl {α : Type} {P : α → Prop} (g : State → α → State) (h : ∀ s a, P a → PoolsOnly s (g s a))
    (l : List α) (hl : ∀ a ∈ l, P a) (s : State) : PoolsOnly s (l.foldl g s) := by
  induction l generalizing s with
  | nil => exact .refl s
  | cons a l ih =>
    exact (h s a (hl a (List.mem_cons_self ..))).trans (ih (fun b hb => hl b (List.mem_cons_of_mem _ hb)) _)

variable {c : Nat}

theorem aPolFree_in (hc : c < 8) : 0x120000 ≤ aPolFree c ∧ aPolFree c < 0x130000 := by unfold aPolFree; omega

theorem State.push_only (s : State) (i : Nat) (hc : c < 8) : PoolsOnly s (s.push c i) := by
  unfold State.push
  exact ((PoolsOnly.stkWrite s _ _).trans (.setPool _ _ _)).trans (.setF _ _ _ _ (aPolFree_in hc))

theorem State.setOff_only (s : State) (l : List Nat) (hc : c < 8) : PoolsOnly s (s.setOff c l) :=
  (PoolsOnly.setPool s _ _).trans (.setF _ _ _ _ (aPolFree_in hc))

theorem State.polEnter_only (s : State) (k : Nat) (hc : c < 8) : PoolsOnly s (s.polEnter c k) := by
  have h : PoolsOnly s (s.setF (aPolFree c) 61 60 k) := .setReg _ _ (aPolFree_in hc)
  unfold State.polEnter
  dsimp only
  split
  · exact h.trans (.errBit _ _ _ (by decide))
  · split
    · exact h.trans (.errBit _ _ _ (by decide))
    · exact h

theorem polRise_only (k : Nat) (s : State) (hc : c < 8) : PoolsOnly s (polRise k c s) := by
  induction k generalizing s with
  | zero => exact .refl s
  | succ k ih =>
    unfold polRise
    dsimp only
    split
    · exact (PoolsOnly.setReg _ _ (aPolFree_in hc)).trans (ih _)
    · exact .refl s

/-- The pool's state follows its count with no more than its own fields and attention changing. -/
theorem State.polSettle_only (s : State) (hc : c < 8) : PoolsOnly s (s.polSettle c) := by
  unfold State.polSettle
  dsimp only
  split
  · exact .foldl (P := fun _ => True) _ (fun s k _ => s.polEnter_only k hc) _ (fun _ _ => trivial) s
  · exact polRise_only 3 s hc

theorem State.fillPool_only (s : State) (hc : c < 8) : PoolsOnly s (s.fillPool c) := by
  unfold State.fillPool
  dsimp only
  exact (((PoolsOnly.setPool s _ _).trans (.setF _ _ _ _ (aPolFree_in hc))).trans (State.setOff_only _ _ hc)).trans
    (.foldl (P := fun _ => True) _ (fun s i _ => s.push_only i hc) _ (fun _ _ => trivial) _)

theorem State.rebuild_only (s : State) (hc : c < 8) : PoolsOnly s (s.rebuild c) :=
  (s.fillPool_only hc).trans (State.polSettle_only _ hc)

theorem State.listDamaged_only (s : State) (hc : c < 8) : PoolsOnly s (s.listDamaged c) := by
  unfold State.listDamaged
  exact (((PoolsOnly.setPool s _ _).trans (.setF _ _ _ _ (aPolFree_in hc))).trans (.errBit _ _ _ (by decide))).trans
    (State.polSettle_only _ hc)

theorem State.popOne_only (s : State) (w : Charge) (hc : c < 8) : PoolsOnly s (s.popOne c w).2 := by
  have hr : 0x120000 ≤ aPolCntAlloc c ∧ aPolCntAlloc c < 0x130000 := by unfold aPolCntAlloc; omega
  unfold State.popOne
  split
  · exact .refl s
  · split
    · dsimp only
      exact ((((PoolsOnly.setEntry s _ _ _).trans (.setPool _ _ _)).trans (.setF _ _ _ _ (aPolFree_in hc))).trans
        (.bump _ hr)).trans (State.polSettle_only _ hc)
    · dsimp only
      exact s.listDamaged_only hc

theorem takeLoop_only (k n : Nat) (w : Charge) (got : List Nat) (s : State) (hc : c < 8) :
    PoolsOnly s (takeLoop k c n w got s).2 := by
  induction k generalizing n got s with
  | zero => exact .refl s
  | succ k ih =>
    have h := s.popOne_only w hc
    unfold takeLoop
    split
    · exact .refl s
    · split
      · next e => rw [e] at h; exact h.trans (ih _ _ _)
      · next e =>
        rw [e] at h
        split
        · exact (h.trans (State.rebuild_only _ hc)).trans (ih _ _ _)
        · exact h

theorem State.returnBuf_only (s : State) (i : Nat) (hc : c < 8) : PoolsOnly s (s.returnBuf c i) := by
  unfold State.returnBuf
  dsimp only
  split
  · exact (PoolsOnly.setEntry s _ _ _).trans (State.setOff_only _ _ hc)
  · exact (((PoolsOnly.setEntry s _ _ _).trans (State.push_only _ _ hc)).trans
      (.bump _ (by unfold aPolCntFree; omega))).trans (State.polSettle_only _ hc)

theorem handleClass_lt (h : Nat) : handleClass h < 8 := Nat.mod_lt _ (by decide)

theorem State.giveBack_only (s : State) (h : Nat) : PoolsOnly s (s.giveBack h) := s.returnBuf_only _ (handleClass_lt h)

/-- An allocation changes no more than the pools, the stack and attention. -/
theorem State.allocN_only (s : State) (n : Nat) (w : Charge) (kind : Nat) (hc : c < 8) :
    PoolsOnly s (s.allocN c n w kind).2 := by
  have h0 : PoolsOnly s (if (s.pool c).rebuilding then s.rebuild c else s) := by
    split
    · exact s.rebuild_only hc
    · exact .refl s
  unfold State.allocN
  dsimp only
  generalize (if (s.pool c).rebuilding then s.rebuild c else s) = u at h0
  split
  · exact h0
  · split
    · have h1 := takeLoop_only (2 * n + 2) n w [] u hc
      split
      · exact h0.trans h1
      · exact (h0.trans h1).trans (.foldl (P := fun _ => True) _ (fun s h _ => s.giveBack_only h) _ (fun _ _ => trivial) _)
    · exact h0

theorem State.dropUse_only (s : State) (i : Nat) (hc : c < 8) : PoolsOnly s (s.dropUse c i) := by
  unfold State.dropUse
  dsimp only
  split
  · split
    · exact (PoolsOnly.setEntry s _ _ _).trans (.setEntry _ _ _ _)
    · exact (PoolsOnly.setEntry s _ _ _).trans (State.returnBuf_only _ _ hc)
  · exact .setEntry s _ _ _

/-- Freeing handles changes no more than the pools, the stack and attention. -/
theorem State.freeAll_only (s : State) (hs : List Nat) : PoolsOnly s (s.freeAll hs) := by
  refine .foldl (P := fun _ => True) _ (fun s h _ => ?_) hs (fun _ _ => trivial) s
  dsimp only
  split
  · split
    · exact s.dropUse_only _ (handleClass_lt h)
    · exact s.returnBuf_only _ (handleClass_lt h)
  · exact .refl s

theorem State.freeBuf_only (s : State) (h x : Nat) (pl : Bool) : PoolsOnly s (s.freeBuf h x pl).2 := by
  unfold State.freeBuf
  split
  · exact (PoolsOnly.setReg s _ (by decide)).trans (.errBit _ _ _ (by decide))
  · dsimp only
    split
    · exact s.dropUse_only _ (handleClass_lt h)
    · exact s.returnBuf_only _ (handleClass_lt h)

theorem State.setMark_only (s : State) (fh : Nat) (on : Bool) : PoolsOnly s (s.setMark fh on) := by
  unfold State.setMark
  split
  · exact .setPol s _
  · dsimp only
    refine (PoolsOnly.setPol s _).trans (.foldl (P := fun b => b.1 < 8) _ (fun s b hb => s.returnBuf_only b.2 hb) _ ?_ _)
    intro b hb
    unfold State.heldFrames at hb
    simp only [List.mem_flatMap, List.mem_range, List.mem_map] at hb
    obtain ⟨c, hc, e, _, rfl⟩ := hb
    show c < 8
    omega

/-- Releasing a context's buffers changes no more than the pools, the stack and attention. -/
theorem State.releaseCtx_only (s : State) (x : Nat) : PoolsOnly s (s.releaseCtx x) := by
  refine .foldl (P := fun c => c < 8) _ (fun s c hc => ?_) _ (fun c hc => ?_) s
  · refine .foldl (P := fun _ => True) _ (fun s e _ => ?_) _ (fun _ _ => trivial) s
    split
    · exact .setEntry s _ _ _
    · exact s.returnBuf_only _ hc
  · have := List.mem_range.mp hc
    omega

end Sys2Proof.Machine
end

