-- ==== Sys2Proof/Laws/Registers.lean ====
section
/-! SUPPORT. What the register map says of the context registers: CTX_CMD is 0 where nothing has been stored in it. -/

namespace Sys2Proof.Machine

/-- Every row with a reset value other than 0 lies outside the CTX block, but for the CTX_CFG array. -/
theorem regRows_reset : ∀ r ∈ regRows, r.reset = 0 ∨
    (if r.count = 1 then r.base + 1 else r.base + r.stride * r.count) ≤ 0x40000 ∨ 0x80000 ≤ r.base ∨
    (r.base = 0x40000 ∧ r.stride = 64 ∧ r.count = 4096) := by decide +kernel

/-- CTX_CMD of every context is 0 at reset. -/
theorem regReset_ctxCmd (x : Nat) (h : x < 4096) : regReset (aCtxCmd x) = 0 := by
  unfold regReset
  cases hr : regRow (aCtxCmd x) with
  | none => rfl
  | some r =>
    have hm := List.mem_of_find?_eq_some hr
    have hp := List.find?_some hr
    simp only [aCtxCmd, Bool.and_eq_true, decide_eq_true_eq, beq_iff_eq, Bool.or_eq_true] at hp
    obtain ⟨⟨hb, he⟩, hs⟩ := hp
    obtain h0 | h0 | h0 | ⟨h1, h2, h3⟩ := regRows_reset r hm
    · simp [h0]
    · split at h0 <;> simp_all <;> omega
    · have hb := of_decide_eq_true hb; omega
    · rw [h1, h2, h3] at hs; omega

/-- A table none of whose indices is k answers its default at k. -/
theorem tabGet_absent {α : Type} (d : α) (t : Tab α) (k : Nat) (h : ∀ e ∈ t, e.1 ≠ k) : tabGet d t k = d := by
  induction t with
  | nil => rfl
  | cons e t ih =>
    have h1 := h e (by simp)
    simp only [tabGet, beq_iff_eq, h1, if_false]
    exact ih (fun f hf => h f (by simp [hf]))

/-- Where no stored register lies in the CTX block, no context is held. -/
theorem loadedCtxs_nil (s : State) (h : ∀ e ∈ s.regs, e.1 < 0x40000 ∨ 0x80000 ≤ e.1) : s.loadedCtxs = [] := by
  unfold State.loadedCtxs
  rw [List.filter_eq_nil_iff]
  intro x hx
  have hx : x < 4096 := List.mem_range.mp hx
  have hn : s.reg (aCtxCmd x) = 0 := by
    unfold State.reg
    rw [tabGet_absent, regReset_ctxCmd x hx]
    intro e he
    have := h e he
    simp only [aCtxCmd]
    omega
  simp [State.ctxState, State.f, State.regN, hn, fld]

end Sys2Proof.Machine
end

