-- ==== Sys2Proof/WellFormed.lean ====
section
/-! DEFINITION. The commands whose operands lie in the ranges the spec gives them. The meanings do not rely on it: they
answer an operand outside its range as the spec says, or leave the state as it is. -/

namespace Sys2Proof

/-- A partition (R490). -/
def isPart (p : Nat) : Bool := decide (p < 64)
/-- A context (R493). -/
def isCtx (x : Nat) : Bool := decide (x < 4096)
/-- A dispatch lane (R144). -/
def isLane (n : Nat) : Bool := decide (n < 128)
/-- A Nalmal port (R364). -/
def isPort (n : Nat) : Bool := decide (n < 16)
/-- A Carousel slot (R193). -/
def isSlot (n : Nat) : Bool := decide (n < 32768)
/-- An island (R614). -/
def isIsland (i : Nat) : Bool := decide (i < 264)
/-- A collective group ID (R447). -/
def isGroup (g : Nat) : Bool := decide (g < 4096)
/-- An expert ID (R106). -/
def isExpert (e : Nat) : Bool := decide (e < 2048)

/-- A granule of the stack (R324). -/
def isGranule (n : Nat) : Bool := decide (n < 134217728)
/-- The granules of a list of reads. -/
def eccReadsOk (l : EccReads) : Bool := l.all (fun r => isGranule r.1)
/-- The findings on a row's lines: the accumulators that a line of 128 elements reads lie in at most 41 granules (R194). -/
def lineFaultsOk (l : LineFaults) : Bool :=
  l.all (fun f => match f.2 with
    | .acc k _ => decide (k < 41)
    | _ => true)
/-- A tile error names a granule or a cube group that exists. -/
def tileErrorOk : TileError → Bool
  | .stack n _ => isGranule n
  | .corrected g => decide (g < 32)
  | .rowUe g _ => decide (g < 32)
  | .panelUe g => decide (g < 32)
  | .tableUe => true

/-- OPCODE of a packet (R367). -/
def pktOpcode (p : Packet) : Nat := p.hdr.toNat / 2 ^ 5 % 2 ^ 6
/-- LEN of a packet (R367). -/
def pktLen (p : Packet) : Nat := p.hdr.toNat / 2 ^ 51 % 2 ^ 3
/-- ADDR of a packet (R367). -/
def pktAddr (p : Packet) : Nat := p.hdr.toNat / 2 ^ 58 % 2 ^ 48

/-- A packet of an opcode arrives at a port, with the lines of payload that its header announces (R367, R368). -/
def arrives (op port : Nat) (p : Packet) : Bool :=
  isPort port && pktOpcode p == op && p.data.length == 128 * pktLen p

/-- The operands of a command lie in their ranges. -/
def Instr.wellFormed (i : Instr) : Bool :=
  match i with
  | .registerWrite _ _ _ => true
  | .arrivalCounterWrite c _ => decide (c < 65536)
  | .dbRing p _ => isPart p
  | .db1Ring p _ _ => isPart p
  | .dbAbort p _ => isPart p
  | .stepAdmit p => isPart p
  | .stepStart x => isCtx x
  | .layerGroupStart x => isCtx x
  | .layerGroupDone x => isCtx x
  | .opScoreBackward x _ => isCtx x
  | .opAwait x => isCtx x
  | .awaitMet x => isCtx x
  | .opExit x => isCtx x
  | .opReduce x => isCtx x
  | .opFetch x => isCtx x
  | .opCopy x => isCtx x
  | .opMark x => isCtx x
  | .opFence x => isCtx x
  | .fenceDone x => isCtx x
  | .opLoop x => isCtx x
  | .stepComplete x => isCtx x
  | .scoreTileStart p _ errors => isPart p && errors.all tileErrorOk
  | .scoreTileDone x _ => isCtx x
  | .selectTile x _ => isCtx x
  | .admissionRound x => isCtx x
  | .selectionClose x => isCtx x
  | .exitCount x index => isCtx x && decide (index < 4194304)
  | .slotBind x slot => isCtx x && isSlot slot
  | .tokenPacketWrite lane => isLane lane
  | .closePacketWrite lane x => isLane lane && isCtx x
  | .dqCountUpdate lane => isLane lane
  | .packetTake lane _ => isLane lane
  | .laneDrop lane _ => isLane lane
  | .lcmdUndefined lane cmd => isLane lane && decide (cmd < 16)
  | .store lane _ data _ faults _ => isLane lane && decide (data.length % 128 == 0) && lineFaultsOk faults
  | .withdraw lane _ _ _ => isLane lane
  | .fault lane _ _ _ => isLane lane
  | .mixTermEnter slot faults => isSlot slot && lineFaultsOk faults
  | .tokenRelease slot => isSlot slot
  | .tokenCount slot => isSlot slot
  | .stepStall x => isCtx x
  | .peakRst => true
  | .shadowBatchForm x e => isCtx x && isExpert e
  | .shadowWaitExpire x e => isCtx x && isExpert e
  | .shadowBatchRun p => isPart p
  | .shadowBatchDone p cubes reads faults => isPart p && decide (cubes < 512) && eccReadsOk reads && faults.all lineFaultsOk
  | .codecStatusWord _ => true
  | .codecSilence stream => decide (stream < 4096)
  | .deadlineEval => true
  | .programLoad _ => true
  | .programLoadDone => true
  | .refresh bank => decide (bank < 512)
  | .tempSample layers _ => layers.length == 4
  | .bandCool => true
  | .scrubRead granule _ copies => isGranule granule && copies.all (fun c => decide (c < 3))
  | .rowRepair bank row => decide (bank < 512) && decide (row < 512)
  | .poolAlloc cls x p kind => decide (cls < 6) && isCtx x && isPart p && decide (kind < 5)
  | .freeListRebuildDone cls => decide (cls < 6)
  | .inflightAllocRetry cls => decide (cls < 6)
  | .polOpAlloc _ reads => eccReadsOk reads
  | .polOpFree _ reads => eccReadsOk reads
  | .polOpQrel _ _ => true
  | .linkUp port gen => isPort port && decide (1 ≤ gen) && decide (gen ≤ 3)
  | .linkDown port => isPort port
  | .linkRetry port _ => isPort port
  | .portRemap => true
  | .portOosReq port => isPort port
  | .portRtsReq port => isPort port
  | .msRequest x pkt => isCtx x && decide (pkt.data.length % 128 == 0)
  | .rd port pkt => arrives 0x1 port pkt
  | .wr port pkt => arrives 0x2 port pkt
  | .wrm port pkt => arrives 0x3 port pkt
  | .add32 port pkt => arrives 0x8 port pkt
  | .add64 port pkt => arrives 0x9 port pkt
  | .fadd32 port pkt => arrives 0xA port pkt
  | .fadd64 port pkt => arrives 0xB port pkt
  | .swap32 port pkt => arrives 0xC port pkt
  | .swap64 port pkt => arrives 0xD port pkt
  | .cas64 port pkt => arrives 0xE port pkt
  | .xadd80 port pkt => arrives 0xF port pkt
  | .xadd128 port pkt => arrives 0x10 port pkt
  | .cpy port pkt => arrives 0x18 port pkt
  | .cpyrd port pkt => arrives 0x19 port pkt
  | .dataReply port pkt => arrives 0x20 port pkt
  | .ackReply port pkt => arrives 0x21 port pkt
  | .requestTimeout tag => decide (tag < 131072)
  | .tagFreeExpire tag => decide (tag < 131072)
  | .msfCpy _ => true
  | .copyEnd cid => decide (cid < 16384)
  | .own port pkt => arrives 0x3E port pkt
  | .ownApply => true
  | .fmTeardown port pkt => arrives 0x3C port pkt
  | .rhdr port pkt => arrives 0x28 port pkt
  | .rrow port pkt => arrives 0x29 port pkt
  | .rclose port pkt => arrives 0x2A port pkt
  | .rstore port pkt faults => arrives 0x2C port pkt && lineFaultsOk faults
  | .rwdraw port pkt => arrives 0x2D port pkt
  | .colGrpCreate _ => true
  | .colGrpDelete _ => true
  | .cjoin port pkt => arrives 0x32 port pkt
  | .ccred port pkt => arrives 0x34 port pkt
  | .colSubmit _ => true
  | .collectiveStart g => isGroup g
  | .cdata port pkt => arrives 0x30 port pkt
  | .cres port pkt => arrives 0x31 port pkt
  | .cfail port pkt => arrives 0x33 port pkt
  | .collectiveTrigger g _ => isGroup g
  | .collectiveTimeout g => isGroup g
  | .collectiveEnd g => isGroup g
  | .collectiveCount g => isGroup g
  | .ctxLoad x => isCtx x
  | .ctxLoadDone x => isCtx x
  | .ctxPark x => isCtx x
  | .parkBoundary x => isCtx x
  | .parkCwaitExpire x => isCtx x
  | .parkSaveDone x _ => isCtx x
  | .ctxUnpark x => isCtx x
  | .unparkDone x _ slots => isCtx x && slots.all isSlot
  | .ctxUnload x => isCtx x
  | .ctxTeardown x => isCtx x
  | .teardownDone x => isCtx x
  | .ctxCfgWrite x _ => isCtx x
  | .parWrite p reg _ => isPart p && decide (reg < 11)
  | .accountingWindow x _ _ => isCtx x
  | .lockstepCfgWrite i _ => decide (i < 16)
  | .lscmpDigests port pkt => arrives 0x3B port pkt
  | .lscmpArray port pkt => arrives 0x3B port pkt
  | .lscmpFreeze port pkt => arrives 0x3B port pkt
  | .lockstepTimeout i => decide (i < 16)
  | .wayRingWrite _ => true
  | .wayRptrWrite _ => true
  | .waymarkRingWrite => true
  | .flashLogWrite => true
  | .twnAttach _ => true
  | .attreqRetry => true
  | .attreq port pkt => arrives 0x39 port pkt && pktAddr pkt % 16 == 1
  | .attack port pkt => arrives 0x39 port pkt && pktAddr pkt % 16 == 2
  | .attnak port pkt => arrives 0x39 port pkt && pktAddr pkt % 16 == 8
  | .twnDetach _ => true
  | .detach port pkt => arrives 0x39 port pkt && pktAddr pkt % 16 == 3
  | .begin port pkt => arrives 0x39 port pkt && pktAddr pkt % 16 == 4
  | .tmir port pkt => arrives 0x38 port pkt
  | .endDelta port pkt => arrives 0x39 port pkt && pktAddr pkt % 16 == 5
  | .ack port pkt => arrives 0x39 port pkt && pktAddr pkt % 16 == 6
  | .nak port pkt => arrives 0x39 port pkt && pktAddr pkt % 16 == 7
  | .heartbeatSlot => true
  | .thb port pkt => arrives 0x3A port pkt
  | .heartbeatMiss => true
  | .suspectResend => true
  | .confirm port pkt => arrives 0x3C port pkt && pktAddr pkt % 256 == 0x12
  | .deny port pkt => arrives 0x3C port pkt && pktAddr pkt % 256 == 0x13
  | .fenced port pkt => arrives 0x3C port pkt && pktAddr pkt % 256 == 0x14
  | .lost port pkt => arrives 0x3C port pkt && pktAddr pkt % 256 == 0x15
  | .assumed port pkt => arrives 0x3C port pkt && pktAddr pkt % 256 == 0x16
  | .twnCkpt _ => true
  | .twnAdopt _ => true
  | .mclr => true
  | .tsync _ _ _ _ => true
  | .tsyncTimeout => true
  | .twinDiscoveryExpire => true
  | .islandTakeOut i => isIsland i
  | .islandTestReturn i => isIsland i
  | .islandTestStart => true
  | .islandTestDone i _ => isIsland i
  | .hostWriteRefused x => isCtx x
  | .pllUnlock => true
  | .droopDetect i => isIsland i
  | .droopRecover i => isIsland i
  | .islandClockGate i => isIsland i
  | .powerStateRequest r => decide (r < 1024)
  | .powerStateReached => true
  | .powerCapWindow _ => true
  | .resetAssert => true
  | .startUp env => env.links.length == 16 && env.badRows.all (fun (r : Nat × Nat) => decide (r.1 < 512) && decide (r.2 < 512)) &&
      env.margins.all (fun (m : Nat × Nat × Nat) => decide (m.1 < 65536)) && env.vacant.all (fun v => decide (v < 128))
  | .restart => true
  | .updOpen => true
  | .updWrite _ => true
  | .updCommit _ => true
  | .updAbort => true
  | .updateSessionTimeout => true
  | .cfgApply _ => true
  | .cfgApplyPartition => true
  | .cfgApplyTimeout => true
  | .cfgRd _ => true
  | .nonceDraw => true
  | .debugUnlock _ => true
  | .revoke _ => true
  | .arbCommit _ => true
  | .programSlot _ _ => true
  | .relock => true
  | .atnAck _ => true
  | .atnEseqRead => true
  | .entdaa addr _ => decide (addr < 128)
  | .setdasa addr _ => decide (addr < 128)
  | .setnewda addr => decide (addr < 128)
  | .rstdaa => true
  | .getpid => true
  | .getbcr => true
  | .getdcr => true
  | .getstatus => true
  | .getmrl => true
  | .getmwl => true
  | .rdreg addr => decide (addr < 0x1000000)
  | .wrreg addr _ => decide (addr < 0x1000000)
  | .telem => true
  | .logrd _ len => decide (len ≤ 4096)
  | .i3cUpdOpen => true
  | .i3cUpdWrite _ page _ => page.length == 256
  | .updHdr piece data => decide (piece < 16) && data.length == 256
  | .i3cUpdCommit _ => true
  | .i3cUpdAbort => true
  | .i3cReadReply => true
  | .slice _ _ => true
  | .mark _ => true
  | .unmark _ => true
  | .laneOosReq lane => isLane lane
  | .laneLeaveService lane => isLane lane
  | .laneRtsReq lane => isLane lane
  | .laneEnterService lane => isLane lane
  | .laneAbort lane => isLane lane
  | .laneIslandFault lane => isLane lane
  | .lanCtWrite lane _ => isLane lane
  | .lanWmWrite lane _ _ => isLane lane
  | .lanBackWrite lane _ => isLane lane
  | .bypass tdi => decide (tdi < 2)
  | .idcode => true
  | .secchal block => block.isEmpty || block.length == 320
  | .samplePreload _ _ => true
  | .extest _ _ => true
  | .wsel i => decide (i < 512)
  | .wir _ => true
  | .wdr _ => true
  | .linkDeliveryReport port _ => isPort port

end Sys2Proof
end

