-- ==== Sys2Proof/Tests/Slice0.lean ====
section
/-! SUPPORT. Own tests on small states: what WellFormed refuses, what a state and operands meet that satisfy the hypotheses of
each obligation (`wit_…`, one line a clause, at the ends of its ranges), and what single commands answer (`test_…`),
with results taken from the rules of the spec. -/

namespace Sys2Proof.Machine

set_option Elab.async false

/-! ## Helpers -/

/-- The state a command answers. -/
def State.after (s : State) (c : Instr) : State :=
  match exec c s with
  | .next t => t
  | _ => s

/-- An engine that has published READY and runs. -/
def up : State :=
  let s := { State.reset with pwr := { State.reset.pwr with inReset := false } }
  (s.setF aPwrState 3 0 15).setF aPwrBoot 4 0 0x19

/-- Context 3, ACTIVE, of partition p, a profile, and program 1. -/
def up3 (p profile : Nat) : State :=
  (up.setReg (aCtxCfg 3) (word (profile + p <<< 2 + 1 <<< 8 + 1 <<< 32))).setF (aCtxCmd 3) 2 0 2

/-- A packet on a port of generation 3. -/
def pk (vc op src dst ctx addr tag : Nat) (data : Bytes) : Packet :=
  ⟨BitVec.ofNat 128 (withFld (nalHdr vc op src dst ctx (data.length / 128) 0 0 addr tag 0).toNat 1 0 3), data⟩

/-- Port 0 is up with generation 3 and carries everything. -/
def State.linked (s : State) : State := { s.setReg (aFabState 0) 14 with fab := { s.fab with map := [0] } }

/-- n bytes of value v. -/
def bs (n : Nat) (v : Byte) : Bytes := List.replicate n v

/-- A program of some ops and a parameter area. -/
def progOf (ops : List RouteOp) (params : Bytes) : Program :=
  { ver := 1, place := 0, crc := 5, profiles := 7, nlayer := 1, d := 64, nlane := 1, stgTok := 0, ops := ops, params := params }

/-- An op with an op-specific word. -/
def opWith (code param : Nat) (spec : Word) : RouteOp := { (default : RouteOp) with opcode := code, param := param, spec := spec }

/-- A descriptor of context 3, STEP 9. -/
def desc3 : Desc := { (default : Desc) with ctx := 3, prog := 1, step := 9, compAddr := 0x4000, bases := List.replicate 7 0 }

/-- A step of context 3 in a phase. -/
def step3 (p : Nat) (ph : StepPhase) (q : Program) : Step := { newStep p desc3 q with phase := ph }

/-- A state that lists some steps. -/
def State.withSteps (s : State) (l : List Step) : State := { s with rgm := { s.rgm with steps := l } }

/-- A state that stores a program as ID 1. -/
def State.withProg (s : State) (q : Program) : State := { s with rgm := { s.rgm with store := [(1, [q])] } }

/-- Pool c has three buffers, the lowest two on its list, and context 3 and partition 0 may hold many. -/
def pooled (c : Nat) : State :=
  let s := (((up3 0 0).setF (aPolExt c) 52 32 3).setF (aParCeil0 0 + 8 * c) 20 0 9).setF (if c < 3 then aCtxQuotaA 3 else aCtxQuotaB 3) (20 + 21 * (c % 3)) (21 * (c % 3)) 9
  (s.push c 1).push c 0

/-! ## The queue, reset and the register port -/

theorem wit_StepRunsTheFrontCommand : ({ up with pending := [.restart, .relock] } : State).pending = .restart :: [.relock] := rfl

theorem wit_EmptyQueuePassesTclkCycles :
    State.reset.pending = [] ∧ State.reset.pwr.inReset = true ∧ up.pending = [] ∧ up.pwr.inReset = false ∧ up.tbPend = 0 := by
  decide +kernel

theorem test_tick_slews :
    ({ up with tclk := 499, tbPend := 3 } : State).tick.tb = 11 ∧ ({ up with tclk := 499, tbPend := -3 } : State).tick.tbPend = -2 ∧
    ({ up with tclk := 498, tbPend := 3 } : State).tick.tb = 10 := by decide +kernel

theorem wit_CommandsLeaveTheQueue : exec .relock up = .next (up.after .relock) := rfl

theorem wit_EveryStepKeepsMemoriesCanonical : up.memWf = true ∧ step up = .next up.tick := ⟨by decide, rfl⟩

theorem wit_EveryStepKeepsTheFuses :
    let s := { up with cfg := { up.cfg with fuses := ⟨7, 8, true, true, true, true, 65535⟩ } }
    step s = .next s.tick ∧ s.cfg.fuses.prog0 = true ∧ s.cfg.fuses.prog1 = true ∧ s.cfg.fuses.revoked0 = true ∧
    s.cfg.fuses.revoked1 = true := ⟨rfl, rfl, rfl, rfl, rfl⟩

theorem wit_UnoccupiedAddressesRefuseWrites :
    up.dark = false ∧ regRow (aliasTarget 0xFFFFF8) = none ∧ regRow (aliasTarget 0x30) = none ∧
    (∃ r, regRow (aliasTarget aGlbId) = some r ∧ r.rw + r.w1c + r.act = 0) := by
  refine ⟨by decide, by decide, by decide, ⟨_, rfl, by decide⟩⟩

theorem test_port_refuses :
    (up.after (.registerWrite 0xFFFFF8 8 1)).outcome = 2 ∧ (up.after (.registerWrite aGlbScratch 4 1)).outcome = 2 ∧
    (up.after (.registerWrite 0x1000000 8 1)).outcome = 2 ∧ (up.after (.registerWrite aGlbScratch 8 7)).reg aGlbScratch = 7 := by
  decide +kernel

/-- The hypotheses of PlainRegistersTakeWrites at a register and value. -/
def plainAt (s : State) (a : Nat) (v : Word) : Bool :=
  match regRow a with
  | some r =>
    let new := mergeMask (s.reg a) v r.rw &&& ~~~(v &&& word r.w1c)
    s.dark == false && decide (a < 0xF00000) && s.portRefuses a 8 a == false && r.rw + r.w1c != 0 &&
      (s.earlyWrite a v).isNone && (s.arrayWrite a v false).isNone && (s.unitWrite a v).isNone &&
      s.lowBad a new.toNat == false && s.highBad a new.toNat == false
  | none => false

theorem wit_PlainRegistersTakeWrites :
    plainAt up aGlbScratch 0xFFFFFFFFFFFFFFFF = true ∧ plainAt up aStkErr 7 = true ∧ plainAt up (aDlmThr 63) 0 = true := by
  decide +kernel

theorem wit_OperationRegistersRunTheirRow :
    up.dark = false ∧ [aRgmPloadCtrl, aMsfCpy, aColSubmit, aTwnCkpt, aTwnAdopt, aWayRing, aWayRptr, aCfgApply, aCfgRd, aAtnAck,
      aDbRing 0, aDbRing 63, aDbAbort 0, aDbAbort 63, aDb1Ring 1, aDb1Ring 63, aParLaneLo 0, aParLaneLo 63 + 80, aCtxCfg 0,
      aCtxCfg 4095, aCtxCmd 0, aCtxCmd 4095, aLanCt 0, aLanCt 127, aLanDqWm 127, aLanRqWm 127, aLanBack 127, aWayLsCfg 0,
      aWayLsCfg 15].all (fun a => up.portRefuses a 8 a == false) = true := by decide +kernel

theorem wit_AliasWritesActOnTheirTargets :
    regRow (aliasTarget 0xF00100) ≠ none ∧ regRow (aliasTarget 0xF002F8) ≠ none ∧ regRow (aliasTarget 0xF01000) ≠ none ∧
    regRow (aliasTarget 0xF08FF8) ≠ none ∧ up.dark = false ∧ up.portShut = false := by decide +kernel

theorem wit_ArrivalCountersTakeWrites : up.portShut = false ∧ up.dark = false ∧
    (up.after (.arrivalCounterWrite 65535 7)).reg (aCtr 65535) = 7 := by decide +kernel

/-! ## Doorbells, programs and steps -/

/-- A v2 descriptor of context 3, program 1, STEP 9, with COMP_ADDR 0x4000. -/
def descBytes2 : Bytes :=
  natLe 8 (2 + 3 <<< 16 + 1 <<< 32) ++ natLe 8 9 ++ bs 32 0 ++ natLe 8 0x4000 ++ bs 72 0

/-- The v1 descriptor of the same step. -/
def descBytes1 : Bytes := natLe 8 (1 + 3 <<< 8 + 1 <<< 20 + 9 <<< 32) ++ bs 16 0 ++ natLe 8 0x4000 ++ bs 32 0

/-- An op that waits for nothing. -/
def markProg : Program := progOf [opWith opMark 0 0] []

/-- Partition p can take a doorbell of a descriptor at 0x1000. -/
def belled (p : Nat) (d : Bytes) : State := ((up3 p 0).withProg markProg).hbmWrite 0x1000 d

/-- The hypotheses of DoorbellsQueueSteps about a state, a partition and a decoded descriptor. -/
def bellOk (s : State) (p : Nat) (d : Desc) : Bool :=
  decide (p < 64) && s.tenantShut == false && s.dark == false &&
    decide ((s.rgm.steps.filter (fun t => t.part == p)).length < 16) && s.newest d.prog == some markProg &&
    markProg.addrsOk d.bases && s.ctxPart d.ctx == p && !([0, 6, 7].contains (s.ctxState d.ctx)) &&
    markProg.allows (s.profile d.ctx) && d.prog == s.f (aCtxCfg d.ctx) 15 8 && (s.stepOf d.ctx d.step).isNone

theorem wit_DoorbellsQueueSteps_v2 :
    let s := belled 31 descBytes2
    let r := descV2 0x1000 (s.hbmRead 0x1000 128)
    bellOk s 31 r.1 = true ∧ r.2 = true ∧ s.hbmPoisoned 0x1000 128 = false := by decide +kernel

theorem wit_DoorbellsQueueSteps_v2_shared :
    let s := belled 63 descBytes2
    let r := descV2 0x1000 (s.hbmRead 0x1000 128)
    bellOk s 63 r.1 = true ∧ r.2 = true ∧ s.hbmNat 0x1000 1 = 2 := by decide +kernel

theorem wit_DoorbellsQueueSteps_v1 :
    let s := belled 63 descBytes1
    let r := descV1 0x1000 (s.hbmRead 0x1000 64)
    bellOk s 63 r.1 = true ∧ r.2 = true ∧ s.hbmPoisoned 0x1000 64 = false := by decide +kernel

theorem wit_DoorbellsQueueSteps_v1_shared :
    let s := belled 0 descBytes1
    let r := descV1 0x1000 (s.hbmRead 0x1000 64)
    bellOk s 0 r.1 = true ∧ r.2 = true ∧ s.hbmNat 0x1000 1 = 1 := by decide +kernel

theorem test_doorbell_queues : ((belled 31 descBytes2).after (.dbRing 31 0x1000)).rgm.steps.map (·.desc.step) = [9] := by decide +kernel

theorem wit_DoorbellRefusals :
    up.tenantShut = false ∧ up.dark = false ∧
    ((up.withSteps (List.replicate 16 (step3 31 .queued markProg))).rgm.steps.filter (fun t => t.part == 31)).length = 16 ∧
    (descV2 0x1000 (up.hbmRead 0x1000 128)).2 = false ∧ ({ up with hbmPoison := [32] } : State).hbmPoisoned 0x1000 128 = true := by
  decide +kernel

theorem test_doorbell_refused : (up.after (.dbRing 31 0x1000)).f (aDbStat 31) 15 8 = 0x11 ∧
    (up.after (.dbRing 31 0x1000)).outcome = 2 := by decide +kernel

theorem wit_AbortDoorbellEndsTheStep :
    let s := (up3 0 0).withSteps [step3 0 .running markProg, { step3 0 .queued markProg with desc := { desc3 with step := 10 } }]
    (s.rgm.steps.map (fun u => (u.desc.ctx, u.desc.step))).Nodup ∧ s.tenantShut = false ∧ s.dark = false ∧
    (s.after (.dbAbort 0 3)).rgm.steps.map (·.abort) = [0x30, 0x24] := by decide +kernel

/-- A one-op program image, MARK alone, of layer count 1 and D 64, with its CRC. -/
def markImage : Bytes :=
  let h := natLe 4 0x4D525053 ++ [1, 0, 3, 7] ++ natLe 2 1 ++ natLe 2 1 ++ natLe 2 64 ++ natLe 2 1 ++ bs 48 0
  let img := h ++ natLe 8 12 ++ bs 8 0
  putBytes img 0x3C (natLe 4 (crcN img))

/-- A load of an image at 0x1000 runs, with a frame of 640 bytes a slot. -/
def loading (img : Bytes) : State :=
  let s := ((up.hbmWrite 0x1000 img).setReg aRgmPloadAddr 0x1000).setF aRgmPloadCtrl 9 0 0x301
  { s with stack := { s.stack with frame := 640 } }

theorem wit_ProgramLoadsStoreTheImage :
    up.portShut = false ∧ up.flag aRgmPloadCtrl 9 = false ∧ (loading markImage).flag aRgmPloadCtrl 9 = true ∧
    (loading markImage).flag aSecStat 4 = false ∧ (loading markImage).hbmPoisoned 0x1000 80 = false := by decide +kernel

set_option maxRecDepth 100000 in
theorem test_program_loads :
    ((loading markImage).after .programLoadDone).f aRgmPloadCtrl 11 8 = 0 ∧
    ((loading markImage).after .programLoadDone).rgm.store.map (·.1) = [1] ∧
    ((loading (putBytes markImage 8 [2])).after .programLoadDone).f aRgmPloadCtrl 11 8 = 8 ∧
    (({ loading markImage with hbmPoison := [32] }).after .programLoadDone).f aRgmPloadCtrl 31 16 = 0xFFFF := by decide +kernel

/-- Partition 0 owns lane 0, cube group 0 and slots 0 to 63, on a stack whose frames are 640 bytes. -/
def staffed (s : State) : State :=
  let s := ((s.setReg (aParLaneLo 0) 1).setReg (aParGroup 0) 1).setReg (aParSlot 0) (word (64 <<< 16))
  let s := (s.setF (aLanCtrl 0) 1 0 0).setF (aCtxSavelen 3) 23 0 0xFFFFFF
  { s with stack := { s.stack with frame := 640, carousel := (0, 40960) } }

theorem wit_TurnstileAdmitsTheOldestStep :
    let s := staffed (((up3 0 0).withProg markProg).withSteps [step3 0 .queued markProg])
    let s := s.setCtx 3 { s.ctx 3 with weightsOf := some 1 }
    let t := step3 0 .queued markProg
    let b := s.lanesAtBoundary 0
    s.rgm.steps.find? (fun u => u.part == 0 && !u.wasAdmitted) = some t ∧ t.phase = .queued ∧ s.eligible t = true ∧
    s.newest t.desc.prog = some markProg ∧ (b.ctx 3).weightsOf = some markProg.ver ∧
    (match b.admission t markProg with
      | .enter plan _ _ grow tr => ((b.yielded 3 markProg plan).takeTable 3 tr).any (fun v =>
          (v.allocN classFive (total grow) (chargeOf 3 0) 0).1.isSome)
      | _ => false) = true ∧ b.ring.recs = [] ∧ b.ring.rows = [] ∧ b.ring.closes = [] ∧ b.stepOf 3 9 = some t ∧
    (s.after (.stepAdmit 0)).rgm.steps.map (·.phase) = [.admitted] := by decide +kernel

theorem wit_TurnstileAdmitsTheOldestStep_waits :
    let t := step3 0 .queued markProg
    let other := { step3 0 .running markProg with desc := { desc3 with ctx := 4 }, slotRes := 65, lanes := [0] }
    let s := staffed (((up3 0 0).withProg markProg).withSteps [other, t])
    let v := staffed ((up3 0 0).withSteps [t])
    s.rgm.steps.find? (fun u => u.part == 0 && !u.wasAdmitted) = some t ∧ s.eligible t = true ∧
    (s.lanesAtBoundary 0).admission t markProg = .wait ∧ v.eligible t = true ∧ v.newest t.desc.prog = none ∧
    (v.after (.stepAdmit 0)).f (aDbStat 0) 15 8 = 0x13 := by decide +kernel

theorem wit_TurnstileAdmitsTheOldestStep_refusal :
    let s := (((up3 0 0).withProg markProg).withSteps [step3 0 .queued markProg])
    let t := step3 0 .queued markProg
    let v := s.setReg (aCtxSavelen 3) 0xFFFFFF
    s.eligible t = true ∧ (s.lanesAtBoundary 0).admission t markProg = .refuse 0x21 none ∧
    (s.after (.stepAdmit 0)).f (aDbStat 0) 15 8 = 0x21 ∧ v.eligible t = true ∧
    (v.lanesAtBoundary 0).admission t markProg = .refuse 0x22 (some cLaneNone) ∧
    (v.after (.stepAdmit 0)).f (aDbStat 0) 15 8 = 0x22 := by decide +kernel

theorem wit_AdmittedStepsStart :
    let s := (up3 0 0).withSteps [step3 0 .admitted markProg]
    s.rgm.steps.find? (fun t => t.desc.ctx == 3 && t.phase == .admitted) = some (step3 0 .admitted markProg) ∧
    s.running 3 = none ∧ s.ctxState 3 = 2 ∧ s.halted = false ∧
    (s.after (.stepStart 3)).rgm.steps.map (·.phase) = [.running] := by decide +kernel

/-- A running step of context 3 at op 0 of a program. -/
def at0 (q : Program) : State := (up3 0 0).withSteps [step3 0 .running q]

theorem wit_WaitingOpsAreIssued :
    ((at0 (progOf [opWith opAwait 0 1] [])).runner 3).isSome = true ∧ ((at0 (progOf [opWith opFence 0 0] [])).runner 3).isSome = true ∧
    (step3 0 .running markProg).waiting = false ∧ (step3 0 .running markProg).group = none := by decide +kernel

theorem wit_MetWaitsFinishTheOp :
    let q := progOf [opWith opAwait 0 (word (3 + 7 <<< 16 + 2 <<< 32))] []
    let t := { step3 0 .running q with waiting := true }
    let s := ((up3 0 0).withSteps [t]).setReg (aCtr 7) 2
    s.runner 3 = some t ∧ s.awaitHolds t (opWith opAwait 0 (word (3 + 7 <<< 16 + 2 <<< 32))) = true ∧
    (s.after (.awaitMet 3)).reg (aCtr 7) = 0 ∧ (s.after (.awaitMet 3)).rgm.steps.map (·.phase) = [.draining] ∧
    (({ step3 0 .running (progOf [opWith opFence 0 0] []) with waiting := true } : Step).asyncs) = [] := by decide +kernel

theorem wit_SynchronousOpsFinishAtOnce :
    let e : RouteOp := opWith opExit 1 0
    ((at0 (progOf [e] (bs 32 0))).runner 3).isSome = true ∧ ((at0 markProg).runner 3).isSome = true ∧
    ((at0 (progOf [opWith opLoop 0 (word (2 <<< 16))] [])).runner 3).isSome = true := by decide +kernel

theorem test_exit_writes_levels :
    let q := progOf [opWith opExit 1 0] (bs 16 0 ++ natLe 8 0x8000 ++ bs 8 0)
    let t := { step3 0 .running q with seqs := [(4, ⟨3, 5, 2, 0xFFFF, 1, 1, 2⟩)], exited := [(6, 1)] }
    ((up3 0 0).withSteps [t]).after (.opExit 3) |>.hbmRead 0x8005 2 = [0xFF, 1] := by decide +kernel

/-- A window of context 3 over this chip's first MiB, every permission, at the window base 0x10000. -/
def windowed (s : State) : State :=
  (s.setReg aMsfWinBase 0x10000).hbmWrite (0x10000 + 3 * 0x200) (natLe 8 (1 <<< 63) ++ natLe 8 0x100000 ++ natLe 8 0x1F ++ bs 8 0)

/-- A copy descriptor: a push of 128 bytes from 0x2000 to slot 1. -/
def copyBytes : Bytes := natLe 8 (1 <<< 16) ++ natLe 8 0x2000 ++ natLe 8 0x3000 ++ natLe 8 128 ++ bs 32 0

theorem wit_CopyAndReduceOpsGoOn :
    let q := progOf [opWith opCopy 0 0] copyBytes
    let s := windowed ((pooled 3).linked.withSteps [step3 0 .running q])
    let c := copyOf copyBytes 3 (some 9) (List.replicate 7 0) 0 false
    let f := copyOf (putBytes copyBytes 0 [1]) 3 (some 9) (List.replicate 7 0) 0 true
    let none_ := { s with fab := { s.fab with map := [] } }
    (s.runner 3).isSome = true ∧ s.fab.copies.length < 16384 ∧ s.copyCheck c = none ∧
    s.pickPort 0 (s.srcOf 3) c.peer 6 = some 0 ∧ s.copyCheck f = none ∧
    ((s.copyNote c).allocN 3 1 { ctx := 3, part := 0, partOnly := true } 4).1.isSome = true ∧
    ((s.copyNote f).allocN 3 1 { ctx := 3, part := 0, partOnly := true } 4).1.isSome = true ∧
    (s.after (.opCopy 3)).fab.copies.map (·.1) = [0] ∧ (s.after (.opCopy 3)).rgm.steps.map (·.asyncs) = [[.copy 0]] ∧
    none_.pickPort 0 (none_.srcOf 3) c.peer 6 = none ∧ (none_.after (.opCopy 3)).fab.copyEnd = (3, 2) ∧
    ((up3 0 0).withSteps [step3 0 .running q]).copyCheck c ≠ none := by decide +kernel

/-- A submission block of a reduction of 32 elements at 0x2000 on group 0. -/
def reduceBytes : Bytes := natLe 8 (1 <<< 32) ++ natLe 8 0x2000 ++ natLe 8 0x3000 ++ natLe 8 32 ++ bs 32 0

/-- Collective group 0 of context 3 has two members. -/
def State.grouped (s : State) : State :=
  { s with col := { s.col with groups := [(0, { (default : ColGroup) with ctx := 3, members := [0, 1], ready := true, seq := 6 })] } }

theorem wit_CopyAndReduceOpsGoOn_reduce :
    let q := progOf [opWith opReduce 0 0] reduceBytes
    let s := (windowed ((up3 0 0).withSteps [step3 0 .running q])).grouped
    (s.runner 3).isSome = true ∧ (s.colRequest reduceBytes 3 (some 9) (List.replicate 7 0) 0).isLeft = true ∧
    (s.after (.opReduce 3)).rgm.steps.map (·.asyncs) = [[.coll 0 6]] ∧
    (((up3 0 0).withSteps [step3 0 .running q]).colRequest reduceBytes 3 (some 9) (List.replicate 7 0) 0).isRight = true ∧
    (((up3 0 0).withSteps [step3 0 .running q]).after (.opReduce 3)).rgm.steps.map (·.abort) = [0x33] := by decide +kernel

/-- The five ops of a layer group. -/
def layerProg : Program :=
  progOf [opWith opScore 0 0, opWith opSelect 0 0, opWith opSort 0 0, opWith opDispatch 0 0, opWith opCombine 0 0] (bs 256 0)

theorem wit_LayerGroupsOpenAndClose :
    let t := step3 0 .running layerProg
    let s := (up3 0 0).withSteps [t]
    let g : Group := { (default : Group) with closed := true, tally := [4, 3, 2, 1] }
    let h : Group := { g with enter := [0], toks := [{ (default : TokRec) with counted := true }] }
    let u := { t with group := some g }
    let v := (up3 0 0).withSteps [u]
    let away := { t with place := some { epoch := 7, down := 0, members := [0], layers := [{ mode := 2, fctr := 5, fcount := 1, experts := [] }] } }
    s.running 3 = some t ∧ groupScore layerProg.ops 0 = some 0 ∧ t.group = none ∧ s.borrowReady t 0 = true ∧
    s.borrowReady away 0 = false ∧ g.toks.length = g.enter.length ∧ h.toks.length = h.enter.length ∧
    h.toks.all (·.counted) = true ∧ v.running 3 = some u ∧
    (v.after (.layerGroupDone 3)).rgm.steps.map (fun u => (u.sums.choices, u.sums.moved, u.layersDone, u.op)) = [(4, 1, 1, 5)] := by
  decide +kernel

theorem wit_StepsComplete :
    let t := step3 0 .draining markProg
    let u := { t with record := bs 128 1, abort := 0x24 }
    let s := (up3 0 0).withSteps [t]
    let v := (up3 0 0).withSteps [u]
    s.rgm.steps.find? (fun t => t.desc.ctx == 3 && t.phase == .draining) = some t ∧ s.halted = false ∧ t.asyncs = [] ∧ t.tails = [] ∧
    s.mirrors = false ∧ u.record ≠ [] ∧ v.owes u = false ∧ v.mayComplete u = true ∧
    (v.after (.stepComplete 3)).rgm.steps = [] := by decide +kernel


/-! ## The fabric -/

theorem wit_NalmalHeadersReadBack :
    let p : Packet := ⟨nalHdr 7 63 16383 1 4095 4 1 1 (2 ^ 48 - 1) 131071 15, []⟩
    pVc p = 7 ∧ pOp p = 63 ∧ pSrc p = 16383 ∧ pDst p = 1 ∧ pCtx p = 4095 ∧ pLen p = 4 ∧ pAddr p = 2 ^ 48 - 1 ∧
    pTag p = 131071 ∧ pStat p = 15 := by decide +kernel

/-- A linked engine hears a packet on port 0, for its own slot and identity, and may send. -/
def target (pkt : Packet) : Bool :=
  let s := (up3 0 0).linked
  s.hears 0 pkt && !s.toAssumed pkt && s.slotOk pkt && s.mayTalk

theorem wit_TargetReadsAndWritesLines :
    target (pk 1 1 5 0 3 0 7 []) = true ∧ target (pk 1 2 5 0 3 0x7FFFFFFF80 7 (bs 128 9)) = true ∧
    target (pk 1 3 5 0 3 128 7 (bs 128 9 ++ bs 1 3 ++ bs 127 0)) = true := by decide +kernel

theorem test_masked_write :
    let t := (up3 0 0).linked.after (.wrm 0 (pk 1 3 5 0 3 128 7 (bs 128 9 ++ bs 1 3 ++ bs 127 0)))
    t.hbm = [(128, 9), (129, 9)] ∧ t.fab.out.map (fun e => (e.1, pOp e.2, pDst e.2, pTag e.2)) = [(0, 0x21, 5, 7)] := by
  decide +kernel

/-- An atomic's atomArg, in a line. -/
def atomArg (n v : Nat) : Bytes := natLe n v ++ bs (128 - n) 0

theorem wit_TargetAtomicsChangeTheCell :
    target (pk 1 8 5 0 3 4 7 (atomArg 4 1)) = true ∧ target (pk 1 9 5 0 3 8 7 (atomArg 8 1)) = true ∧
    target (pk 1 0xA 5 0 3 4 7 (atomArg 4 1)) = true ∧ target (pk 1 0xB 5 0 3 8 7 (atomArg 8 1)) = true ∧
    target (pk 1 0xC 5 0 3 4 7 (atomArg 4 1)) = true ∧ target (pk 1 0xD 5 0 3 8 7 (atomArg 8 1)) = true ∧
    target (pk 1 0xE 5 0 3 8 7 (atomArg 16 1)) = true ∧ target (pk 1 0xF 5 0 3 16 7 (atomArg 16 1)) = true ∧
    target (pk 1 0x10 5 0 3 16 7 (atomArg 16 1)) = true := by decide +kernel

theorem test_atomics_wrap :
    let s := ((up3 0 0).linked.hbmWrite 0 (bs 4 0xFF)).hbmWrite 16 (bs 9 0xFF ++ [0x7F])
    (s.after (.fadd32 0 (pk 1 0xA 5 0 3 0 7 (atomArg 4 2)))).hbmNat 0 4 = 1 ∧
    (s.after (.fadd32 0 (pk 1 0xA 5 0 3 0 7 (atomArg 4 2)))).fab.out.map (fun e => e.2.data.take 4) = [bs 4 0xFF] ∧
    (s.after (.xadd80 0 (pk 1 0xF 5 0 3 16 7 (atomArg 16 1)))).hbm = s.hbm ∧
    (s.after (.xadd80 0 (pk 1 0xF 5 0 3 16 7 (atomArg 16 1)))).fab.out.map (fun e => pStat e.2 % 4) = [2] := by decide +kernel

theorem wit_TargetServesCopies :
    target (pk 6 0x18 5 0 3 0x87 7 (bs 128 9)) = true ∧ target (pk 6 0x18 5 0 3 0 7 (bs 512 9)) = true ∧
    target (pk 6 0x19 5 0 3 0x83 7 []) = true ∧ up.hbmPoisoned 0x80 512 = false := by decide +kernel

theorem test_push_counts :
    let p := pk 6 0x18 5 0 3 0x87 7 (bs 128 9)
    let q : Packet := { p with hdr := p.hdr ||| (1#128 <<< 57) }
    pRi q = true ∧ ((up3 0 0).linked.after (.cpy 0 q)).reg (aCtr 7) = 1 ∧
    ((up3 0 0).linked.after (.cpy 0 q)).hbmNat 0x80 1 = 9 := by decide +kernel

theorem wit_RequestsTakeATag :
    let s := windowed (up3 0 0).linked
    let p : Packet := ⟨nalHdr 1 1 (s.srcOf 3) 0 3 0 0 0 0x80 0 0, []⟩
    let waits := { s with fab := { s.fab with remap := true } }
    let empty := { s with fab := { s.fab with vacant := [0] } }
    s.tenantShut = false ∧ s.dark = false ∧ opShape 1 = some (1, 0, 0) ∧ opShape 3 = some (1, 2, 2) ∧ addrOk p = true ∧
    fld 0x80 47 46 = 0 ∧ s.noChip (pDst p) = false ∧ s.checkAccess 3 0x80 128 permRd false = none ∧ s.canIssue 1 = true ∧
    s.mayTalk = true ∧ s.pickPort ((pDst p) <<< 41 ||| (lineAddr p >>> 7)) (pSrc p) (pDst p) (pVc p) = some 0 ∧
    (s.after (.msRequest 3 (pk 1 1 0 0 0 0x80 0 []))).fab.reqs.map (·.1) = [0] ∧ waits.canIssue 1 = false ∧
    (waits.after (.msRequest 3 (pk 1 1 0 0 0 0x80 0 []))).fab.held.length = 1 ∧
    up.checkAccess 3 0x80 128 permRd false ≠ none ∧ fld (2 ^ 46) 47 46 ≠ 0 ∧ empty.noChip (pDst p) = true ∧
    (empty.after (.msRequest 3 (pk 1 1 0 0 0 0x80 0 []))).fab.answer = ([], 2, false) := by decide +kernel

theorem wit_RequestsTakeATag_copies :
    let v := (windowed (up3 0 0).linked).hbmWrite 0x1000 copyBytes
    let w : Word := word (3 <<< 48 + 0x1000)
    let c := copyOf (v.hbmRead 0x1000 64) 3 none [] 0 false
    fld w.toNat 59 48 = 3 ∧ fld w.toNat 47 0 % 64 = 0 ∧ v.hbmPoisoned 0x1000 64 = false ∧ copyDescOk (v.hbmRead 0x1000 64) false = true ∧
    v.fab.copies.length < 16384 ∧ v.copyCheck c = none ∧ v.pickPort 0 (v.srcOf 3) c.peer 6 ≠ none ∧
    (v.after (.msfCpy w)).outcome = 0 ∧ (v.after (.msfCpy w)).fab.copies.map (·.1) = [0] ∧ 0x1020 % 64 ≠ 0 ∧
    (v.after (.msfCpy (w + 0x20))).outcome = 2 ∧ up.pickPort 0 (up.srcOf 3) c.peer 6 = none := by decide +kernel

/-- A read of address 0x80 of chip 5 is out under tag 4. -/
def asked (timedOut : Bool) (op : Nat) : Req :=
  { (default : Req) with ctx := 3, pkt := pk 1 op 0 5 3 0x80 4 [], timedOut := timedOut }

/-- The requester at TCLK count n. -/
def asker (n : Nat) (r : Req) : State :=
  let s := ((up3 0 0).linked.setF aMsfCtrl 6 0 10).setF aMsfCtrl 31 16 0x7FC0
  { s with tclk := n, fab := { s.fab with reqs := [(4, r)] } }

theorem wit_RepliesFreeTheirTag :
    let s := asker 1000 (asked false 1)
    let d := pk 2 0x20 5 0 3 0x80 4 (bs 128 6)
    let a := pk 2 0x21 5 0 3 0 4 []
    s.hears 0 d = true ∧ s.hears 0 a = true ∧ pTag d = 4 ∧ pTag a = 4 ∧ pDst (asked false 1).pkt = pSrc d ∧ s.fab.held = [] ∧
    s.fab.copies = [] ∧ 0 + s.tdead ≤ s.tclk ∧ ¬0 + s.tdead ≤ (asker 999 (asked false 1)).tclk ∧
    0 + 4 * (asker 4000 (asked true 1)).tdead ≤ 4000 ∧ (asker 4000 (asked true 1)).fab.copies = [] ∧
    (s.after (.dataReply 0 d)).fab.answer = (bs 128 6, 0, false) ∧ (s.after (.ackReply 0 a)).fab.reqs = [] ∧
    ((s.after (.requestTimeout 4)).fab.answer.1.take 3) = [0xC0, 0x7F, 0xC0] ∧
    ((asker 4000 (asked true 1)).after (.tagFreeExpire 4)).fab.reqs = [] := by decide +kernel

/-- Copy 8 of context 3 is in flight, in a state. -/
def State.copying (s : State) (c : Copy) : State := { s with fab := { s.fab with copies := [(8, c)] } }

theorem wit_RepliesFreeTheirTag_copies :
    let c : Copy := { (default : Copy) with ctx := 3, pull := true, dst := 0x3000, len := 256, next := 2, rinc := true, rctr := 65535 }
    let r := { asked false 0x19 with pkt := pk 6 0x19 0 5 3 0x81 4 [], copy := some (8, 0), lines := 2 }
    let s := (asker 1000 r).copying c
    let d := pk 2 0x20 5 0 3 0x100 4 (bs 128 6)
    s.hears 0 d = true ∧ tabFind s.fab.copies 8 = some c ∧ pStat d % 4 ≠ 2 ∧ s.hears 0 (pk 2 0x21 5 0 3 0 4 []) = true ∧
    (s.after (.dataReply 0 d)).hbmNat 0x3080 1 = 6 ∧ (s.after (.dataReply 0 d)).reg (aCtr 65535) = 1 ∧
    (s.after (.ackReply 0 (pk 2 0x21 5 0 3 0 4 []))).fab.copies.map (·.2.done) = [2] ∧
    tabFind (s.after (.requestTimeout 4)).fab.copies 8 = none := by decide +kernel

theorem wit_CopiesEnd :
    let c : Copy := { (default : Copy) with ctx := 3, step := some 9, sinc := true, sctr := 65535, len := 256, done := 2 }
    let s := ((up3 0 0).withSteps [{ step3 0 .running markProg with asyncs := [.copy 8] }]).copying c
    s.fab.held = [] ∧ c.len / 128 ≤ c.done ∧ c.wcrc = none ∧ c.staging = [] ∧ c.poisoned = false ∧ c.outcome < 2 ∧
    (s.after (.copyEnd 8)).reg (aCtr 65535) = 1 ∧ (s.after (.copyEnd 8)).reg aMsfCntCpy = 1 ∧
    (s.after (.copyEnd 8)).rgm.steps.map (·.asyncs) = [[]] := by decide +kernel

set_option maxRecDepth 100000 in
theorem wit_CopiesEnd_checked :
    let c : Copy := { (default : Copy) with ctx := 3, len := 128, done := 1, wcrc := some 136799451 }
    let s := (up3 0 0).copying c
    crc32c (s.hbmRead c.dst c.len) = 136799451 ∧ c.poisoned = false ∧ c.outcome < 2 ∧ (s.after (.copyEnd 8)).fab.copyEnd = (3, 0) ∧
    ((up3 0 0).copying { c with poisoned := true }).ctxState 3 = 2 ∧
    (((up3 0 0).copying { c with poisoned := true }).after (.copyEnd 8)).ctxState 3 = 7 := by decide +kernel

theorem wit_LinksComeUpAndGoDown :
    let p := { up.linked with fab := { up.linked.fab with remap := true } }
    let out := p.setF (aFabState 0) 8 8 1
    up.link 15 < 2 ∧ up.pwr.inReset = false ∧ up.islState 175 ≠ 2 ∧ 7 ≤ up.f aPwrBoot 3 0 ∧ up.flag (aFabState 15) 8 = false ∧
    up.linked.link 0 ≠ 0 ∧ up.portShut = false ∧ up.dark = false ∧ up.link 15 ≠ 2 ∧ (up.setIsl 160 2).islState 160 = 2 ∧
    opIsRequest (pOp (pk 1 1 0 5 3 0 4 [])) = true ∧ p.fab.remap = true ∧ p.oldRequests = false ∧ out.oldRequests = false ∧
    out.flag (aFabState 0) 8 = true ∧ out.link 0 = 2 ∧ (out.after .portRemap).link 0 = 3 ∧
    ((asker 0 (asked false 1)).oldRequests = true) ∧ pVc (pk 3 0x28 0 5 3 0 0 []) = 3 ∧
    (up.after (.linkUp 15 3)).link 15 = 2 ∧ (up.linked.after (.linkDown 0)).flag (aFabErr 0) 1 = true ∧
    (up.after (.portRtsReq 15)).link 15 = 1 ∧ (up.linked.after (.portOosReq 0)).portIn 0 = false := by decide +kernel

theorem wit_FabricManagerMessages :
    let s := (up3 0 0).linked.setBit aMsfCtrl 7
    let own := pk 0 0x3E 5 0 0 0 7 (natLe 8 (1 <<< 44 + 3 <<< 25 + 5) ++ bs 120 0)
    let down := pk 0 0x3C 5 0 3 fmTeardownKind 7 []
    let t := s.after (.own 0 own)
    s.hears 0 own = true ∧ s.hears 0 down = true ∧ pOp down = 0x3C ∧ pAddr down % 256 = fmTeardownKind ∧
    s.flag aMsfCtrl 7 = true ∧ s.ctxState 3 ∉ [0, 7] ∧ t.fab.owns = [(0, own)] ∧
    t.fab.owns.find? (fun e => !t.writesTo (fieldAt e.2.data 0 4 % 2 ^ 25)) = some (0, own) ∧ t.mayTalk = true ∧
    (own.data.drop 8).all (· == 0) = true ∧ (t.after .ownApply).f aMsfOwnCount 20 0 = 1 ∧
    ((s.after (.own 0 { own with data := own.data.take 127 ++ [1] })).after .ownApply).f aMsfOwnCount 20 0 = 0 ∧
    (s.after (.fmTeardown 0 down)).ctxState 3 = 7 := by decide +kernel


/-! ## Pools, stack, islands, clock and power -/

theorem wit_PoolsAllocateTheHead :
    let s := pooled 5
    let w : PolWait := { cls := 5, ctx := 3, part := 0, kind := 4 }
    let over_ : PolWait := { w with ctx := 4, kind := 2 }
    let wait := fun (s : State) (w : PolWait) => ({ s with pol := { s.pol with waits := [w] } } : State)
    (s.pool 5).rebuilding = false ∧ s.grants { w with kind := 0 } = true ∧ s.grants w = true ∧ (s.pool 5).head = some 0 ∧
    s.headGood 5 0 = true ∧ (pooled 0).headGood 0 0 = true ∧ s.grants over_ = false ∧ s.grants { over_ with kind := 0 } = false ∧
    s.ring.wait = [] ∧ ((s.after (.poolAlloc 5 3 0 1)).pool 5).head = some 1 ∧
    ((s.after (.poolAlloc 5 3 0 1)).entry 5 0).owner = 3 ∧ (s.after (.poolAlloc 5 4 0 2)).pol.waits = [over_] ∧
    ((wait s w).after (.inflightAllocRetry 5)).pol.waits = [] := by decide +kernel

theorem wit_PoolsAllocateTheHead_rebuild :
    let s := (pooled 2).setPool 2 { pool0 with rebuilding := true, entries := [(1, { polEntry0 with alloc := true })] }
    (s.pool 2).rebuilding = true ∧ s.pol.waits.all (fun w => w.cls != 2) = true ∧ s.ring.wait = [] ∧
    ((s.after (.freeListRebuildDone 2)).pool 2).head = some 0 ∧ (s.after (.freeListRebuildDone 2)).f (aPolFree 2) 20 0 = 2 := by
  decide +kernel

/-- Buffer 1 of class 0 is context 3's, in a state. -/
def owned (e : PolEntry) : State :=
  let s := pooled 0
  (s.setPool 0 { s.pool 0 with entries := [(1, { e with owner := 3 })] }).setReg aPolOpHandle (word (handleOf 0 1 e.gen))

theorem wit_PoolOperationsOfSoftware :
    let h := handleOf 0 1 7
    let e := { polEntry0 with alloc := true, gen := 7 }
    let f := { e with framed := true, use := 2, fh := 4095 }
    let marked := fun (s : State) => ({ s with pol := { s.pol with marks := [4095] } } : State)
    let q := { e with alloc := false, quar := true }
    (pooled 0).unitShut = false ∧ (pooled 0).dark = false ∧ (∀ g, findingOf [] g = .clean) ∧
    (pooled 0).allocAllowed 0 1 (chargeOf 3 0) 1 = true ∧ (pooled 0).allocAllowed 0 1 (chargeOf 4095 0) 1 = false ∧
    (owned e).badFree h 3 false = false ∧ (owned f).badFree h 3 false = false ∧
    (marked (owned { f with use := 1 })).badFree h 3 false = false ∧ (owned e).badFree h 4 false = true ∧
    (owned q).poolCount 0 = 3 ∧ (owned q).stack.metadata = (0, 0) ∧
    ((owned e).after (.polOpAlloc 3 [])).reg aPolOpHandle = word (handleOf 0 0 1) ∧
    ((owned e).after (.polOpFree 3 [])).outcome = 0 ∧ ((owned e).after (.polOpFree 4 [])).outcome = 2 ∧
    (((owned f).after (.polOpFree 3 [])).entry 0 1).use = 1 ∧
    (((marked (owned { f with use := 1 })).after (.polOpFree 3 [])).entry 0 1).held = true ∧
    ((owned q).after (.polOpQrel 3 true)).outcome = 0 ∧ ((owned q).after (.polOpQrel 3 false)).outcome = 3 := by
  refine ⟨by decide +kernel, by decide +kernel, fun _ => rfl, ?_⟩
  decide +kernel

theorem wit_StackMaintenance :
    let s := up.setF aStkCtrl 7 0 1
    let full := { up with stack := { up.stack with repairs := (List.range 64).map (fun i => (511 * 512 + i, i)) } }
    let top := 2 ^ 27 - 1
    let poisoned := { s with stkPoison := [3 * top, 3 * top + 2] }
    s.f aStkCtrl 7 0 ≠ 0 ∧ up.f aStkCtrl 7 0 ≠ 1 ∧ s.granulePoison top = false ∧ poisoned.granulePoison top = true ∧
    up.portShut = false ∧ up.dark = false ∧
    (List.range 64).find? (fun k => !(up.sparesUsed 511).contains k) = some 0 ∧
    (List.range 64).all (fun i => (full.sparesUsed 511).contains i) = true ∧
    (s.after (.scrubRead top .uncorrectable [])).granulePoison top = true ∧
    (s.after (.scrubRead top .correctable [])).reg aStkCntCe = 1 ∧ (poisoned.after (.scrubRead top .correctable [])).reg aStkCntCe = 0 ∧
    (s.after (.scrubRead 0 .clean [2])).granulePoison 0 = false ∧ (s.after (.scrubRead 0 .clean [2, 0])).granulePoison 0 = true ∧
    tabGet 0 (({ up with stack := { up.stack with nextRow := [(511, 511)] } } : State).after (.refresh 511)).stack.nextRow 511 = 0 ∧
    (up.after (.rowRepair 511 511)).outcome = 0 ∧ (full.after (.rowRepair 511 511)).outcome = 2 := by decide +kernel

theorem wit_TemperatureBands :
    let s := (up.setF aStkTemp 33 32 3)
    let s := { s with tb := 10000000, stack := { s.stack with coolSince := some 0 } }
    s.stack.coolSince = some 0 ∧ s.f aStkTemp 33 32 ≠ 0 ∧ (s.after .bandCool).f aStkTemp 33 32 = 2 ∧
    (up.after (.tempSample [96, 0, 0, 95] 0)).f aStkTemp 33 32 = 3 ∧ (up.after (.tempSample [95, 0, 0, 95] 0)).f aStkTemp 33 32 = 2 ∧
    (up.after (.tempSample [0, 0, 0, 0] 106)).f aPwrCap 12 8 = 1 ∧ (up.after (.tempSample [0, 0, 0, 0] 109)).pwr.halted = false ∧
    (up.after (.tempSample [0, 110, 0, 0] 0)).pwr.halted = true := by decide +kernel

/-- Island i is under test. -/
def tested (i : Nat) : State := { up.setIsl i 3 with mgt := { up.mgt with tests := [i] } }

/-- A running step has a tile on cube group 0. -/
def scoring : State :=
  (up3 0 0).withSteps [{ step3 0 .running markProg with
    group := some { (default : Group) with tile := some { (default : Tile) with groups := [0] } } }]

/-- Group 2 passes its test after a live repair, between two tiles of a step. -/
def repaired : State :=
  let s := { (scoring.setReg (aParGroup 0) 4).setIsl 130 3 with mgt := { up.mgt with tests := [130], repairing := [2] } }
  s.withSteps [step3 0 .running markProg]

theorem wit_IslandsLeaveAreTestedAndReturn :
    up.dark = false ∧ islFatal 0 = false ∧ islFatal 175 = false ∧ islFatal 176 = true ∧ islFatal 263 = true ∧
    [128, 159, 160, 175, 240, 255].all (fun i => up.islState i == 0 && !up.mgt.tests.contains i &&
      !(islGroup i && up.tileUses (i - 128)) && !(islPort i && up.link (i - 160) == 2) &&
      (up.after (.islandTakeOut i)).islState i == 1) = true ∧
    islGroup 128 = true ∧ scoring.islState 128 = 0 ∧ scoring.tileUses 0 = true ∧
    (scoring.after (.islandTakeOut 128)).mgt.leaving = [0] ∧ islPort 160 = true ∧ up.linked.islState 160 = 0 ∧
    up.linked.link 0 = 2 ∧ (up.linked.after (.islandTakeOut 160)).flag (aFabState 0) 8 = true ∧
    (up.setIsl 5 1).islState 5 = 1 ∧ islStack 259 = true ∧ up.islState 259 = 0 ∧ (up.setIsl 5 2).islState 5 = 2 ∧
    ((up.setIsl 5 1).after (.islandTestReturn 5)).mgt.testQ = [5] ∧
    (({ up.setIsl 5 1 with mgt := { up.mgt with testQ := [5, 6] } } : State).after .islandTestStart).islState 5 = 3 ∧
    repaired.mgt.repairing = [2] ∧ repaired.groupOwner 2 = some 0 ∧ repaired.tileRuns 0 = false ∧
    (repaired.after (.islandTestDone 130 true)).islState 130 = 0 ∧
    ((tested 130).setReg (aParGroup 0) 4).groupOwner 2 = some 0 ∧ ((tested 130).setReg (aParGroup 0) 4).atBoundary 0 = true ∧
    (((tested 130).setReg (aParGroup 0) 4).after (.islandTestDone 130 true)).islState 130 = 0 ∧
    ((tested 5).after (.islandTestDone 5 true)).islState 5 = 1 ∧ ((tested 200).after (.islandTestDone 200 false)).pwr.halted = true ∧
    islStack 5 = false ∧ ((tested 5).after (.islandTestDone 5 false)).islState 5 ≠ 3 := by decide +kernel

theorem wit_ClockEventsAreCounted :
    let s := (up.setF aClkPll 0 0 1)
    let v := (up3 0 0).withSteps [step3 0 .running markProg]
    up.islState 263 = 0 ∧ (tested 5).islState 5 = 3 ∧ 263 ∉ up.mgt.stretched ∧ s.flag aClkPll 0 = true ∧ s.ready = true ∧
    s.pwr.halted = false ∧ v.halted = false ∧
    (v.rgm.steps.find? (fun t => t.desc.ctx == 3 && (t.phase == .running || t.phase == .draining) && t.abort == 0)).isSome = true ∧
    (up.after (.droopDetect 263)).reg aClkCntStretch = 1 ∧ (s.after .pllUnlock).pwr.halted = true ∧
    (v.after (.hostWriteRefused 3)).rgm.steps.map (·.abort) = [0x32] := by decide +kernel

/-- Power state d has been asked for and is on its way. -/
def moving (d : Nat) : State := { up.setF aPwrState 3 2 d with pwr := { up.pwr with target := some d } }

theorem up_unloaded : up.loadedCtxs = [] := loadedCtxs_nil _ (by decide +kernel)

theorem moving_unloaded : (moving 1).loadedCtxs = [] := loadedCtxs_nil _ (by decide +kernel)

theorem wit_PowerStatesMove_retain :
    up.mayRetain = true ∧ (moving 1).mayRetain = true ∧ (moving 1).pwr.target = some 1 ∧ (moving 1).f aPwrState 3 2 = 1 := by
  refine ⟨?_, ?_, rfl, by decide +kernel⟩
  · simp only [State.mayRetain, up_unloaded]; decide +kernel
  · simp only [State.mayRetain, moving_unloaded]; decide +kernel

theorem wit_PowerStatesMove :
    let held := up.setF (aCtxCmd 0) 2 0 2
    up.pwr.inReset = false ∧ up.pwr.target = none ∧ 1 ≠ up.f aPwrState 3 2 ∧ up.f aPwrState 1 0 ≠ 1 ∧ 2 ≤ up.f aPwrState 1 0 ∧
    held.mayRetain = false ∧ (held.after (.powerStateRequest 1)).flag aPwrErr 2 = true ∧
    (up.after (.powerStateRequest 2)).f aPwrCap 7 0 = 190 ∧ (up.after (.powerStateRequest 2)).pwr.target = some 2 ∧
    (up.after (.powerStateRequest (255 * 4 + 2))).f aPwrCap 7 0 = 255 ∧ (moving 0).f aPwrState 3 2 = 0 ∧
    (moving 2).rgm.steps = [] ∧ ((moving 2).after .powerStateReached).f aPwrState 1 0 = 2 ∧
    ((moving 0).after .powerStateReached).f aPwrState 1 0 = 0 ∧ up.dark = false ∧ 3 ≤ up.f aPwrBoot 3 0 := by decide +kernel

theorem test_duty_moves :
    let s := (up.setF aPwrCap 7 0 100).setF aPwrCap 12 8 8
    (s.after (.powerCapWindow 801)).f aPwrCap 12 8 = 7 ∧ (s.after (.powerCapWindow 800)).f aPwrCap 12 8 = 8 ∧
    (s.after (.powerCapWindow 760)).f aPwrCap 12 8 = 8 ∧ (s.after (.powerCapWindow 759)).f aPwrCap 12 8 = 9 := by decide +kernel

/-- The clauses of a boot that finds no image, and of a restart. (A boot that accepts an image needs a signed one of over
16 KiB, which is too long for a test.) -/
theorem wit_StartUpReachesReady :
    State.reset.pwr.inReset = true ∧ ((State.reset.boot1.setF aPwrBoot 3 0 2).chooseLog).bootImage.1 = none ∧
    up.dark = false ∧ up.halted = false ∧ up.loadedCtxs = [] ∧ up.f aCfgUpdCtrl 9 8 = 0 ∧ up.pwr.booting = false :=
  ⟨rfl, by decide +kernel, by decide +kernel, by decide +kernel, up_unloaded, by decide +kernel, rfl⟩

theorem test_boot_without_image :
    (State.reset.after (.startUp ⟨true, [], [], [], []⟩)).f aPwrBoot 3 0 = 2 ∧
    (State.reset.after (.startUp ⟨true, [], [], [], []⟩)).flag aPwrBoot 5 = true := by decide +kernel


/-! ## Configuration, security, management and the small ports -/

/-- An update session of a port is open, in a state. -/
def State.session (s : State) (port : Nat) : State := (s.setF aCfgUpdCtrl 9 8 1).setF aCfgUpdCtrl 6 5 port

/-- A session of the register port that writes one page at an offset, from 0x2000. -/
def paging (o : Nat) : State :=
  (((up.session 1).setReg aCfgUpdOfs (word (o + 256 <<< 32))).setReg aCfgUpdSrc 0x2000).hbmWrite 0x2000 (bs 4 6)

theorem wit_UpdateSessionsProgramTheInactiveBank :
    let free := fun (s : State) (o : Nat) => s.cfg.erased.all (fun e => decide ((e + 1) * 65536 ≤ o ∨ o + 256 ≤ e * 65536)) &&
      s.f aCfgUpdOfs 25 0 == o && o % 256 == 0 && decide (0x1000 ≤ o) && decide (o + 256 ≤ 0x2000000)
    up.dark = false ∧ up.f aCfgUpdCtrl 9 8 = 0 ∧ (up.session 1).f aCfgUpdCtrl 9 8 ≠ 0 ∧ (up.session 2).f aCfgUpdCtrl 6 5 = 2 ∧
    (paging 0x1000).f aCfgUpdCtrl 6 5 = 1 ∧ (paging 0x1000).f aCfgUpdSrc 47 0 % 256 = 0 ∧
    (paging 0x1000).f aCfgUpdOfs 57 32 = 256 * 1 ∧ free (paging 0x1000) 0x1000 = true ∧ free (paging 0x1FFFF00) 0x1FFFF00 = true ∧
    up.cfg.erased = [] ∧
    (up.session 1).commitErr { hdr := bs 4096 0, body := [] } ≠ 0 ∧
    ({ up.session 2 with tclk := 1000000000 } : State).cfg.lastOp + 1000000000 ≤ 1000000000 := by decide +kernel

theorem test_update_sessions :
    (up.after .updOpen).f aCfgUpdCtrl 9 8 = 1 ∧ ((up.session 2).after .updOpen).f aCfgUpdCtrl 23 16 = 1 ∧
    ((paging 0x1000).after (.updWrite none)).flash.take 5 = (List.range 5).map (fun i => (bankBase up.inactive + 0x1000 + i, if i < 4 then 6 else 0)) ∧
    ((up.session 1).after .updAbort).f aCfgUpdCtrl 9 8 = 0 := by decide +kernel

/-- An apply under way since TCLK 0, whose partition 63 changes. -/
def applying63 (n : Nat) : State :=
  let s := up.setF aCfgApply 17 17 1
  { s with tclk := n, cfg := { s.cfg with applyFrom := some (0, [63]) } }

theorem wit_LiveSectionsApply :
    up.dark = false ∧ up.flag aCfgApply 17 = false ∧ (applying63 0).flag aCfgApply 17 = true ∧
    ((applying63 0).after (.cfgApply 0x10380)).f aCfgApply 19 16 = 2 ∧ bitAt (0xFFFF#64).toNat 16 = false ∧ bitAt (0x10380#64).toNat 16 = true ∧
    fld 0x0390 3 0 = 0 ∧ fld 0x0390 6 5 = 0 ∧ fld 0x0390 15 10 = 0 ∧ (State.reset).ready = false ∧ up.ready = true ∧
    (applying63 0).cfg.applyFrom = some (0, [63]) ∧
    ([63].any ((applying63 0).withSteps [step3 63 .queued markProg]).partMoving) = true ∧
    0 + 100000000 < (applying63 100000001).tclk ∧ ((applying63 100000001).after .cfgApplyTimeout).f aCfgApply 19 18 = 2 ∧
    (up.setReg aCfgRdDst 0x2000).f aCfgRdDst 47 0 % 128 = 0 := by decide +kernel

theorem wit_LiveSectionsApply_partition : ([63].any (applying63 0).partMoving) = false := by
  have : (applying63 0).loadedCtxs = [] := loadedCtxs_nil _ (by decide +kernel)
  simp [State.partMoving, this]
  decide +kernel

theorem test_cfg_rd :
    let s := { up.setReg aCfgRdDst 0x2000 with flash := [(128, 5)] }
    (s.after (.cfgRd (word (128 + 128 <<< 32 + 1 <<< 63)))).hbmRead 0x2000 2 = [5, 0xFF] := by decide +kernel

/-- A key of P-384, the example of RFC 6979, A.2.6. -/
def sampleKey : Bytes :=
  [4] ++ natBe 48 0xEC3A4E415B4E19A4568618029F427FA5DA9A8BC4AE92E02E06AAE5286B300C64DEF8F0EA9055866064A254515480BC13 ++
    natBe 48 0x8015D9B72D7D57244EA8EF9AC0C621896708A59367F9DFB9F54CA84B3F1C9DB1288B231C3AE0D4FE7344FD2533264720

/-- The signature of the word sample under SHA-384 in that example; one with another message is no signature. -/
theorem test_ecdsa :
    let sig := natBe 48 0x94EDBB92A5ECB8AAD4736E56C691916B3F88140666CE9FA73D64C4EA95AD133C81A648152E44ACF96E36DD1E80FABE46 ++
      natBe 48 0x99EF4AEB15F178CEA1FE40DB2603138F130E740A19624526203B6351D0A3A94FA329C145786E679E7B82C71A38628AC8
    ecdsaOk sampleKey sig (sha384 [115, 97, 109, 112, 108, 101]) = true ∧
    ecdsaOk sampleKey sig (sha384 [115, 97, 109, 112, 108, 100]) = false := by decide +kernel

/-- A command block of slot 0 with nonce bytes of 7, under that key. -/
def signedBlock (cmd arg hash r t : Nat) : Bytes :=
  [BitVec.ofNat 8 cmd, 0, BitVec.ofNat 8 arg] ++ bs 5 0 ++ bs 32 7 ++ natBe 48 hash ++ sampleKey ++ bs 7 0 ++ natBe 48 r ++ natBe 48 t ++
    bs 32 0

/-- Slot 0 holds the key, slot 1 what is given; the nonce is drawn, and the image allows 255 as anti-rollback value. -/
def keyed (hash1 : Nat) : State :=
  let s := (List.range 4).foldl (fun (s : State) i => s.setReg (aSecNonce i) 0x0707070707070707) up
  { s.setF aSecStat 14 8 127 with
    cfg := { s.cfg with nonceAt := some 0, fuses := { s.cfg.fuses with hash0 := sha384 sampleKey, prog0 := true, hash1 := hash1 } } }

theorem wit_SignedCommandsAct_debug_unlock :
    (keyed 0).cmdErr (signedBlock 1 0 0
      0x4ce75d2fbf5b1dc708c77a731d1ead6badac2857da41d032e041ec4528299ab552dbf9a7b1aa6f78154be6417b07bb7d
      0x54659bf5e551a161a52aa212ebc0c2706de1b97905f6f14b67a266532e069d659e0c65c22addab1c97e8100ec83137df) = 0 := by decide +kernel

theorem wit_SignedCommandsAct_revoke :
    (keyed 5).cmdErr (signedBlock 2 1 0
      0x30317cb4a11a3a3db097f500ce421265798bd6d8378d860e18edb54fb723a4ff969b5194692eb79c7c092e65378c1e12
      0xa08fb9312521e0f6d55673a2c836815602486d3c3e1fad31479359bb910840c7d711b89c663c40c8b6387dce68bca29b) = 0 := by decide +kernel

theorem wit_SignedCommandsAct_arb_commit :
    (keyed 0).cmdErr (signedBlock 3 0 0
      0x7c12ed47e0daa1854f108a4e465759b11b44cb9db4be9500284fe105f7ea28218f2b4f6338d93b93bdc33d7c5d3c5ba9
      0x4d3e1ba0c8778697d17b9c87f3ba92ff424be2ce05527e8547f6c154747f9fed35347c0319b9c160f92269d279132eb3) = 0 := by decide +kernel

/-- PROGRAM_SLOT of slot 1, signed under slot 0. -/
def slotBlock : Bytes :=
  signedBlock 4 1 (beNat (bs 48 9))
    0xf72c99b5789a42f55ee00af4d297cf821e30370db3425959c3ea7b6f562986f8089cb1316cbbf3917f2e01ddea10eb79
    0xd70837b1d466323df0e1c8d2b2fa86f1d4ef41a46321fc6010d55eb01c31094b70512e61e93d28a2c5fec9e7a1b058ea

theorem wit_SignedCommandsAct : (keyed 0).dark = false ∧ (0x4000#64).toNat % 64 = 0 ∧ slotBlock ≠ [] ∧
    (keyed 0).hbmPoisoned 0x4000 320 = false ∧ ({ keyed 0 with hbmPoison := [0x81] } : State).hbmPoisoned 0x4000 320 = true ∧
    (keyed 0).cmdErr slotBlock = 0 ∧ ((keyed 0).after (.secchal slotBlock)).cfg.fuses.hash1 = beNat (bs 48 9) ∧
    up.cmdErr slotBlock = 2 ∧ (keyed 0).cmdErr (putBytes slotBlock 3 [1]) = 1 := by decide +kernel

/-- Event 5 is the newest, and 3 is acknowledged. -/
def noticed : State := (up.setF aAtnCause 15 0 5).setF aAtnCause 63 48 3

theorem wit_AttentionIsAcknowledged :
    noticed.dark = false ∧ serialAfter 16 6 5 = true ∧ serialAfter 16 5 5 = false ∧ serialAfter 16 4 3 = true ∧
    serialAfter 16 3 3 = false ∧ serialAfter 16 65535 5 = false ∧ (noticed.after (.atnAck 6)).outcome = 2 ∧
    (noticed.after (.atnAck 5)).f aAtnCause 63 48 = 5 ∧ (noticed.after (.atnAck 3)).outcome = 0 ∧
    (noticed.after (.wrreg aAtnAck 4)).i3cReply = some (0, []) ∧
    aliasTarget aGlbScratch ≠ aAtnAck ∧ aliasTarget aGlbScratch ≠ aMgtIslSel := by decide +kernel

theorem wit_I3cTargetAnswers :
    let h := up.setF aMgtI3c 15 15 1
    up.dark = false ∧ up.hasDa = false ∧ h.hasDa = true ∧ (regRow (aliasTarget aPwrBoot)).isSome = true ∧
    (regRow (aliasTarget 0xF01000)).isSome = true ∧ up.portShut = false ∧ State.reset.portShut = true ∧
    earlyBlock (aliasTarget aPwrBoot) = true ∧ ({ up with i3cReply := some (2, [5]) } : State).i3cReply = some (2, [5]) ∧
    (up.after (.entdaa 0x7F true)).f aMgtI3c 15 8 = 0xFF ∧ (up.after (.rdreg aPwrBoot)).i3cReply = some (0, 0x19 :: bs 7 0) ∧
    (up.after .telem).i3cReply.map (fun r => r.2.length) = some 48 ∧ (up.after (.logrd 0x41FFFFF 2)).i3cReply = some (2, []) ∧
    (({ up with i3cReply := some (2, [5]) } : State).after .i3cReadReply).i3cOut = [2, 1, 0, 5] := by decide +kernel

/-- A header of the slice port: KIND, context 3, frame handle 4095, address, one row of 64 BF16 values. -/
def slHead (kind bind : Nat) : BitVec 256 :=
  BitVec.ofNat 256 (kind + 4095 <<< 32 + bind <<< 44 + 3 <<< 48 + 0x2000 <<< 64 + 1 <<< 160 + 1 <<< 180)

/-- Context 3 may fill its window and hold buffers of class 0. -/
def sliced : State := windowed (pooled 0)

theorem wit_SlicesAndMarks :
    let rows := bs (slRow (slHead 1 0)) 3
    sliced.dark = false ∧ slKind (slHead 1 1) = 1 ∧ slKind (slHead 2 0) = 2 ∧ slKind (slHead 3 0) = 3 ∧
    sliced.slBad (slHead 1 1) = false ∧ sliceBad (slHead 1 0) rows = false ∧ sliceBad (slHead 1 1) rows = false ∧
    sliceBad (slHead 1 0) [] = true ∧ up.slBad (slHead 2 0) = true ∧ sliced.slBad (slHead 2 0) = false ∧ sliced.slBad (slHead 3 0) = false ∧
    sliced.sliceWindow (slHead 1 0) = none ∧ (pooled 0).sliceWindow (slHead 1 0) ≠ none ∧ (pooled 0).slBad (slHead 1 0) = false ∧
    ((pooled 0).after (.slice (slHead 1 0) rows)).reg aMsfCntRefuse = 1 ∧ classFor (slLen (slHead 1 1)) = some 0 ∧
    sliced.heldFrames 4095 = [] ∧ (sliced.pool 0).rebuilding = false ∧ (sliced.pool 0).head = some 0 ∧
    sliced.headGood 0 0 = true ∧ sliced.allocAllowed 0 1 (chargeOf 3 (sliced.ctxPart 3)) 1 = true ∧
    (sliced.after (.slice (slHead 1 1) rows)).slices.length = 1 ∧ ((sliced.after (.slice (slHead 1 1) rows)).entry 0 0).use = 1 ∧
    (sliced.after (.slice (slHead 1 0) [])).slStat.toNat % 4 = 2 ∧ (sliced.after (.mark (slHead 2 0))).pol.marks = [4095] := by
  decide +kernel

theorem wit_TestAccessPortShifts :
    let open_ := up.setF aSecStat 3 2 2
    let at_ := fun (i : Nat) => ({ open_ with tap := { open_.tap with sel := i } } : State)
    up.flag aSecStat 2 = true ∧ open_.flag aSecStat 2 = false ∧ (at_ 263).islState 263 = 0 ∧ islFatal 263 = true ∧
    islFatal 128 = false ∧ (at_ 128).islState 128 = 0 ∧ (at_ 0).islState 0 ≠ 0 ∧
    ((at_ 128).after (.wir 1)).islState 128 = 1 ∧ tabGet 0 ((at_ 128).after (.wir 1)).tap.wir 128 = 1 ∧
    tabGet 0 ((at_ 263).after (.wir 1)).tap.wir 263 = 0 ∧ tabGet 0 ((at_ 5).after (.wdr 9)).tap.wdr 5 = 9 := by decide +kernel


/-! ## Scoring, selection, lanes, Carousel, shadows, deadlines and rings -/

/-- A layer of one expert on logical lane 0, D 64: SCORE at 0, SELECT at 128, DISPATCH at 256, COMBINE at 288. -/
def oneExpert : Program :=
  progOf [opWith opScore 0 0, opWith opSelect 8 0, opWith opSort 0 0, opWith opDispatch 16 0, opWith opCombine 18 0]
    (putBytes (putBytes (putBytes (putBytes (bs 320 0) 0 [1]) 150 [1]) 256 [1]) 272 [1])

/-- The group of that layer with token 0. -/
def oneGroup : Group :=
  { (default : Group) with pSelect := 128, pDispatch := 256, pCombine := 288, enter := [0], lanes := [{ lane := 0, closed := [], expert := none, bseq := 0, partialClose := false }] }

/-- Token 0 with its only choice in a state. -/
def tok0 (c : ChoiceState) : TokRec := { (default : TokRec) with choices := [{ orig := 0, cur := 0, state := c }], scores := [numZero] }

/-- A running step with a group. -/
def inGroup (g : Group) : Step := { step3 0 .running oneExpert with group := some g, lanes := [0], slotRes := 8 }

/-- Context 3 runs a step in a group; partition 0 is staffed and its lane 0 in service. -/
def layered (g : Group) : State := (staffed (up3 0 0)).withSteps [inGroup g]

theorem wit_TilesAreScoredAndSelected_tiles :
    let g : Group := { oneGroup with untiled := [0] }
    let h : Group := { oneGroup with tile := some { (default : Tile) with toks := [0], groups := [0], rows := 8 } }
    (layered g).groupsLeave.arrayNext 0 = some (inGroup g) ∧ nextTile (inGroup g) g [] = some ([0], 8, 8) ∧
    (layered h).running 3 = some (inGroup h) ∧ 3 / 4 ∈ [0] := by
  refine ⟨by decide +kernel, by decide +kernel, by decide +kernel, by decide⟩

theorem test_tiles :
    let g : Group := { oneGroup with untiled := [0] }
    let h : Group := { oneGroup with tile := some { (default : Tile) with toks := [0], groups := [0], rows := 8 } }
    ((layered g).after (.scoreTileStart 0 [] [])).rgm.steps.map (fun t => t.group.map (fun k => k.untiled)) = [some []] ∧
    ((layered h).after (.scoreTileDone 3 15)).reg aScaCntRerun = 1 := by
  refine ⟨by decide +kernel, by decide +kernel⟩

theorem wit_TilesAreScoredAndSelected_backward :
    let back := { step3 0 .running (progOf [opWith opScore 0 1] (bs 320 0)) with lanes := [0] }
    let b := (staffed (up3 0 0)).withSteps [back]
    back.atBackward = true ∧ back.opNow.isSome = true ∧ b.running 3 = some back ∧
    (b.arrayNext 0).any (fun u => u.is 3 9) = true := by decide +kernel

theorem wit_TilesAreScoredAndSelected_selection :
    let q : Scored := { index := 0, scores := [numZero], conf := numZero, poisoned := false }
    let g := { oneGroup with scored := [[q]] }
    let r := { oneGroup with toks := [tok0 .undecided], bounded := true, round := 1 }
    let c := { oneGroup with toks := [tok0 .admitted] }
    (layered g).worker 3 = some (inGroup g) ∧ (layered r).worker 3 = some (inGroup r) ∧ r.allSelected = true ∧
    r.toks.all (·.decided) = false ∧ c.allSelected = true ∧ c.toks.all (·.decided) = true ∧
    ((layered g).after (.selectTile 3 3)).pwr.halted = true ∧ ((layered c).after (.selectionClose 3)).reg aSelCntToken = 1 := by
  decide +kernel

theorem wit_TilesAreScoredAndSelected_exits :
    let e := { oneGroup with toks := [{ tok0 .admitted with exited := true }], closed := true }
    let f := { oneGroup with toks := [{ tok0 .admitted with forced := true }], finish := [0], closed := true }
    (e.toks.find? (fun k => k.index == 0 && (k.exited || k.forced) && !k.counted)).isSome = true ∧ e.mayCount = true ∧
    e.finish = [] ∧ oneExpert.at 128 0x20 8 = 0 ∧
    (f.toks.find? (fun k => k.index == 0 && (k.exited || k.forced) && !k.counted)).isSome = true ∧ f.mayCount = true ∧
    f.finish.head? = some 0 ∧ (layered f).stepOf 3 (inGroup f).desc.step = some (inGroup f) ∧
    (inGroup f).groupAt f.layer = some f ∧ ((layered f).after (.exitCount 3 0)).reg (aCtr 0) = 1 ∧
    ((layered e).after (.exitCount 3 0)).reg (aCtr 0) = 1 := by decide +kernel

/-- Slot 5, bound to that token. -/
def slot5 : Slot :=
  { (default : Slot) with
    ctx := 3, step := 9, d := 64, outFmt := .bf16, count := 1, segs := List.replicate 2 ⟨0, false, []⟩
    choices := [{ expert := 0, gate := 0x3F80, withdrawn := false, answered := false, lined := false, orig := 0, origGate := 0x3F80, lane := 0, takenAt := none }] }

/-- A state that binds a slot as number 5. -/
def State.bound (s : State) (p : Slot) : State := { s with car := { s.car with slots := [(5, p)] } }

/-- That token's slot is bound, and its choice is due on lane 0. -/
def dispatching : State := (layered { oneGroup with toks := [tok0 .admitted], order := [(0, [(true, 0)])] }).bound slot5

/-- A dispatch packet of token 0 with some payload, whole in its queue. -/
def dpkt (token : Bool) (taken : Nat) (data : Bytes) : DPkt :=
  { (default : DPkt) with
    hdr := dispatchFlit (if token then 1 else 2) 0 0 0 0x3F80 5 0 3 4 1 9 0, token := token, taken := taken, ctx := 3, step := 9
    slot := 5, data := data, built := 1 + data.length / 32 }

/-- Lane 0 holds packets. -/
def State.queued (s : State) (l : List DPkt) : State := s.setLane 0 { lane0 with dq := l }

theorem wit_LanesCarryBatches :
    let g := { oneGroup with toks := [tok0 .admitted] }
    let s := dispatching
    let full := s.queued [dpkt true 0 (bs 262112 0)]
    (layered g).worker 3 = some (inGroup g) ∧ (inGroup g).nextBind g g.enter = some (tok0 .admitted) ∧ (layered g).slotIn 0 63 = true ∧
    tabFind (layered g).car.slots 63 = none ∧ (layered g).boundBy 3 9 < (inGroup g).slotRes ∧
    ((layered g).after (.slotBind 3 63)).car.gens = [(63, 1)] ∧ s.laneOn 0 = true ∧ s.laneRoom 0 = true ∧
    (match (s.writers 0).findSome? (fun t => (s.due t 0).map (fun d => (t, d))) with
      | some (_, _, _, 0, .local 0 0 5 _ 0x3F80) => true
      | _ => false) = true ∧
    ((s.after (.tokenPacketWrite 0)).lane 0).dq.map (fun q => (q.token, q.slot)) = [(true, 5)] ∧ full.dqCap 0 = 8192 ∧
    (full.lane 0).occ = 8192 ∧ full.laneRoom 0 = false := by decide +kernel

theorem wit_LanesCarryBatches_takes :
    let s := dispatching
    let on := fun (p : DPkt) => (s.queued [p]).laneOn 0
    let void := { dpkt true 0 [] with void := true }
    let long := dpkt true 2 (bs 128 0)
    let ended := s.setLane 0 { lane0 with out := [(0, true)] }
    on void = true ∧ ((s.queued [dpkt true 0 []]).lane 0).dq.findIdx? DPkt.countDue = some 0 ∧
    ((s.queued [dpkt true 0 []]).after (.packetTake 0 1)).reg (aLanCntToken 0) = 1 ∧
    ((s.queued [void]).after (.packetTake 0 1)).reg (aLanCntToken 0) = 0 ∧
    ((s.queued [dpkt false 0 []]).after (.packetTake 0 1)).reg (aLanCntClose 0) = 1 ∧ long.taken < long.total ∧
    ((s.queued [long]).after (.packetTake 0 2)).lanes.map (fun l => (l.2.out.length, l.2.dq.length)) = [(2, 1)] ∧
    ((s.queued [long]).after (.packetTake 0 3)).lanes.map (fun l => (l.2.out.length, l.2.dq.length)) = [(3, 0)] ∧
    ((s.queued [long]).after (.laneDrop 0 false)).reg (aLanCntDrop 0) = 1 ∧ ((s.queued [dpkt true 0 []]).lane 0).reading = false ∧
    (ended.lane 0).reading = false ∧ (ended.lane 0).ended = true ∧ (ended.after (.laneDrop 0 true)).flag (aLanErr 0) 4 = false ∧
    (ended.after (.laneDrop 0 false)).flag (aLanErr 0) 4 = true := by decide +kernel

theorem wit_LanesCarryBatches_close :
    let g := { oneGroup with toks := [{ tok0 .admitted with settled := true }], order := [(0, [(true, 0)])], sent := [(0, 1)], closed := true }
    let s := (layered g).bound slot5
    let t := inGroup g
    let r : LaneRun := { lane := 0, closed := [], expert := none, bseq := 0, partialClose := false }
    s.rgm.steps.find? (fun t => t.desc.ctx == 3 && (s.runOn t 0).isSome) = some t ∧ s.runOn t 0 = some (g, r) ∧ s.halted = false ∧
    t.frozen = false ∧ s.laneHeld 0 3 = false ∧ s.laneRoom 0 = true ∧
    s.writes t = true ∧ s.laneExpert t (s.mergeRing t g) r = some 0 ∧
    (match s.nextOf t (s.mergeRing t g) 0 0 ((t.laneSeq (s.mergeRing t g) 0 0).drop (tabGet 0 (s.mergeRing t g).sent 0)) with
      | .none => true
      | _ => false) = true ∧ t.batchEnd (s.mergeRing t g) = true ∧ s.ringMet t (s.mergeRing t g).layer 0 = true ∧
    ((s.after (.closePacketWrite 0 3)).lane 0).dq.map (·.token) = [false] := by decide +kernel

theorem wit_LanesCarryBatches_remote :
    let rc : RingRec := { (default : RingRec) with ctx := 3, step := 9, hdr := dispatchFlit 1 0 0 0 0x3F80 5 0 3 4 1 9 0, state := 1 }
    let s := layered { oneGroup with order := [(0, [(false, rc.handle)])] }
    let s := { s with ring := { s.ring with recs := [rc] } }
    (match (s.writers 0).findSome? (fun t => (s.due t 0).map (fun d => (t, d))) with
      | some (_, _, _, 0, .remote 0 0 _) => true
      | _ => false) = true ∧ s.laneOn 0 = true ∧ s.laneRoom 0 = true := by decide +kernel

theorem wit_LanesCarryBatches_parked :
    let r : LaneRun := { lane := 0, closed := [], expert := some 0, bseq := 0, partialClose := false }
    let s := (layered { oneGroup with lanes := [r] }).setF (aCtxCmd 3) 2 0 3
    let s := s.setCtx 3 { s.ctx 3 with parkCut := true }
    s.ctxState 3 = 3 ∧ (s.ctx 3).parkCut = true ∧ s.laneHeld 0 3 = false ∧ s.laneOn 0 = true ∧ s.laneRoom 0 = true ∧
    ((inGroup { oneGroup with lanes := [r] }).groups.isEmpty = false) ∧
    (s.rgm.steps.find? (fun t => t.desc.ctx == 3 && (s.runOn t 0).isSome)).isSome = true ∧
    ((s.after (.closePacketWrite 0 3)).lane 0).dq.map (·.token) = [false] := by decide +kernel

/-- A return header of kind k for slot 5: lines at an offset, BF16. -/
def retFlit (k ofs lines : Nat) : BitVec 256 :=
  sealFlit (k + 5 <<< 88 + 3 <<< 112 + lines <<< 128 + ofs <<< 144 + 9 <<< 160)

theorem wit_ReturnsEnterTheCarousel :
    let s := dispatching
    let h := retFlit 3 0 1
    s.laneOn 0 = true ∧ s.halted = false ∧ flitOk h = true ∧ flitOk (retFlit 4 0 0) = true ∧ hdrKind h = 3 ∧ hdrFmt h ≤ 2 ∧
    hdrOffset h % lineElems (hdrFmt h) = 0 ∧ hdrNline h = 1 ∧ s.isMine (handleOrigin (hdrHandle h)) = true ∧
    (s.matchReturn h).isSome = true ∧ 0 + 1 * lineElems (hdrFmt h) ≤ 64 ∧ (s.stepOf 3 9).isSome = true ∧
    slot5.full 0 2 = false ∧ (up3 0 0).matchReturn h = none ∧
    (s.rqFlow 0 []).2 = false ∧ (s.rqFlow 0 [⟨8192, 1, 0⟩]).2 = false ∧ (s.rqFlow 0 [⟨8193, 1, 0⟩]).2 = true ∧
    slot5.choices.all (fun c => !c.answered && !c.lined) = true ∧
    (s.after (.store 0 h (bs 128 0) 5 [] [])).car.slots.map (fun e => e.2.segs.map (·.tally)) = [[1, 1]] ∧
    (s.after (.withdraw 0 (retFlit 4 0 0) true [])).car.slots.map (fun e => (e.2.wdraw, e.2.segs.map (·.tally))) = [(true, [1, 1])] ∧
    (s.after (.fault 0 (retFlit 5 0 0) true [])).flag (aLanErr 0) 0 = true := by decide +kernel

theorem wit_ReturnsEnterTheCarousel_tokens :
    let g := { oneGroup with toks := [tok0 .admitted], closed := true, finish := [0] }
    let full := { slot5 with segs := List.replicate 2 ⟨1, true, List.replicate 32 (0, false)⟩ }
    let s := (layered g).bound full
    let m := (layered g).bound { slot5 with mixDue := true }
    let w := (layered g).bound { full with written := true }
    let late := { (layered g).bound slot5 with tclk := 6553500 }
    full.complete = true ∧ s.halted = false ∧ (s.worker 3).isSome = true ∧ slot5.segs.length * 32 = slot5.d ∧
    (s.stepOf 3 9).isSome = true ∧ ((inGroup g).groupAt 0).isSome = true ∧ g.mayCount = true ∧ (inGroup g).flagAt g 0 = none ∧
    g.finish.head? = some 0 ∧ (s.stepOf 3 9).any (fun t => (t.groupAt 0).isSome) = true ∧ slot5.full 0 slot5.segs.length = false ∧
    up.portShut = false ∧
    (m.after (.mixTermEnter 5 [])).car.slots.map (fun e => e.2.segs.map (·.tally)) = [[1, 1]] ∧
    (s.after (.tokenRelease 5)).car.slots.map (·.2.written) = [true] ∧ (w.after (.tokenCount 5)).car.slots = [] ∧
    (w.after (.tokenCount 5)).reg (aCtr 0) = 1 ∧ late.boundBy 3 9 ≠ 0 ∧ late.ctxState 3 = 2 ∧
    (inGroup g).frozen = false ∧ (inGroup g).waiting = false ∧ (inGroup g).abort = 0 ∧
    (inGroup g).lastProgress.toNat + late.f aCarStall 15 0 * 100 ≤ late.tclk ∧
    (late.after (.stepStall 3)).rgm.steps.map (·.abort) = [0x32] := by decide +kernel

theorem wit_LanesEnterAndLeaveService :
    let s := staffed (up3 0 0)
    let out := up.setIsl 127 1
    s.portShut = false ∧ s.dark = false ∧ s.islState 0 = 0 ∧ out.islState 127 = 1 ∧ (up.setIsl 127 2).islState 127 = 2 ∧
    s.mgt.tests = [] ∧ s.applying 7 = false ∧ (s.after (.laneOosReq 0)).flag (aLanCtrl 0) 8 = true ∧
    (out.after (.laneRtsReq 127)).flag (aLanCtrl 127) 9 = true ∧ ((s.queued [dpkt true 0 []]).after (.laneAbort 0)).islState 0 = 1 ∧
    (s.after (.lanCtWrite 0 4096)).f (aLanCt 0) 12 0 = 4096 ∧ (s.after (.lanCtWrite 0 4097)).outcome = 2 ∧
    (s.after (.lanWmWrite 0 true 8160)).outcome = 0 ∧ (s.after (.lanWmWrite 0 true 8161)).outcome = 2 ∧
    (s.after (.lanWmWrite 0 false 0)).outcome = 2 ∧ (s.after (.lanWmWrite 0 false 1)).outcome = 0 ∧
    ((up.setIsl 127 2).after (.laneRtsReq 127)).outcome = 2 ∧ (out.after (.laneAbort 127)).outcome = 0 ∧ (out.after (.lanBackWrite 127 0x4040)).outcome = 0 ∧
    (out.after (.lanBackWrite 127 0x41)).outcome = 2 ∧ (s.after (.lanBackWrite 0 0)).outcome = 2 := by decide +kernel

theorem wit_LanesEnterAndLeaveService_boundary :
    let s := (staffed (up3 0 0)).setF (aLanCtrl 0) 8 8 1
    let r := (staffed (up3 0 0)).setF (aLanCtrl 0) 9 0 0x201
    let out := s.setIsl 0 1
    let on := (staffed (up3 0 0)).setF (aLanCtrl 0) 9 9 1
    s.laneOn 0 = true ∧ s.flag (aLanCtrl 0) 8 = true ∧ (s.lane 0).dq = [] ∧ (s.lane 0).rqOcc = 0 ∧ s.laneOwes 0 = false ∧
    s.mgt.tests.contains 0 = false ∧ (s.laneOwner 0).all s.atBoundary = true ∧ (s.after (.laneLeaveService 0)).islState 0 = 1 ∧ r.laneOwner 0 = some 0 ∧
    r.islState 0 = 1 ∧ r.unitShut = false ∧ r.flag (aLanCtrl 0) 9 = true ∧ r.atBoundary 0 = true ∧
    (r.allocN 3 (r.f (aLanBack 0) 6 0 + r.f (aLanBack 0) 14 8) { ctx := 0, part := 0, partOnly := true } 1).1 = some [] ∧
    (r.after (.laneEnterService 0)).islState 0 = 0 ∧ out.islState 0 = 1 ∧ out.flag (aLanCtrl 0) 8 = true ∧
    (out.laneOwner 0).all out.atBoundary = true ∧ (out.after (.laneLeaveService 0)).flag (aLanCtrl 0) 8 = false ∧
    on.laneOwner 0 = some 0 ∧ on.islState 0 = 0 ∧ on.unitShut = false ∧ on.flag (aLanCtrl 0) 9 = true ∧ on.atBoundary 0 = true ∧
    (on.after (.laneEnterService 0)).flag (aLanCtrl 0) 9 = false ∧ (s.after (.laneIslandFault 0)).islState 0 ≠ 0 := by decide +kernel

theorem wit_ShadowsAndDeadlines :
    let w : ShadowWait := ⟨0, 5, 0x3F80, 0⟩
    let g := { oneGroup with toks := [{ tok0 .shadowed with settled := true }], shadowQ := [(0, [w])], closed := true }
    let s := (layered g).setF aShdCfg 12 0 1
    let b : ShadowBatch := { (default : ShadowBatch) with ctx := 3, step := 9, toks := [w] }
    let f := { layered g with shd := { (layered g).shd with formed := [(0, [b])] } }
    let r := { layered g with shd := { (layered g).shd with running := [(0, b)] } }
    s.worker 3 = some (inGroup g) ∧ s.f aShdCfg 12 0 ≤ 1 ∧ g.allQueued 0 = true ∧
    0 + ((layered g).setF aShdCfg 31 16 0).f aShdCfg 31 16 * 100 ≤ 0 ∧ (s.after (.shadowBatchForm 3 0)).shd.formed.map (·.1) = [0] ∧
    nextBatch ([b].filter (fun b => !f.parkDue b.ctx)) = some b ∧ f.arrayBusy 0 = false ∧ f.groupsIn 0 ≠ [] ∧ f.halted = false ∧
    (f.after (.shadowBatchRun 0)).shd.running.map (·.1) = [0] ∧ (r.after (.shadowBatchDone 0 0 [] [])).reg aShdCntToken = 1 ∧
    (r.groupsIn 0).contains (3 / 4 % 128 / 4) = true ∧ (r.after (.shadowBatchDone 0 3 [] [])).reg aScaCntRerun = 1 := by
  decide +kernel

theorem wit_ShadowsAndDeadlines_deadlines :
    let q := { step3 0 .running markProg with seqs := [(4, ⟨3, 0, 1, 7, 1, 1, 1⟩)], thr := 0xFFFF }
    let s := { (up.withSteps [q]).setF aDlmCtrl 0 0 1 with tb := 200000000 }
    let u := { step3 0 .running markProg with seqs := [(4, ⟨3, 0, 1, 0xFFFF, 1, 1, 1⟩)], seqDl := [(4, 900000)], thr := 0xFFFF }
    let v := { ((up3 0 1).withSteps [u]).setF aDlmCtrl 0 0 1 with tb := 4000 }
    s.halted = false ∧ 7 ∉ s.dlm.silent ∧ s.rgm.steps.any (fun t => t.phase != .queued && t.seqs.any (fun e => e.2.stream == 7)) = true ∧
    tabGet 0 s.dlm.last 7 + s.f aDlmCtrl 47 32 * 1000 ≤ s.tb ∧ 7 ∈ (s.after (.codecSilence 7)).dlm.silent ∧
    bitAt (7#64).toNat 28 = up.flag aDlmCtrl 1 ∧ (up.after (.codecStatusWord 7)).reg aDlmCntWord = 1 ∧
    (up.after (.codecStatusWord 0x20000007)).flag aDlmErr 0 = true ∧ s.flag aDlmCtrl 0 = true ∧ s.dlm.lastEval < s.tb / 2000 * 2000 ∧
    (v.rgm.steps.map (fun t => (t.desc.ctx, t.desc.step))).Nodup ∧ v.profile 3 = 1 ∧ v.deadline u = some 900000 ∧ v.flag aDlmCtrl 0 = true ∧
    v.dlm.lastEval < v.tb / 2000 * 2000 ∧ (v.after .deadlineEval).rgm.steps.map (·.slack) = [some (u.slackAt 4000 900000)] := by decide +kernel

/-- A placement of two chips, 0 and 5, in ring mode, whose expert 0 is this chip's and expert 1 chip 5's. -/
def ringed : Placement := { epoch := 7, down := 0, members := [0, 5], layers := [{ mode := 1, fctr := 0, fcount := 0, experts := [(0, false, 0), (1, false, 0)] }] }

/-- Context 3 runs a step of that placement behind a link, with buffers of class 3. -/
def ring3 : State :=
  let s := pooled 3
  let s := (s.setReg (aFabState 0) 14).withSteps [{ inGroup { oneGroup with toks := [tok0 .admitted] } with place := some ringed }]
  { s with fab := { s.fab with map := [0] } }

/-- An RHDR of chip 5 for expert 0: a token header, choice, BGEN, NCH and epoch. -/
def rhdr0 : Packet :=
  pk 3 0x28 5 0 3 0 0 (natLe 32 (dispatchFlit 1 0 (5 <<< 34) 0 0x3F80 5 0 3 4 1 9 0).toNat ++ natLe 2 1 ++ natLe 2 0 ++ natLe 4 1 ++ natLe 4 7 ++ bs 84 0)

theorem wit_RingsCarryRemoteChoices_owner :
    let s := ring3
    let t := s.after (.rhdr 0 rhdr0)
    let row := pk 3 0x29 5 0 3 (5 <<< 34) (9 <<< 9) (bs 128 1)
    let close := pk 3 0x2A 5 0 3 (1 <<< 22) 9 []
    let bare := { s with pol := up.pol }
    s.hears 0 rhdr0 = true ∧ s.ctxLoaded 3 = true ∧ s.ring.recs = [] ∧ (s.closeOf 3 9 5 0 0).isNone = true ∧
    (s.stepLow 3 32 9).isSome = true ∧ ((s.countRx 0 rhdr0).ringRoom 3 1).isSome = true ∧ t.ring.recs.map (·.src) = [5] ∧
    t.ring.recs.all (fun r => (s.stepLow 3 32 9).all (fun t => !s.ringRecBad t { r with state := 0, lines := [] })) = true ∧
    (t.after (.rhdr 0 rhdr0)).ctxState 3 = 7 ∧ ((bare.countRx 0 rhdr0).ringRoom 3 1).isNone = true ∧
    (bare.after (.rhdr 0 rhdr0)).ring.wait = [(0, rhdr0)] ∧
    s.hears 0 row = true ∧ s.ring.rows = [] ∧ pPoison row = false ∧ (s.stepLow 3 8 9).all (fun t => ringMember t.place (pSrc row)) = true ∧
    ((s.countRx 0 row).ringRoom 3 (pLen row)).isSome = true ∧ (s.after (.rrow 0 row)).ring.rows.map (·.lines.length) = [1] ∧
    ((bare.countRx 0 row).ringRoom 3 (pLen row)).isNone = true ∧ (bare.after (.rrow 0 row)).ring.wait = [(0, row)] ∧
    s.hears 0 close = true ∧ (s.stepLow 3 17 9).all (fun t => ringMember t.place 5) = true ∧ (s.recsFrom 3 9 5 0 0).length ≤ 1 ∧
    (s.after (.rclose 0 close)).ring.closes.map (·.count) = [1] := by decide +kernel

theorem wit_RingsCarryRemoteChoices_origin :
    let far := { slot5 with choices := slot5.choices.map (fun c => { c with expert := 1 }) }
    let s := ring3.bound far
    let store := pk 4 0x2C 5 0 3 5 9 (bs 128 0)
    let gone := pk 4 0x2D 5 0 3 5 9 []
    s.hears 0 store = true ∧ s.hears 0 gone = true ∧ (s.matchRing store).isSome = true ∧ (s.matchRing gone).isSome = true ∧
    ring3.matchRing store = none ∧ ring3.matchRing gone = none ∧ 0 + pLen store * lineElems 0 ≤ 64 ∧ far.full 0 2 = false ∧
    (s.after (.rstore 0 store [])).car.slots.map (fun e => e.2.segs.map (·.tally)) = [[1, 1]] ∧
    (s.after (.rwdraw 0 gone)).car.slots.map (·.2.wdraw) = [true] ∧ (ring3.after (.rwdraw 0 gone)).reg aCarCntStale = 1 := by decide +kernel


/-! ## Collectives, contexts, Waymark and the twin -/

/-- A group descriptor of group 2, context 3, members 0 and 5, at 0x4000, with buffers to be had. -/
def describing (n : Nat) : State :=
  let s := (pooled 5).setReg (aFabState 0) 14
  ({ s with fab := { s.fab with map := [0] } }.hbmWrite 0x4000
    (natLe 8 (2 + 3 <<< 16) ++ natLe 8 n ++ natLe 8 0x4100 ++ natLe 8 (14 + 1 <<< 16))).hbmWrite 0x4100 [0, 0, 5, 0]

theorem wit_CollectivesRun_groups :
    let s := describing 2
    s.tenantShut = false ∧ s.dark = false ∧ s.hbmPoisoned 0x4000 64 = false ∧ s.groupDesc 0x4000 = some (2, 3, [0, 5], 14, 0, 1) ∧
    s.group 2 = none ∧ s.ctxLoaded 3 = true ∧ s.srcOf 3 ∈ [0, 5] ∧ racksOk [0, 5] = true ∧
    s.portsIn.any (fun n => s.gen n ≥ 2) = true ∧ (s.allocSet 3 (groupBuffers [0, 5] 0 1)).1.isSome = true ∧
    tabFind s.col.joins 2 = none ∧ (describing 1).groupDesc 0x4000 = none ∧
    (s.after (.colGrpCreate 0x4000)).col.groups.map (·.1) = [2] ∧ ((describing 1).after (.colGrpCreate 0x4000)).outcome = 2 := by
  decide +kernel

theorem wit_CollectivesRun_submission :
    let g := windowed ((up3 0 0).hbmWrite 0x1000 reduceBytes).grouped
    (g.group 0).map (fun q => (q.run.isNone, q.queue)) = some (true, []) ∧ (g.after (.colGrpDelete 0)).col.groups = [] ∧
    g.group 4095 = none ∧ g.hbmPoisoned 0x1000 64 = false ∧ (g.colRequest (g.hbmRead 0x1000 64) 3 none [] 0).isLeft = true ∧
    ((g.after (.colSubmit (word (0x1000 + 3 <<< 48)))).group 0).map (·.seq) = some 7 := by decide +kernel

/-- One ordered collective of 64 FP32 elements, SEQ 6. -/
def colReq6 : ColReq :=
  { (default : ColReq) with seq := 6, ctx := 3, ordered := true, w := 1, segs := [⟨0x2000, 0x3000, 64⟩], nelem := 64 }

/-- Its run, and the group of members 0 and 5 that runs it. -/
def colRun6 : ColRun := { (default : ColRun) with req := colReq6, islands := [0] }

def group05 (run : Option ColRun) (queue : List ColReq) : ColGroup :=
  { (default : ColGroup) with
    ctx := 3, addr := 0x4000, members := [0, 5], lchunk := 14, gdig := 9, ready := true, queue := queue, run := run, seq := 7
    granted := [4], credit := [(4, 64)] }

def reducing (v : ColGroup) : State := { (up3 0 0).linked with col := { up.col with groups := [(0, v)] } }

theorem wit_CollectivesRun_packets :
    let s := reducing (group05 (some colRun6) [])
    let w := reducing { group05 none [] with ready := false }
    let join := pk 5 0x32 5 0 3 (9 <<< 12) 0 []
    let cred := pk 5 0x34 5 0 3 (3 <<< 24) 0 []
    let fail := pk 5 0x33 5 0 3 (6 <<< 12) 5 []
    s.hears 0 join = true ∧ (up3 0 0).group 0 = none ∧ s.hears 0 cred = true ∧ s.hears 0 fail = true ∧
    pSrc join = (group05 none []).members.getD ((w.rankIn (group05 none []) + 2 - 1) % 2) 0 ∧ fld (pAddr join) 43 12 = 9 ∧
    ((w.after (.cjoin 0 join)).group 0).map (·.ready) = some true ∧
    ((s.after (.ccred 0 cred)).group 0).map (fun v => tabGet 0 v.credit 4) = some 67 ∧
    ((s.after (.cfail 0 fail)).group 0).map (fun v => v.run.map (·.ended)) = some (some (some (5, true))) := by decide +kernel

theorem wit_CollectivesRun_pieces :
    let s := reducing (group05 (some colRun6) [])
    let data := bs 128 1
    let piece := fun (op first : Nat) => pk 5 op 5 0 3 (6 <<< 12 + first <<< 24) (1 <<< 7) (data ++ trailer (colDigest colReq6) 0 data)
    s.hears 0 (piece 0x30 0) = true ∧ s.hears 0 (piece 0x31 1) = true ∧ s.pieceFits (group05 none []) colReq6 (piece 0x30 0) = true ∧
    s.pieceFits (group05 none []) colReq6 (piece 0x31 1) = true ∧ s.pieceFits (group05 none []) colReq6 (piece 0x30 1) = false ∧
    s.pieceFits (group05 none []) colReq6 (piece 0x31 0) = false ∧ pPoison (piece 0x30 0) = false ∧
    residueOk (piece 0x30 0).data = true ∧ fieldAt (piece 0x30 0).data 128 4 = colDigest colReq6 ∧
    colReq6.seq % 4096 = fld (pAddr (piece 0x31 1)) 23 12 ∧ resBlock (group05 none []) colReq6 0 1 0 1 = (1, 2) ∧
    ((s.after (.cdata 0 (piece 0x30 0))).group 0).map (fun v => v.run.map (fun r => r.lines.map (·.2.1))) = some (some [data]) ∧
    ((s.after (.cres 0 (piece 0x31 1))).group 0).map (fun v => v.run.map (fun r => r.res.map (·.1))) = some (some [1]) := by
  decide +kernel

theorem wit_CollectivesRun_chain :
    let q := reducing (group05 none [colReq6])
    let late := { reducing (group05 (some { colRun6 with lastPiece := some 0 }) []) with tclk := 6553500000 }
    let over_ := reducing (group05 (some { colRun6 with fired := List.range 9 }) [])
    q.halted = false ∧ tabFind (group05 none []).fails 6 = none ∧ q.addersIn ≠ [] ∧ q.colPorts = true ∧ (group05 none []).early = [] ∧
    colReq6.trig = none ∧ ((q.after (.collectiveStart 0)).group 0).map (fun v => (v.queue, v.run.isSome)) = some ([], true) ∧
    (late.setF aColCtrl 15 0 1).f aColCtrl 15 0 ≠ 0 ∧ 0 + (late.setF aColCtrl 15 0 1).f aColCtrl 15 0 * 100000 ≤ late.tclk ∧
    chainDone (group05 none []) { colRun6 with fired := List.range 9 } 0 = true ∧ (over_.after (.collectiveEnd 0)).reg aColCntDone = 1 ∧
    (({ up with col := { up.col with counts := [(0, 65535)] } } : State).after (.collectiveCount 0)).reg (aCtr 65535) = 1 := by
  decide +kernel

/-- The first operation of that chain that can fire is sent, and the residue check of an addition that fails again and again
takes an island out. -/
theorem wit_CollectivesRun_trigger :
    let v := group05 (some colRun6) []
    let s := reducing v
    let ops := chainOps v colReq6 0
    s.halted = false ∧ s.rankIn v = 0 ∧
    (match nextColOp v colRun6 ops with
      | some (i, o) => o.act == 0 && (s.opValues colRun6 o).isSome && decide (tabGet 0 colRun6.prog i ≤ opPackets colReq6 o) &&
          (s.pickPort 0 (s.srcOf 3) ([0, 5].getD o.dst 0) 5).isSome && [4].contains (o.dst * 4 + roleOf o.phase) &&
          decide (o.phase ≠ 0 → 4 * opPackets colReq6 o ≤ 64) &&
          ((s.after (.collectiveTrigger 0 [])).group 0).any (fun v => v.run.any (fun r => r.fired.contains i))
      | none => false) = true ∧ adderRetries [2, 1] = (3, false) ∧ adderRetries [1, 3] = (3, true) := by
  decide +kernel

/-- Context 3 in a state of its life cycle. -/
def inState (n : Nat) : State := ((up3 0 0).withProg markProg).setF (aCtxCmd 3) 2 0 n

theorem wit_ContextsLiveTheirCycle_commands :
    let free := (inState 0).setReg (aCtxSavelen 3) 0xFFFFFF
    (inState 2).tenantShut = false ∧ (inState 2).dark = false ∧ free.ctxState 3 = 0 ∧ free.newest (free.f (aCtxCfg 3) 15 8) = some markProg ∧
    (free.loadCtx 3 markProg).isSome = true ∧ (free.after (.ctxLoad 3)).ctxState 3 = 1 ∧ ((inState 2).after (.ctxLoad 3)).outcome = 2 ∧
    ((inState 2).after (.ctxPark 3)).ctxState 3 = 3 ∧ ((inState 3).after (.ctxPark 3)).outcome = 2 ∧
    (((inState 4).versionOf 3).bind ((inState 4).bringWeights 3)).isSome = true ∧ ((inState 4).after (.ctxUnpark 3)).ctxState 3 = 5 ∧
    (inState 4).stepsOf 3 = 0 ∧ (inState 4).col.groups = [] ∧ ((inState 4).after (.ctxUnload 3)).ctxState 3 = 0 ∧
    ((inState 3).after (.ctxUnload 3)).outcome = 2 ∧ ((inState 5).after (.ctxTeardown 3)).ctxState 3 = 7 ∧
    ((inState 0).after (.ctxTeardown 3)).outcome = 2 := by decide +kernel

theorem wit_ContextsLiveTheirCycle_events :
    let s := inState 3
    let cut := s.setCtx 3 { s.ctx 3 with parkCut := true }
    let back := staffed (inState 5)
    let back := back.setCtx 3 { back.ctx 3 with saved := some [⟨slot5, []⟩] }
    s.halted = false ∧ ((inState 1).after (.ctxLoadDone 3)).ctxState 3 = 2 ∧ s.parkDue 3 = true ∧ (s.ctx 3).parkCut = false ∧
    s.arrayHolds 3 = false ∧ ((s.after (.parkBoundary 3)).ctx 3).parkCut = true ∧
    ({ (s.setF (aCtxCfg 3) 63 48 1).setCtx 3 { s.ctx 3 with parkAt := some 0 } with tb := 1001 } : State).parkDue 3 = true ∧
    (cut.ctx 3).parkCut = true ∧ cut.arrayHolds 3 = false ∧ cut.lanesQuiet 3 = true ∧
    (cut.after (.parkSaveDone 3 true)).ctxState 3 = 4 ∧ (cut.after (.parkSaveDone 3 false)).ctxState 3 = 7 ∧
    back.ctxState 3 = 5 ∧ [63].length = ((back.ctx 3).saved.getD []).length ∧ back.slotsFree (back.ctxPart 3) [63] = true ∧
    (back.after (.unparkDone 3 true [63])).car.slots.map (·.1) = [63] ∧
    back.hbmPoisoned (back.f (aCtxSave 3) 47 0) (back.liveBytes 3 [⟨slot5, []⟩]) = false ∧
    ({ back with hbmPoison := [0] } : State).hbmPoisoned 0 (back.liveBytes 3 [⟨slot5, []⟩]) = true ∧ (back.after (.unparkDone 3 false [])).ctxState 3 = 7 ∧
    (inState 7).tearing 3 = false ∧ ((inState 7).after (.teardownDone 3)).ctxState 3 = 0 := by decide +kernel

theorem wit_ContextsLiveTheirCycle_registers :
    let s := inState 2
    let v := s.reg (aCtxCfg 3)
    s.portShut = false ∧ s.dark = false ∧ s.applying 7 = false ∧ (s.after (.ctxCfgWrite 3 (v ||| 3))).outcome = 2 ∧
    (s.after (.ctxCfgWrite 3 (v &&& ~~~(word (fm 47 32))))).outcome = 2 ∧ (s.after (.ctxCfgWrite 3 (v ^^^ 256))).outcome = 2 ∧
    ((inState 0).after (.ctxCfgWrite 3 (v ^^^ 256))).outcome = 0 ∧ (s.after (.ctxCfgWrite 3 (v ||| (1 <<< 63)))).outcome = 0 ∧
    s.parBad 63 10 (mergeMask (s.reg (aParLaneLo 63 + 80)) 5 (parMask 10)) = false ∧ s.parBad 63 4 (mergeMask (s.reg (aParLaneLo 63 + 32)) 0 (parMask 4)) = true ∧
    ((staffed s).parBad 1 0 (mergeMask ((staffed s).reg (aParLaneLo 1)) 1 (parMask 0))) = true := by decide +kernel

theorem wit_RecordsAndLockStep_registers :
    let s := (up3 0 2).setReg aWayWptr 5
    let run := s.withSteps [step3 0 .running markProg]
    let p := s.setF aTwnState 2 0 2
    s.portShut = false ∧ s.dark = false ∧ s.rgm.steps.any (fun t => t.phase == .running) = false ∧
    run.rgm.steps.any (fun t => t.phase == .running) = true ∧ (s.after (.wayRingWrite (word (0x1000 + 24 <<< 48)))).reg aWayRptr = 5 ∧
    (s.after (.wayRingWrite (word (0x1000 + 25 <<< 48)))).outcome = 2 ∧ (s.after (.wayRingWrite (word (0x800 + 6 <<< 48)))).outcome = 2 ∧
    (run.after (.wayRingWrite 0)).outcome = 2 ∧ (s.after (.wayRptrWrite 5)).outcome = 0 ∧ (s.after (.wayRptrWrite 6)).outcome = 2 ∧
    p.profile 3 = 2 ∧ p.attached = true ∧ p.running 3 = none ∧ p.lsState 15 ≠ 2 ∧ p.flag (aWayLsCfg 15) 32 = false ∧
    (List.range 16).any (fun j => j != 15 && p.flag (aWayLsCfg j) 32 && p.f (aWayLsCfg j) 11 0 == 3) = false ∧
    (p.after (.lockstepCfgWrite 15 (word (3 + 1 <<< 32)))).lsState 15 = 1 := by decide +kernel

theorem wit_RecordsAndLockStep_records :
    let s := ((up.setReg aWayRing (word (0x1000 + 6 <<< 48))).setReg aWayWptr 64).setF aWayCtrl 0 0 0
    let s := { s with way := { s.way with ring := [(3, 9, bs 128 7)] } }
    let l := up.setReg aCfgLog (word (8191 <<< 1))
    let l := { l with way := { l.way with flash := [(bs 128 7, true)] } }
    s.f aWayRing 47 0 ≠ 0 ∧ s.ringFull = true ∧ s.flag aWayCtrl 0 = false ∧ (s.after .waymarkRingWrite).reg aWayRptr = 0 ∧
    (s.after .waymarkRingWrite).hbmRead 0x1000 2 = [7, 7] ∧ (l.after .flashLogWrite).f aCfgLog 0 0 = 1 ∧
    (l.after .flashLogWrite).reg aCfgCntLog = 1 := by decide +kernel

/-- Lock-step entry 0 watches context 3 with chip 5 as the twin, in a state. -/
def lockstep (e : LsEntry) : State :=
  let s := (((up3 0 2).linked.setF aTwnState 2 0 2).setF aTwnCtrl 13 0 5).setReg (aWayLsCfg 0) (word (3 + 3 <<< 16 + 1 <<< 32 + 1 <<< 33))
  let s := s.setCtx 3 { s.ctx 3 with lastStep := some 8 }
  { s.withSteps [step3 0 .running markProg] with way := { s.way with ls := [(0, e)] } }

theorem wit_RecordsAndLockStep_lockstep :
    let msgAt := fun (step kind : Nat) (body : Bytes) =>
      let d := natLe 1 kind ++ natLe 1 0 ++ natLe 2 0 ++ natLe 2 1 ++ natLe 2 0 ++ natLe 8 step ++ body
      pk 7 0x3B 5 0 3 9 0 (d ++ bs ((if kind == 0 || kind == 3 then 128 else 512) - d.length) 0)
    let msg := msgAt 9
    let mine := { ls0 with mine := some (9, 0, [1, 2, 3, 4], 0) }
    let d := natLe 8 1 ++ natLe 8 2 ++ natLe 8 3
    let same := msg 0 (d ++ natLe 8 4)
    let other := msg 0 (d ++ natLe 8 5)
    let s := lockstep mine
    s.hears 0 same = true ∧ s.lsFor same = some 0 ∧ s.lsState 0 = 1 ∧ s.lsExpected 3 9 = true ∧ s.lsExpected 3 8 = false ∧
    firstStage [1, 2, 3, 4] [1, 2, 3, 4] = none ∧ firstStage [1, 2, 3, 4] [1, 2, 3, 5] ≠ none ∧
    (s.after (.lscmpDigests 0 same)).reg aWayCntLslayer = 1 ∧ (s.after (.lscmpDigests 0 other)).lsState 0 = 2 ∧
    (((lockstep ls0).after (.lscmpDigests 0 same)).ls 0).early.length = 1 ∧ s.hears 0 (msg 1 d) = true ∧ s.lsFor (msg 1 d) = some 0 ∧
    ((s.after (.lscmpArray 0 (msg 1 d))).ls 0).peerTiles = [(0, (1, 2))] ∧ s.hears 0 (msgAt 8 1 d) = true ∧
    (s.after (.lscmpArray 0 (msgAt 8 1 d))).lsState 0 = 2 ∧ s.lsFor (msg 3 []) = some 0 ∧
    (s.after (.lscmpFreeze 0 (msg 3 []))).lsState 0 = 2 ∧
    0 + (s.setF aWayLsctrl 15 0 1).f aWayLsctrl 15 0 * 100000 ≤ 100000 ∧ (s.setF aWayLsctrl 15 0 1).f aWayLsctrl 15 0 ≠ 0 ∧
    (({ s.setF aWayLsctrl 15 0 1 with tclk := 100000 } : State).after (.lockstepTimeout 0)).f (aWayLsMm 0) 10 8 = 5 := by decide +kernel

/-- Chip 5 is the twin of a linked engine in a twin state. -/
def paired (n : Nat) : State := (((up3 0 0).linked.setF aTwnCtrl 13 0 5).setF aTwnCtrl 15 14 0).setF aTwnState 2 0 n

/-- A twin packet of chip 5. -/
def twinPk (op addr tag : Nat) (data : Bytes) : Packet := pk 7 op 5 0 0 addr tag data

/-- A control packet of chip 5: kind, XID, and a line that begins with some bytes. -/
def ctlPk (kind xid : Nat) (d : Bytes) : Packet := twinPk 0x39 kind xid (if d.isEmpty then [] else d ++ bs (128 - d.length) 0)

theorem wit_TwinsAttachAndMirror_state :
    let s := paired 0
    let asking := { s with tb := 1000000, twn := { s.twn with attreq := some 0 } }
    s.portShut = false ∧ s.dark = false ∧ bitAt (5#64).toNat 16 = false ∧ bitAt (5#64).toNat 15 = false ∧ s.twinState = 0 ∧
    (paired 4).twinState = 4 ∧ (paired 5).twinState = 5 ∧ ((paired 5).after (.twnAttach 5)).flag aTwnCtrl 14 = true ∧
    (s.after (.twnAttach 5)).twn.attreq = some 0 ∧ ((paired 2).after (.twnDetach 5)).twinState = 0 ∧
    ((paired 2).after .mclr).outcome = 2 ∧ asking.twn.attreq = some 0 ∧ 0 + 1000000 ≤ asking.tb ∧
    (asking.after .attreqRetry).twn.attreq = some 1000000 := by decide +kernel

/-- A transfer from the twin under XID 4, whole, of some data. -/
def arriving (ckpt : Bool) (d : Bytes) : XferIn :=
  { xid := 4, ckpt := ckpt, ctx := 3, step := 9, len := d.length, crc := crcN d, lines := [(0, d)], poison := false }

/-- A delta of context 3: 256 bytes with the flags given. -/
def deltaOf (flags : Nat) : Bytes := bs 4 0 ++ natLe 2 3 ++ bs 16 0 ++ natLe 1 flags ++ bs 105 0

theorem wit_TwinsAttachAndMirror_packets :
    let s := paired 0
    let p := paired 2
    let asking := { s with twn := { s.twn with attreq := some 0 } }
    let good := ctlPk 1 0 (natLe 2 1 ++ natLe 1 (s.f aGlbVer 7 0))
    let open_ := ctlPk 4 4 (natLe 1 0 ++ [0] ++ natLe 2 3 ++ natLe 4 128)
    let into := { p with twn := { p.twn with inc := [arriving false (deltaOf 2)] } }
    s.hears 0 good = true ∧ s.attachRefusal good = 0 ∧ s.attachRefusal (ctlPk 1 0 [1, 0, 0xFE]) ≠ 0 ∧
    s.hears 0 (ctlPk 2 0 [1]) = true ∧ s.fromTwin (ctlPk 2 0 [1]) = true ∧ asking.twn.attreq.isSome = true ∧
    s.hears 0 (ctlPk 8 0 [1]) = true ∧ p.hears 0 (ctlPk 3 0 []) = true ∧ p.twinUp = true ∧ p.hears 0 open_ = true ∧
    (s.after (.attreq 0 (ctlPk 1 0 [1, 0, 0xFE]))).flag aTwnErr 4 = true ∧ (asking.after (.attnak 0 (ctlPk 8 0 [1]))).twn.attreq = none ∧
    (p.after (.detach 0 (ctlPk 3 0 []))).twinState = 0 ∧ (p.after (.begin 0 open_)).twn.inc.map (fun t => (t.xid, t.len)) = [(4, 128)] ∧
    into.hears 0 (twinPk 0x38 0 4 (bs 128 7)) = true ∧
    (into.after (.tmir 0 (twinPk 0x38 0 4 (bs 128 7)))).twn.inc.map (fun t => t.lines) = [[(0, bs 128 7)]] := by decide +kernel

set_option maxRecDepth 100000 in
theorem wit_TwinsAttachAndMirror_commit :
    let p := paired 2
    let end_ := ctlPk 5 4 []
    let into := fun (t : XferIn) => ({ p.setF aTwnMirLen 15 0 3 with twn := { p.twn with inc := [t] } } : State)
    let bad := { arriving false (deltaOf 2) with crc := 0 }
    p.hears 0 end_ = true ∧ bad.whole = none ∧ (arriving false (deltaOf 2)).whole = some (deltaOf 2) ∧ deltaFlag (deltaOf 2) 1 = true ∧
    deltaFlag (deltaOf 2) 2 = false ∧ deltaFlag (deltaOf 4) 2 = true ∧ (arriving true (bs 128 1)).whole = some (bs 128 1) ∧
    (into bad).mirrorRoom (buffersFor 128) = some 1 ∧ ((into bad).after (.endDelta 0 end_)).twn.inc = [] ∧
    ((into (arriving true (bs 128 1))).after (.endDelta 0 end_)).mirrorOf 3 = { mirror0 with units := (1, 1) } := by decide +kernel

theorem wit_TwinsAttachAndMirror_acks :
    let p := paired 2
    let out := fun (ckpt : Bool) (n : Nat) => ({ p with twn := { p.twn with out := [{ (default : XferOut) with xid := 4, ckpt := ckpt, ctx := 3, sent := true, resent := n, data := bs 128 0 }] } } : State)
    let nak := ctlPk 7 4 [1]
    let s := windowed ((p.hbmWrite 0x1000 (natLe 8 3 ++ natLe 8 9 ++ natLe 8 0x2000 ++ natLe 8 128)).setCtx 3 { (p.ctx 3) with lastStep := some 9 })
    p.hears 0 (ctlPk 6 4 []) = true ∧ p.hears 0 nak = true ∧ ((out false 3).outOf nak).isSome = true ∧
    ((out false 0).after (.ack 0 (ctlPk 6 4 []))).reg aTwnCntDelta = 1 ∧ ((out true 0).after (.ack 0 (ctlPk 6 4 []))).reg aTwnCntCkpt = 1 ∧
    ((out false 2).after (.nak 0 nak)).twn.out.map (·.resent) = [3] ∧ ((out false 3).after (.nak 0 nak)).twinState = 0 ∧
    s.tenantShut = false ∧ s.dark = false ∧ s.hbmPoisoned 0x1000 32 = false ∧ ckptDescOk (s.hbmRead 0x1000 32) = true ∧ s.twinState = 2 ∧
    (s.ctx 3).lastStep = some 9 ∧ (s.ctx 3).ckpt = none ∧ s.checkLocal 3 0x2000 128 permCsrc false = none ∧
    (s.after (.twnCkpt (word (0x1000 + 3 <<< 48)))).outcome = 0 := by decide +kernel

theorem wit_TwinsWatchAndTakeOver_heartbeats :
    let p := (paired 2).setF aTwnState 3 3 1
    let s := { p with tb := 50010 }
    let m := { p with tb := 20000 + p.f aTwnHblat 15 0, twn := { p.twn with hbCount := 64, hbNext := 1 } }
    let q := { paired 3 with tclk := 100000 }
    let hb := pk 0 0x3A 5 0 0 1 0 []
    let l := { m with tb := 10000 + p.f aTwnHblat 15 0 }
    s.halted = false ∧ s.twinUp = true ∧ s.twn.hbSent ≠ s.tb / 10000 ∧ s.tb % 10000 ≤ 10 ∧ (s.after .heartbeatSlot).reg aTwnCntHbtx = 1 ∧
    m.tbLock = true ∧ 64 ≤ m.twn.hbCount ∧ m.closedSlot = some 1 ∧ (m.after .heartbeatMiss).f aTwnState 15 8 = 1 ∧
    ((m.setF aTwnState 15 8 4).after .heartbeatMiss).twinState = 3 ∧ q.twinState = 3 ∧ q.twn.lastSuspect + 100000 ≤ q.tclk ∧
    q.twn.holdoff ≤ q.tclk ∧ (q.after .suspectResend).twn.lastSuspect = 100000 ∧
    l.hears 0 hb = true ∧ l.fromTwin hb = true ∧ 2 * pAddr hb ∉ l.twn.hbSeen ∧ bitAt (pTag hb) 0 = false ∧
    (((l.tb : Int) - pAddr hb * 10000) - l.f aTwnHblat 15 0).natAbs ≤ 1000 ∧ (l.after (.thb 0 hb)).reg aTwnCntOntime = 1 := by decide +kernel

theorem wit_TwinsWatchAndTakeOver_manager :
    let fm := fun (k : Nat) => pk 0 0x3C 9 0 0 (k + 5 <<< 8) 0 []
    let s := reducing (group05 (some colRun6) [])
    [0x12, 0x13, 0x14, 0x15, 0x16].all (fun k => (paired 3).hears 0 (fm k)) = true ∧ (paired 3).twinState = 3 ∧ (paired 2).twinState = 2 ∧
    ((paired 3).after (.confirm 0 (fm 0x12))).f aTwnState 30 16 = 5 + 1 <<< 14 ∧ ((paired 3).after (.deny 0 (fm 0x13))).twinState = 2 ∧
    (s.group 0).isSome = true ∧ fld (pAddr (fm 0x15)) 21 8 = 5 ∧
    ((s.after (.lost 0 (fm 0x15))).group 0).map (fun v => (v.broken, v.run.map (·.ended))) = some (true, some (some (2, false))) := by
  decide +kernel

theorem wit_TwinsWatchAndTakeOver_time :
    let p := { (paired 2).setF aTwnState 3 3 1 with tclk := 10000000 }
    let d := { up.setF aTwnCtrl 31 24 1 with tclk := 100000, twn := { up.twn with discovering := some 0 } }
    p.twn.lastSync + 10000000 ≤ p.tclk ∧ p.tbLock = true ∧ (p.after .tsyncTimeout).flag aTwnErr 7 = true ∧
    0 + d.f aTwnCtrl 31 24 * 100000 ≤ d.tclk ∧ (d.after .twinDiscoveryExpire).f aPwrBoot 3 0 = 9 ∧
    ({ up with twn := { up.twn with synced := true } } : State).twn.synced = true ∧
    up.pwr.inReset = false ∧ up.linked.portsIn ≠ [] ∧ up.linked.twinState ≠ 5 ∧
    (up.linked.after (.tsync 0 40 50 10)).reg aTwnTbofs = 40 := by decide +kernel

theorem wit_TwinsWatchAndTakeOver_adopt :
    let s := ((paired 4).setReg aTwnMirBase 0x100000).withProg { markProg with profiles := 7 }
    let s := { s.hbmWrite (0x100000 + 64 * 7) (natLe 8 (1 + 5 <<< 32)) with
      twn := { s.twn with mirror := [(7, { mirror0 with entry := natLe 8 (1 <<< 32) ++ bs 88 0 })] } }
    let v : Word := word (7 + 4 <<< 16)
    let cfg := withFld (withFld (withFld (s.regN (aCtxCfg 4)) 1 0 0) 7 2 0) 15 8 1
    let s1 := ((s.setReg (aCtxCfg 4) (word (withFld cfg 47 32 1))).setReg (aCtxQuotaA 4) 0).setReg (aCtxQuotaB 4) 0
    let s1 := s1.setReg (aCtxSavelen 4) 0xFFFFFF
    s.tenantShut = false ∧ s.dark = false ∧ s.twinState = 4 ∧ s.hbmPoisoned (s.dirAt 7) 64 = false ∧ bitAt (s.dir 7 0) 0 = true ∧
    s.ctxState 4 = 0 ∧ s.seqClash (s.mirrorOf 7) = false ∧ (s.progOf (fld (s.dir 7 0) 63 32)).isSome = true ∧
    ((s1.loadCtx 4 markProg).bind (fun t => t.adoptTable 4 (s.mirrorOf 7).table)).isSome = true ∧
    ((s.setReg (aCtxSavelen 4) 0xFFFFFF).after (.twnAdopt v)).ctxState 4 = 1 := by decide +kernel


/-! ## What WellFormed refuses -/

/-- An ill-formed command for each check, which the check refuses: an index at the end of its range, a wrong opcode, kind, length or
payload. -/
theorem test_wellFormed_refuses :
    ([.arrivalCounterWrite 65536 0, .dbRing 64 0, .stepStart 4096, .exitCount 3 4194304, .slotBind 3 32768, .tokenPacketWrite 128,
      .closePacketWrite 3 4096, .lcmdUndefined 0 16, .laneDrop 128 true, .store 0 0 [1] 1 [] [], .store 0 0 [] 1 [(0, .acc 41 .clean)] [],
      .mixTermEnter 32768 [], .shadowBatchForm 3 2048, .codecSilence 4096, .refresh 512] : List Instr).all (fun c => !c.wellFormed) = true ∧
    ([.scoreTileStart 0 [] [.corrected 32], .scoreTileStart 0 [] [.stack 134217728 .clean], .shadowBatchDone 0 512 [] [],
      .tempSample [1, 2, 3] 0, .scrubRead 134217728 .clean [], .scrubRead 0 .clean [3], .rowRepair 0 512, .poolAlloc 6 0 0 0,
      .poolAlloc 0 0 0 5, .polOpAlloc 0 [(134217728, .clean)], .freeListRebuildDone 6,
      .linkUp 0 0, .linkUp 0 4, .linkUp 16 1, .msRequest 0 (pk 1 1 0 0 0 0 0 [1])] : List Instr).all (fun c => !c.wellFormed) = true ∧
    ([.requestTimeout 131072, .copyEnd 16384, .collectiveEnd 4096,
      .unparkDone 3 true [32768], .parWrite 0 11 0, .lockstepTimeout 16, .islandTakeOut 264, .powerStateRequest 1024,
      .entdaa 128 true, .rdreg 0x1000000, .logrd 0 4097, .updHdr 16 (bs 256 0), .bypass 2, .secchal [1], .wsel 512,
      .startUp ⟨true, [], [], [], []⟩, .startUp ⟨true, [], [(512, 0)], List.replicate 16 0, []⟩,
      .startUp ⟨true, [(65536, 0, 0)], [], List.replicate 16 0, []⟩,
      .startUp ⟨true, [], [], List.replicate 16 0, [128]⟩] : List Instr).all (fun c => !c.wellFormed) = true := by decide +kernel

theorem test_wellFormed_refuses_packets :
    let p := pk 1 1 5 0 3 0 7 []
    ([.rd 16 p, .wr 0 p, .rd 0 { p with data := [1] }, .attack 0 (ctlPk 1 0 []), .attreq 0 (ctlPk 2 0 []), .deny 0 (pk 0 0x3C 9 0 0 0x12 0 []),
      .i3cUpdWrite 0 [] true] : List Instr).all (fun (c : Instr) => !c.wellFormed) = true ∧
    ([.rd 0 p, .rd 15 p, .wr 0 (pk 1 2 5 0 3 0 7 (bs 128 0)), .attack 0 (ctlPk 2 0 []), .deny 0 (pk 0 0x3C 9 0 0 0x13 0 [])] : List Instr).all
      (fun (c : Instr) => c.wellFormed) = true := by decide +kernel

end Sys2Proof.Machine
end

section
/-! The register port: which accesses it refuses, where a write of a register goes, and what a plain write leaves. -/

namespace Sys2Proof.Machine

/-! ## Replies -/

/-- Where the port answers, the outcome of a reply is the one it was given, in two bits (R681). -/
theorem State.outcome_setReply (s : State) (w : Word) (o : Nat) (hd : s.dark = false) :
    (s.setReply w o).outcome = o % 4 := by
  rw [State.outcome, s.setReply_reply w o hd, BitVec.toNat_ofNat]
  omega

theorem State.outcome_refuse (s : State) (hd : s.dark = false) : s.refuse.outcome = 2 := s.outcome_setReply 0 2 hd

theorem State.outcome_done (s : State) (hd : s.dark = false) : s.done.outcome = 0 := s.outcome_setReply 0 0 hd

theorem State.sameMemory_refuse (s : State) : SameMemory s s.refuse := by simp [SameMemory]

/-! ## The register map -/

/-- A row holds an address: one of its registers stands there. -/
def RegRow.covers (r : RegRow) (a : Nat) : Bool :=
  r.base ≤ a && a < r.base + (if r.count == 1 then 1 else r.stride * r.count) &&
    (r.count == 1 || (a - r.base) % r.stride == 0)

/-- Software may write some bit of the row's registers (R13). -/
def RegRow.takesWrites (r : RegRow) : Bool := r.rw + r.w1c + r.act != 0

/-- The distance of a row's registers, 0 for a single one. -/
def RegRow.pitch (r : RegRow) : Nat := if r.count = 1 then 0 else r.stride

/-- The address behind a row's last register. -/
def RegRow.stop (r : RegRow) : Nat := r.base + (if r.count = 1 then 1 else r.stride * r.count)

/-- Two rows lie behind one another, or their addresses differ modulo what both pitches are multiples of. -/
def RegRow.apart (r q : RegRow) : Bool :=
  decide (r.stop ≤ q.base) || decide (q.stop ≤ r.base) || decide (¬ r.base ≡ q.base [MOD Nat.gcd r.pitch q.pitch])

theorem regRow_eq_find (a : Nat) : regRow a = regRows.find? (·.covers a) := rfl

theorem RegRow.covers_bounds {r : RegRow} {a : Nat} (h : r.covers a = true) : r.base ≤ a ∧ a < r.stop := by
  simp only [RegRow.covers, Bool.and_eq_true, decide_eq_true_eq, beq_iff_eq] at h
  exact h.1

theorem RegRow.covers_modEq {r : RegRow} {a : Nat} (h : r.covers a = true) : a ≡ r.base [MOD r.pitch] := by
  obtain ⟨hlo, hhi⟩ := RegRow.covers_bounds h
  unfold RegRow.stop at hhi
  unfold RegRow.pitch
  split
  · next h1 =>
    rw [if_pos h1] at hhi
    rw [show a = r.base by omega]
  · next h1 =>
    simp only [RegRow.covers, Bool.and_eq_true, Bool.or_eq_true, beq_iff_eq, h1, false_or] at h
    exact ((Nat.modEq_iff_dvd' hlo).2 (Nat.dvd_of_mod_eq_zero h.2)).symm

/-- Rows that lie apart hold no common address. -/
theorem RegRow.not_covers_of_apart {r q : RegRow} {a : Nat} (h : r.apart q = true) (hr : r.covers a = true) :
    q.covers a = false := by
  by_contra hq
  rw [Bool.not_eq_false] at hq
  have hrb := RegRow.covers_bounds hr
  have hqb := RegRow.covers_bounds hq
  simp only [RegRow.apart, Bool.or_eq_true, decide_eq_true_eq] at h
  obtain (h | h) | h := h
  · omega
  · omega
  · exact h (((RegRow.covers_modEq hr).symm.of_dvd (Nat.gcd_dvd_left _ _)).trans
      ((RegRow.covers_modEq hq).of_dvd (Nat.gcd_dvd_right _ _)))

/-- No register of the map is in a row that takes writes and in one that does not. -/
theorem regRows_apart : ∀ r ∈ regRows, r.takesWrites = true → ∀ q ∈ regRows, q.takesWrites = false → r.apart q = true := by
  decide +kernel

/-- A register that takes writes stands at an address. -/
def Writable (a : Nat) : Prop := ∃ r, regRow a = some r ∧ r.takesWrites = true

theorem writable_of_covers {r : RegRow} {a : Nat} (hr : r ∈ regRows) (hw : r.takesWrites = true)
    (hc : r.covers a = true) : Writable a := by
  unfold Writable
  rw [regRow_eq_find]
  cases hf : regRows.find? (·.covers a) with
  | none => exact absurd hc (List.find?_eq_none.1 hf r hr)
  | some q =>
    refine ⟨q, rfl, ?_⟩
    by_contra hq
    rw [Bool.not_eq_true] at hq
    have hqc : q.covers a = true := List.find?_some (p := (RegRow.covers · a)) hf
    have hqn := RegRow.not_covers_of_apart (regRows_apart r hr hw q (List.mem_of_find?_eq_some hf) hq) hc
    simp [hqc] at hqn

/-- Every register of an array whose row takes writes does. -/
theorem writable_of_array {base stride count n : Nat} (hs : 0 < stride) (hn : n < count)
    (hr : ∃ r ∈ regRows, r.base = base ∧ r.stride = stride ∧ r.count = count ∧ r.takesWrites = true) :
    Writable (base + stride * n) := by
  obtain ⟨r, hm, rfl, rfl, rfl, hw⟩ := hr
  refine writable_of_covers hm hw ?_
  have hlt : r.stride * n < r.stride * r.count := (Nat.mul_lt_mul_left hs).2 hn
  by_cases h1 : r.count = 1
  · obtain rfl : n = 0 := by omega
    simp [RegRow.covers, h1]
  · simpa [RegRow.covers, h1] using hlt

/-- The addresses of an array are its base and whole strides from it. -/
theorem inArray_iff {a base stride n : Nat} (hs : 0 < stride) :
    inArray a base stride n = true ↔ ∃ k < n, a = base + stride * k := by
  simp only [inArray, Bool.and_eq_true, decide_eq_true_eq, beq_iff_eq]
  constructor
  · rintro ⟨⟨hlo, hhi⟩, hm⟩
    have hd : stride * ((a - base) / stride) = a - base := Nat.mul_div_cancel' (Nat.dvd_of_mod_eq_zero hm)
    exact ⟨(a - base) / stride, (Nat.div_lt_iff_lt_mul hs).2 (by rw [Nat.mul_comm n]; omega), by omega⟩
  · rintro ⟨k, hk, rfl⟩
    have := (Nat.mul_lt_mul_left hs).2 hk
    exact ⟨⟨by omega, by omega⟩, by simp⟩

/-! ## What the port refuses -/

/-- Below the Casvin entries an address is its own (R755). -/
theorem aliasTarget_native {a : Nat} (h : a < 0xF00000) : aliasTarget a = a := by
  unfold aliasTarget
  simp (disch := simp only [beq_iff_eq, Bool.and_eq_true, decide_eq_true_eq]; omega) only [if_neg]

/-- An access that is not of 64 bits, is misaligned or lies outside the window is refused (R10). -/
theorem State.portRefuses_of_badAccess (s : State) {addr size : Nat} (a : Nat)
    (h : size ≠ 8 ∨ addr % 8 ≠ 0 ∨ 0x1000000 ≤ addr) : s.portRefuses addr size a = true := by
  simp only [State.portRefuses, Bool.or_eq_true, bne_iff_ne, decide_eq_true_eq]
  tauto

/-- Outside the blocks that answer early, the port takes no write before READY (R635). -/
theorem State.portShut_of_accepted {s : State} {a : Nat} (h : s.portRefuses a 8 a = false) (ha : 0x7000 ≤ a) :
    s.portShut = false := by
  have he : earlyBlock a = false := by simpa [earlyBlock] using ha
  simp only [State.portRefuses, Bool.or_eq_false_iff, he, Bool.not_false, Bool.and_true] at h
  tauto

/-- The port takes no write to a register of a section under apply (R738). -/
theorem State.not_applying_of_accepted {s : State} {a t : Nat} (h : s.portRefuses a 8 a = false) (ht : t < 12)
    (hm : sectionMask t a ≠ 0) : s.applying t = false := by
  simp only [State.portRefuses, Bool.or_eq_false_iff] at h
  have hh : s.applyHolds a = false := h.2
  simpa [hm] using List.any_eq_false.1 hh t (List.mem_range.2 ht)

/-- A write that the port refuses gets outcome 2 and nothing else. -/
theorem exec_registerWrite_refused {s : State} {addr size : Nat} (v : Word) (hd : s.dark = false)
    (h : s.portRefuses addr size (aliasTarget addr) = true) :
    exec (.registerWrite addr size v) s = .next s.refuse := by
  simp [exec, execRegisterWrite, hd, h]

/-- A write that the port accepts is a write of the register at the target. -/
theorem exec_registerWrite_accepted {s : State} {addr size : Nat} (v : Word) (hd : s.dark = false)
    (h : s.portRefuses addr size (aliasTarget addr) = false) :
    exec (.registerWrite addr size v) s =
      s.writeReg (aliasTarget addr) v (decide (0xF00100 ≤ addr) && decide (addr < 0xF00300)) := by
  simp [exec, execRegisterWrite, hd, h]

/-- Below the Casvin entries, a write that the port accepts is a write of the register at its own address. -/
theorem exec_registerWrite_native {s : State} {a : Nat} (v : Word) (hd : s.dark = false) (ha : a < 0xF00000)
    (h : s.portRefuses a 8 a = false) : exec (.registerWrite a 8 v) s = s.writeReg a v false := by
  have ht := aliasTarget_native ha
  rw [exec_registerWrite_accepted v hd (by rwa [ht]), ht, decide_eq_false (by omega : ¬ 0xF00100 ≤ a), Bool.false_and]

/-- A read where no register stands replies 0 (R11). -/
theorem State.readReg_unoccupied (s : State) {addr : Nat} (h8 : addr % 8 = 0) (hlt : addr < 0x1000000)
    (hn : regRow (aliasTarget addr) = none) : s.readReg addr = s.setReply 0 0 := by
  simp [State.readReg, h8, hlt, hn]

/-! ## Where a write goes -/

theorem State.writeReg_unoccupied (s : State) {a : Nat} (v : Word) (b : Bool) (h : regRow a = none) :
    s.writeReg a v b = .next s.refuse := by
  simp [State.writeReg, h]

theorem State.writeReg_readOnly (s : State) {a : Nat} {r : RegRow} (v : Word) (b : Bool) (h : regRow a = some r)
    (hw : r.rw + r.w1c + r.act = 0) : s.writeReg a v b = .next s.refuse := by
  simp [State.writeReg, h, hw]

/-- A register that takes writes: the operation found first, else a plain write. -/
theorem State.writeReg_of_row {s : State} {a : Nat} {v : Word} {b : Bool} {r : RegRow} (hr : regRow a = some r)
    (hw : r.rw + r.w1c + r.act ≠ 0) :
    s.writeReg a v b =
      (((s.earlyWrite a v).or (s.arrayWrite a v b)).or (s.unitWrite a v)).getD (.next (s.plainWrite r a v)) := by
  simp only [State.writeReg, hr, beq_iff_eq, if_neg hw]
  cases s.earlyWrite a v with
  | some o => rfl
  | none =>
    cases s.arrayWrite a v b with
    | some o => rfl
    | none => rfl

theorem State.writeReg_early {s : State} {a : Nat} {v : Word} {o : Out} (b : Bool) (hw : Writable a)
    (h : s.earlyWrite a v = some o) : s.writeReg a v b = o := by
  obtain ⟨r, hr, hrw⟩ := hw
  rw [State.writeReg_of_row hr (bne_iff_ne.1 hrw), h]
  rfl

theorem State.writeReg_array {s : State} {a : Nat} {v : Word} {o : Out} {b : Bool} (hw : Writable a)
    (he : s.earlyWrite a v = none) (h : s.arrayWrite a v b = some o) : s.writeReg a v b = o := by
  obtain ⟨r, hr, hrw⟩ := hw
  rw [State.writeReg_of_row hr (bne_iff_ne.1 hrw), he, h]
  rfl

theorem State.writeReg_unit {s : State} {a : Nat} {v : Word} {o : Out} {b : Bool} (hw : Writable a)
    (he : s.earlyWrite a v = none) (ha : s.arrayWrite a v b = none) (h : s.unitWrite a v = some o) :
    s.writeReg a v b = o := by
  obtain ⟨r, hr, hrw⟩ := hw
  rw [State.writeReg_of_row hr (bne_iff_ne.1 hrw), he, ha, h]
  rfl

theorem State.writeReg_plain {s : State} {a : Nat} {v : Word} {r : RegRow} {b : Bool} (hr : regRow a = some r)
    (hw : r.rw + r.w1c + r.act ≠ 0) (he : s.earlyWrite a v = none) (ha : s.arrayWrite a v b = none)
    (hu : s.unitWrite a v = none) : s.writeReg a v b = .next (s.plainWrite r a v) := by
  rw [State.writeReg_of_row hr hw, he, ha, hu]
  rfl

/-- The registers that act before READY lie in the early blocks. -/
theorem State.earlyWrite_none (s : State) {a : Nat} (v : Word) (h : 0x7000 ≤ a) : s.earlyWrite a v = none := by
  simp (disch := simp only [beq_iff_eq, aAtnAck, aPwrCtrl, aCfgUpdCtrl, aCfgApply, aCfgRd, aSecCmd, aSecCtrl, aMgtIslSel]; omega)
    only [State.earlyWrite, if_neg]

/-! ## Registers of arrays whose write is an operation -/

section Arrays

variable (s : State) (v : Word)

/-- The operation of an array's register under its own address, with the arrays' bounds and pitches as numbers. -/
theorem State.arrayWrite_native (a : Nat) :
    s.arrayWrite a v false =
      if 0x18000 ≤ a ∧ a < 0x20000 ∧ (a - 0x18000) % 512 = 0 then some (execDbRing ((a - 0x18000) / 512) v s)
      else if 0x18008 ≤ a ∧ a < 0x20008 ∧ (a - 0x18008) % 512 = 0 then some (execDbAbort ((a - 0x18008) / 512) v s)
      else if 0x1C000 ≤ a ∧ a < 0x20000 ∧ (a - 0x1C000) % 256 = 0 then some (execDb1Ring ((a - 0x1C000) / 256) v false s)
      else if 0x20000 ≤ a ∧ a < 0x30000 then some (.next (s.parReg ((a - 0x20000) / 1024) (a % 1024 / 8) v))
      else if 0x40000 ≤ a ∧ a < 0x80000 ∧ (a - 0x40000) % 64 = 0 then some (.next (s.ctxCfg ((a - 0x40000) / 64) v))
      else if 0x40008 ≤ a ∧ a < 0x80008 ∧ (a - 0x40008) % 64 = 0 then some (s.ctxCmd ((a - 0x40008) / 64) v)
      else if 0xC0000 ≤ a ∧ a < 0xE0000 ∧ (a - 0xC0000) % 1024 = 0 then some (.next (s.lanCtrl ((a - 0xC0000) / 1024) v))
      else if 0xC0008 ≤ a ∧ a < 0xE0008 ∧ (a - 0xC0008) % 1024 = 0 then some (.next (s.lanCt ((a - 0xC0008) / 1024) v))
      else if 0xC0010 ≤ a ∧ a < 0xE0010 ∧ (a - 0xC0010) % 1024 = 0 then
        some (.next (s.lanWm ((a - 0xC0010) / 1024) false v))
      else if 0xC0018 ≤ a ∧ a < 0xE0018 ∧ (a - 0xC0018) % 1024 = 0 then
        some (.next (s.lanWm ((a - 0xC0018) / 1024) true v))
      else if 0xC0020 ≤ a ∧ a < 0xE0020 ∧ (a - 0xC0020) % 1024 = 0 then some (.next (s.lanBack ((a - 0xC0020) / 1024) v))
      else if 0x140000 ≤ a ∧ a < 0x150000 ∧ (a - 0x140000) % 4096 = 0 then some (s.fabState ((a - 0x140000) / 4096) v)
      else if 0x178100 ≤ a ∧ a < 0x178300 ∧ (a - 0x178100) % 32 = 0 then some (.next (s.lsCfg ((a - 0x178100) / 32) v))
      else none := by
  simp only [State.arrayWrite, inArray, Bool.and_eq_true, decide_eq_true_eq, beq_iff_eq, and_assoc,
    Bool.false_eq_true, if_false]
  rfl

theorem State.arrayWrite_doorbell {p : Nat} (hp : p < 64) :
    s.arrayWrite (aDbRing p) v false = some (execDbRing p v s) ∧
    s.arrayWrite (aDbAbort p) v false = some (execDbAbort p v s) := by
  simp only [s.arrayWrite_native, aDbRing, aDbAbort]
  simp (disch := omega) only [if_neg, if_pos, Nat.add_sub_cancel_left, Nat.mul_div_cancel_left, and_self]

/-- The registers of even partitions are at the shared addresses, where DB_RING is met first (R736). -/
theorem State.arrayWrite_db1Ring {p : Nat} (hp : p < 64) (ho : p % 2 = 1) :
    s.arrayWrite (aDb1Ring p) v false = some (execDb1Ring p v false s) := by
  rw [s.arrayWrite_native, aDb1Ring]
  simp (disch := omega) only [if_neg, if_pos, Nat.add_sub_cancel_left, Nat.mul_div_cancel_left]

theorem State.arrayWrite_par {p reg : Nat} (hp : p < 64) (hr : reg < 11) :
    s.arrayWrite (aParLaneLo p + 8 * reg) v false = some (.next (s.parReg p reg v)) := by
  have hpart : (0x20000 + 0x400 * p + 8 * reg - 0x20000) / 1024 = p := by omega
  have hreg : (0x20000 + 0x400 * p + 8 * reg) % 1024 / 8 = reg := by omega
  rw [s.arrayWrite_native, aParLaneLo]
  simp (disch := omega) only [if_neg, if_pos, hpart, hreg]

theorem State.arrayWrite_ctx {x : Nat} (hx : x < 4096) :
    s.arrayWrite (aCtxCfg x) v false = some (.next (s.ctxCfg x v)) ∧
    s.arrayWrite (aCtxCmd x) v false = some (s.ctxCmd x v) := by
  simp only [s.arrayWrite_native, aCtxCfg, aCtxCmd]
  simp (disch := omega) only [if_neg, if_pos, Nat.add_sub_cancel_left, Nat.mul_div_cancel_left, and_self]

theorem State.arrayWrite_lane {n : Nat} (hn : n < 128) :
    s.arrayWrite (aLanCt n) v false = some (.next (s.lanCt n v)) ∧
    s.arrayWrite (aLanDqWm n) v false = some (.next (s.lanWm n false v)) ∧
    s.arrayWrite (aLanRqWm n) v false = some (.next (s.lanWm n true v)) ∧
    s.arrayWrite (aLanBack n) v false = some (.next (s.lanBack n v)) := by
  simp only [s.arrayWrite_native, aLanCt, aLanDqWm, aLanRqWm, aLanBack]
  simp (disch := omega) only [if_neg, if_pos, Nat.add_sub_cancel_left, Nat.mul_div_cancel_left, and_self]

theorem State.arrayWrite_lsCfg {i : Nat} (hi : i < 16) :
    s.arrayWrite (aWayLsCfg i) v false = some (.next (s.lsCfg i v)) := by
  rw [s.arrayWrite_native, aWayLsCfg]
  simp (disch := omega) only [if_neg, if_pos, Nat.add_sub_cancel_left, Nat.mul_div_cancel_left]

end Arrays

/-! ## Operations behind the port -/

section Operations

variable {s : State} (v : Word)

/-- Where the port answers, a command of an early block acts. -/
theorem State.early_eq (hd : s.dark = false) (k : State → State) : s.early k = .next (k s) := by
  simp [State.early, hd]

theorem execParWrite_open {p : Nat} (reg : Nat) (hp : p < 64) (hs : s.portShut = false) (ha : s.applying 7 = false) :
    execParWrite p reg v s = .next (s.parReg p reg v) := by
  simp [execParWrite, hp, hs, ha]

theorem execCtxCfgWrite_open {x : Nat} (hx : x < 4096) (hs : s.portShut = false) :
    execCtxCfgWrite x v s = .next (s.ctxCfg x v) := by
  simp [execCtxCfgWrite, hx, hs]

theorem execLanCtWrite_open {n : Nat} (hn : n < 128) (hs : s.portShut = false) (ha : s.applying 7 = false) :
    execLanCtWrite n v s = .next (s.lanCt n v) := by
  simp [execLanCtWrite, hn, hs, ha]

theorem execLanWmWrite_open {n : Nat} (rq : Bool) (hn : n < 128) (hs : s.portShut = false) (ha : s.applying 7 = false) :
    execLanWmWrite n rq v s = .next (s.lanWm n rq v) := by
  simp [execLanWmWrite, hn, hs, ha]

theorem execLanBackWrite_open {n : Nat} (hn : n < 128) (hs : s.portShut = false) (ha : s.applying 7 = false) :
    execLanBackWrite n v s = .next (s.lanBack n v) := by
  simp [execLanBackWrite, hn, hs, ha]

theorem execLockstepCfgWrite_inRange {i : Nat} (hi : i < 16) : execLockstepCfgWrite i v s = .next (s.lsCfg i v) := by
  simp [execLockstepCfgWrite, hi]

end Operations

/-! ## The registers that a live apply of section 7 holds (R652, R738) -/

theorem parMask_ne_zero (reg : Nat) : parMask reg ≠ 0 := by
  unfold parMask
  split_ifs <;> decide

/-- Section 7 supplies the PAR blocks and the lanes' counts, marks and backing (R652), the bounds as numbers. -/
theorem sectionMask_seven (a : Nat) :
    sectionMask 7 a =
      if 0x20000 ≤ a ∧ a < 0x30000 ∧ a % 1024 < 0x58 ∧ a % 8 = 0 then parMask (a % 1024 / 8)
      else if 0xC0020 ≤ a ∧ a < 0xE0020 ∧ (a - 0xC0020) % 1024 = 0 then fm 6 0 + fm 14 8
      else if 0xC0008 ≤ a ∧ a < 0xE0008 ∧ (a - 0xC0008) % 1024 = 0 then fm 12 0
      else if (0xC0010 ≤ a ∧ a < 0xE0010 ∧ (a - 0xC0010) % 1024 = 0) ∨
        (0xC0018 ≤ a ∧ a < 0xE0018 ∧ (a - 0xC0018) % 1024 = 0) then fm 19 0 + fm 51 32
      else 0 := by
  simp only [sectionMask, inArray, Bool.and_eq_true, Bool.or_eq_true, decide_eq_true_eq, beq_iff_eq, and_assoc]
  rfl

theorem sectionMask_par {p reg : Nat} (hp : p < 64) (hr : reg < 11) : sectionMask 7 (aParLaneLo p + 8 * reg) ≠ 0 := by
  rw [sectionMask_seven, aParLaneLo, if_pos (by omega)]
  exact parMask_ne_zero _

/-- The lane registers that the image supplies. -/
theorem sectionMask_lane {a n : Nat} (hn : n < 128)
    (ha : a = aLanCt n ∨ a = aLanDqWm n ∨ a = aLanRqWm n ∨ a = aLanBack n) : sectionMask 7 a ≠ 0 := by
  simp only [aLanCt, aLanDqWm, aLanRqWm, aLanBack] at ha
  rw [sectionMask_seven]
  split_ifs
  · exact parMask_ne_zero _
  · decide
  · decide
  · decide
  · omega

theorem writable_par {p reg : Nat} (hp : p < 64) (hr : reg < 11) : Writable (aParLaneLo p + 8 * reg) := by
  have hrow : ∀ reg < 11, ∃ r ∈ regRows, r.base = 0x20000 + 8 * reg ∧ r.stride = 1024 ∧ r.count = 64 ∧ r.takesWrites = true := by
    decide +kernel
  have ha : aParLaneLo p + 8 * reg = 0x20000 + 8 * reg + 1024 * p := by unfold aParLaneLo; omega
  exact ha ▸ writable_of_array (by decide) hp (hrow reg hr)

/-! ## A register's write is its row's command (R12, R736) -/

/-- A write of a register that the port accepts is a command. -/
def State.RunsAs (s : State) (v : Word) (a : Nat) (c : Instr) : Prop :=
  s.portRefuses a 8 a = false → exec (.registerWrite a 8 v) s = exec c s

section Rows

variable {s : State} (v : Word) (hd : s.dark = false)

include hd

/-- A register of a block that answers early. -/
theorem runsAs_of_early {a : Nat} {c : Instr} (hhi : a < 0xF00000) (hw : Writable a)
    (he : s.earlyWrite a v = some (exec c s)) : s.RunsAs v a c := fun h => by
  rw [exec_registerWrite_native v hd hhi h, State.writeReg_early false hw he]

/-- A register of an array outside the early blocks. -/
theorem runsAs_of_array {a : Nat} {c : Instr} (hlo : 0x7000 ≤ a) (hhi : a < 0xF00000) (hw : Writable a)
    (ha : s.portRefuses a 8 a = false → s.arrayWrite a v false = some (exec c s)) : s.RunsAs v a c := fun h => by
  rw [exec_registerWrite_native v hd hhi h, State.writeReg_array hw (s.earlyWrite_none v hlo) (ha h)]

/-- A single register outside the early blocks. -/
theorem runsAs_of_unit {a : Nat} {c : Instr} (hlo : 0x7000 ≤ a) (hhi : a < 0xF00000) (hw : Writable a)
    (ha : s.arrayWrite a v false = none) (hu : s.unitWrite a v = some (exec c s)) : s.RunsAs v a c := fun h => by
  rw [exec_registerWrite_native v hd hhi h, State.writeReg_unit hw (s.earlyWrite_none v hlo) ha hu]

theorem runsAs_dbRing {p : Nat} (hp : p < 64) : s.RunsAs v (aDbRing p) (.dbRing p v) :=
  runsAs_of_array v hd (by unfold aDbRing; omega) (by unfold aDbRing; omega)
    (writable_of_array (by decide) hp (by decide +kernel)) fun _ => (s.arrayWrite_doorbell v hp).1

theorem runsAs_dbAbort {p : Nat} (hp : p < 64) : s.RunsAs v (aDbAbort p) (.dbAbort p v) :=
  runsAs_of_array v hd (by unfold aDbAbort; omega) (by unfold aDbAbort; omega)
    (writable_of_array (by decide) hp (by decide +kernel)) fun _ => (s.arrayWrite_doorbell v hp).2

theorem runsAs_db1Ring {p : Nat} (hp : p < 64) (ho : p % 2 = 1) : s.RunsAs v (aDb1Ring p) (.db1Ring p v false) :=
  runsAs_of_array v hd (by unfold aDb1Ring; omega) (by unfold aDb1Ring; omega)
    (writable_of_array (by decide) hp (by decide +kernel)) fun _ => s.arrayWrite_db1Ring v hp ho

theorem runsAs_parWrite {p reg : Nat} (hp : p < 64) (hr : reg < 11) :
    s.RunsAs v (aParLaneLo p + 8 * reg) (.parWrite p reg v) := by
  have hlo : 0x7000 ≤ aParLaneLo p + 8 * reg := by unfold aParLaneLo; omega
  have hhi : aParLaneLo p + 8 * reg < 0xF00000 := by unfold aParLaneLo; omega
  refine runsAs_of_array v hd hlo hhi (writable_par hp hr) fun h => ?_
  rw [s.arrayWrite_par v hp hr, ← execParWrite_open v reg hp (State.portShut_of_accepted h hlo)
    (State.not_applying_of_accepted h (by decide) (sectionMask_par hp hr))]
  rfl

theorem runsAs_ctxCfgWrite {x : Nat} (hx : x < 4096) : s.RunsAs v (aCtxCfg x) (.ctxCfgWrite x v) := by
  have hlo : 0x7000 ≤ aCtxCfg x := by unfold aCtxCfg; omega
  refine runsAs_of_array v hd hlo (by unfold aCtxCfg; omega) (writable_of_array (by decide) hx (by decide +kernel)) fun h => ?_
  rw [(s.arrayWrite_ctx v hx).1, ← execCtxCfgWrite_open v hx (State.portShut_of_accepted h hlo)]
  rfl

/-- A write of CTX_CMD runs the command that its CMD names. -/
theorem runsAs_ctxCmd {x : Nat} {c : Instr} (hx : x < 4096) (hc : s.ctxCmd x v = exec c s) : s.RunsAs v (aCtxCmd x) c :=
  runsAs_of_array v hd (by unfold aCtxCmd; omega) (by unfold aCtxCmd; omega)
    (writable_of_array (by decide) hx (by decide +kernel)) fun _ => by rw [(s.arrayWrite_ctx v hx).2, hc]

/-- A write of a lane's register runs a command that acts as the register does while the port is open. -/
theorem runsAs_lane {a n : Nat} {c : Instr} {t : State} (hn : n < 128)
    (ha : a = aLanCt n ∨ a = aLanDqWm n ∨ a = aLanRqWm n ∨ a = aLanBack n) (hw : Writable a)
    (har : s.arrayWrite a v false = some (.next t))
    (hc : s.portShut = false → s.applying 7 = false → exec c s = .next t) : s.RunsAs v a c := by
  have hb : 0x7000 ≤ a ∧ a < 0xF00000 := by
    simp only [aLanCt, aLanDqWm, aLanRqWm, aLanBack] at ha
    omega
  refine runsAs_of_array v hd hb.1 hb.2 hw fun h => ?_
  rw [har, hc (State.portShut_of_accepted h hb.1) (State.not_applying_of_accepted h (by decide) (sectionMask_lane hn ha))]

theorem runsAs_lanes {n : Nat} (hn : n < 128) :
    s.RunsAs v (aLanCt n) (.lanCtWrite n v) ∧ s.RunsAs v (aLanDqWm n) (.lanWmWrite n false v) ∧
    s.RunsAs v (aLanRqWm n) (.lanWmWrite n true v) ∧ s.RunsAs v (aLanBack n) (.lanBackWrite n v) := by
  obtain ⟨hct, hdq, hrq, hback⟩ := s.arrayWrite_lane v hn
  exact ⟨runsAs_lane v hd hn (.inl rfl) (writable_of_array (by decide) hn (by decide +kernel)) hct (execLanCtWrite_open v hn),
    runsAs_lane v hd hn (.inr (.inl rfl)) (writable_of_array (by decide) hn (by decide +kernel)) hdq
      (execLanWmWrite_open v false hn),
    runsAs_lane v hd hn (.inr (.inr (.inl rfl))) (writable_of_array (by decide) hn (by decide +kernel)) hrq
      (execLanWmWrite_open v true hn),
    runsAs_lane v hd hn (.inr (.inr (.inr rfl))) (writable_of_array (by decide) hn (by decide +kernel)) hback
      (execLanBackWrite_open v hn)⟩

theorem runsAs_lockstepCfgWrite {i : Nat} (hi : i < 16) : s.RunsAs v (aWayLsCfg i) (.lockstepCfgWrite i v) :=
  runsAs_of_array v hd (by unfold aWayLsCfg; omega) (by unfold aWayLsCfg; omega)
    (writable_of_array (by decide) hi (by decide +kernel)) fun _ => by
      rw [s.arrayWrite_lsCfg v hi, ← execLockstepCfgWrite_inRange v hi]
      rfl

theorem runsAs_cfgApply : s.RunsAs v aCfgApply (.cfgApply v) :=
  runsAs_of_early v hd (by decide) ⟨_, rfl, rfl⟩ (congrArg some (State.early_eq hd (·.cfgApplyOp v)).symm)

theorem runsAs_cfgRd : s.RunsAs v aCfgRd (.cfgRd v) :=
  runsAs_of_early v hd (by decide) ⟨_, rfl, rfl⟩ (congrArg some (State.early_eq hd (·.cfgRdOp v)).symm)

theorem runsAs_atnAck : s.RunsAs v aAtnAck (.atnAck v) :=
  runsAs_of_early v hd (by decide) ⟨_, rfl, rfl⟩ (congrArg some (State.early_eq hd (·.ackTo (fld v.toNat 15 0) 1)).symm)

/-- The single registers, each by its address. -/
theorem runsAs_unit : s.RunsAs v aRgmPloadCtrl (.programLoad v) ∧ s.RunsAs v aMsfCpy (.msfCpy v) ∧
    s.RunsAs v aColSubmit (.colSubmit v) ∧ s.RunsAs v aTwnCkpt (.twnCkpt v) ∧ s.RunsAs v aTwnAdopt (.twnAdopt v) ∧
    s.RunsAs v aWayRing (.wayRingWrite v) ∧ s.RunsAs v aWayRptr (.wayRptrWrite v) :=
  ⟨runsAs_of_unit v hd (by decide) (by decide) ⟨_, rfl, rfl⟩ rfl rfl,
    runsAs_of_unit v hd (by decide) (by decide) ⟨_, rfl, rfl⟩ rfl rfl,
    runsAs_of_unit v hd (by decide) (by decide) ⟨_, rfl, rfl⟩ rfl rfl,
    runsAs_of_unit v hd (by decide) (by decide) ⟨_, rfl, rfl⟩ rfl rfl,
    runsAs_of_unit v hd (by decide) (by decide) ⟨_, rfl, rfl⟩ rfl rfl,
    runsAs_of_unit v hd (by decide) (by decide) ⟨_, rfl, rfl⟩ rfl rfl,
    runsAs_of_unit v hd (by decide) (by decide) ⟨_, rfl, rfl⟩ rfl rfl⟩

end Rows

/-! ## Plain registers -/

section Plain

variable {s : State}

/-- A value that the register takes is stored, with what follows; the value it holds changes nothing. -/
theorem State.plainWrite_taken {r : RegRow} {a : Nat} {v new : Word}
    (hn : new = mergeMask (s.reg a) v r.rw &&& ~~~(v &&& word r.w1c)) (hl : s.lowBad a new.toNat = false)
    (hh : s.highBad a new.toNat = false) :
    s.plainWrite r a v = (if new = s.reg a then s else (s.setReg a new).afterWrite a).done := by
  subst hn
  simp only [State.plainWrite, hl, hh, Bool.or_self, Bool.false_eq_true, if_false, beq_iff_eq]
  split_ifs
  · rfl
  · rfl

/-- Outside the registers with a follow-up, a write leaves at most an emptied ownership cache beside the register. -/
theorem State.afterWrite_setFab (s : State) {a : Nat} (hp : ∀ c < 6, a ≠ aPolThr c ∧ a ≠ aPolHyst c) (hm : a ≠ aMgtRownom)
    (hc : ∀ x < 4096, a ≠ aCtxQuotaA x ∧ a ≠ aCtxQuotaB x ∧ a ≠ aCtxPlace x) :
    ∃ f : Fab, s.afterWrite a = { s with fab := f } := by
  have hpol : ¬ (inArray a (aPolThr 0) 64 6 || inArray a (aPolHyst 0) 64 6) = true := by
    rw [Bool.or_eq_true, inArray_iff (by decide), inArray_iff (by decide)]
    rintro (⟨c, hlt, he⟩ | ⟨c, hlt, he⟩)
    · exact (hp c hlt).1 he
    · exact (hp c hlt).2 he
  have hctx : ¬ (inArray a (aCtxQuotaA 0) 64 4096 || inArray a (aCtxQuotaB 0) 64 4096 ||
      inArray a (aCtxPlace 0) 64 4096) = true := by
    rw [Bool.or_eq_true, Bool.or_eq_true, inArray_iff (by decide), inArray_iff (by decide), inArray_iff (by decide)]
    rintro ((⟨x, hlt, he⟩ | ⟨x, hlt, he⟩) | ⟨x, hlt, he⟩)
    · exact (hc x hlt).1 he
    · exact (hc x hlt).2.1 he
    · exact (hc x hlt).2.2 he
  unfold State.afterWrite
  rw [if_neg hpol, if_neg (by simpa using hm), if_neg hctx]
  split
  · exact ⟨_, rfl⟩
  · exact ⟨s.fab, rfl⟩

/-- A write of a register other than PWR_STATE and PWR_BOOT leaves whether anything answers. -/
theorem State.dark_setReg (s : State) {a : Nat} (v : Word) (h1 : a ≠ aPwrState) (h2 : a ≠ aPwrBoot) :
    (s.setReg a v).dark = s.dark := by
  simp only [State.dark, State.retains, State.f, State.regN, s.reg_setReg_other v h1.symm, s.reg_setReg_other v h2.symm,
    State.setReg_pwr]

/-- PWR_STATE and PWR_BOOT hold only RO fields, so no plain write is theirs. -/
theorem ne_pwr_of_plain {a : Nat} {r : RegRow} (hr : regRow a = some r) (hw : r.rw + r.w1c ≠ 0) :
    a ≠ aPwrState ∧ a ≠ aPwrBoot := by
  have hstate : regRow aPwrState = some ⟨0x003000, 0, 1, 0, 0, 0, 0⟩ := rfl
  have hboot : regRow aPwrBoot = some ⟨0x003010, 0, 1, 0, 0, 0, 0⟩ := rfl
  constructor
  · rintro rfl
    rw [hstate] at hr
    cases hr
    exact hw rfl
  · rintro rfl
    rw [hboot] at hr
    cases hr
    exact hw rfl

/-- What is left where at most the register at `a` and the fabric's state differ. -/
theorem State.done_setReg_setFab (s : State) {a : Nat} (new : Word) (f : Fab)
    (hd : (s.setReg a new).dark = false) :
    let t := ({ s.setReg a new with fab := f } : State).done
    t.reg a = new ∧ SameRegsBut [a] s t ∧ SameMemory s t ∧ t.rgm = s.rgm ∧ t.outcome = 0 := by
  have hreg (b : Nat) : ({ s.setReg a new with fab := f } : State).reg b = (s.setReg a new).reg b := State.reg_congr rfl b
  refine ⟨?_, fun b hb => ?_, ?_, ?_, State.outcome_done _ hd⟩
  · rw [State.reg_done, hreg, State.reg_setReg_same]
  · rw [State.reg_done, hreg, s.reg_setReg_other new (by simpa using hb)]
  · simp [SameMemory]
  · simp

end Plain

/-! ## The claims -/

/-- Settles O9: an access that the port does not accept reaches no register (R10), and an accepted one meets an address
without a row (R11) or a row of RO fields (R13). -/
theorem unoccupiedAddressesRefuseWrites : Obligations.UnoccupiedAddressesRefuseWrites := by
  intro s addr size v hd
  refine ⟨fun h => ⟨?_, s.outcome_refuse hd, fun a _ => s.reg_refuse a, s.sameMemory_refuse⟩, fun h8 hlt hn => ?_⟩
  · cases hp : s.portRefuses addr size (aliasTarget addr) with
    | true => exact exec_registerWrite_refused v hd hp
    | false =>
      have hbad (hb : size ≠ 8 ∨ addr % 8 ≠ 0 ∨ 0x1000000 ≤ addr) : False := by
        simp [s.portRefuses_of_badAccess (aliasTarget addr) hb] at hp
      rw [exec_registerWrite_accepted v hd hp]
      obtain h | h | h | h | ⟨r, hr, hw⟩ := h
      · exact (hbad (.inl h)).elim
      · exact (hbad (.inr (.inl h))).elim
      · exact (hbad (.inr (.inr h))).elim
      · exact s.writeReg_unoccupied v _ h
      · exact s.writeReg_readOnly v _ hr hw
  · rw [s.readReg_unoccupied h8 hlt hn, s.setReply_reply 0 0 hd, s.outcome_setReply 0 0 hd]
    exact ⟨rfl, rfl⟩

/-- Settles O10: such a write is the plain write of its row; the value it holds changes nothing (log 76), and outside the
registers named, the follow-up empties at most the ownership cache (log 105). -/
theorem plainRegistersTakeWrites : Obligations.PlainRegistersTakeWrites := by
  intro s a v r new hd ha hp hr hw he harr hu hn hl hh
  have hact : r.rw + r.w1c + r.act ≠ 0 := by omega
  refine ⟨_, ?_, rfl, fun hpol hrow hctx => ?_⟩
  · rw [exec_registerWrite_native v hd ha hp, State.writeReg_plain hr hact he harr hu, State.plainWrite_taken hn hl hh]
  · split
    · next heq =>
      exact ⟨by rw [State.reg_done, heq], fun b _ => s.reg_done b, by simp [SameMemory], s.done_rgm, s.outcome_done hd⟩
    · obtain ⟨hstate, hboot⟩ := ne_pwr_of_plain hr hw
      obtain ⟨f, hf⟩ := (s.setReg a new).afterWrite_setFab hpol hrow hctx
      rw [hf]
      exact s.done_setReg_setFab new f ((s.dark_setReg new hstate hboot).trans hd)

/-- Settles O11: each register by its own lemma; CTX_CMD by the command that its CMD names. -/
theorem operationRegistersRunTheirRow : Obligations.OperationRegistersRunTheirRow := by
  intro s v hd W
  obtain ⟨hpload, hcpy, hsubmit, hckpt, hadopt, hring, hrptr⟩ := runsAs_unit v hd
  refine ⟨hpload, hcpy, hsubmit, hckpt, hadopt, hring, hrptr, runsAs_cfgApply v hd, runsAs_cfgRd v hd, runsAs_atnAck v hd,
    fun p hp => ⟨runsAs_dbRing v hd hp, runsAs_dbAbort v hd hp, runsAs_db1Ring v hd hp,
      fun reg hr => runsAs_parWrite v hd hp hr⟩,
    fun x hx => ⟨runsAs_ctxCfgWrite v hd hx,
      fun h => runsAs_ctxCmd v hd hx (by rw [State.ctxCmd, h]; rfl),
      fun h => runsAs_ctxCmd v hd hx (by rw [State.ctxCmd, h]; rfl),
      fun h => runsAs_ctxCmd v hd hx (by rw [State.ctxCmd, h]; rfl),
      fun h => runsAs_ctxCmd v hd hx (by rw [State.ctxCmd, h]; rfl),
      fun h => runsAs_ctxCmd v hd hx (by rw [State.ctxCmd, h]; rfl)⟩,
    fun n hn => runsAs_lanes v hd hn, fun i hi => runsAs_lockstepCfgWrite v hd hi⟩

end Sys2Proof.Machine
end

section
/-! What goes along with the work of the scoring array and the select unit: registers it does not speak of, attention, the
management island, output memory, and fields of the steps that neither tiles nor rounds read. -/

namespace Sys2Proof.Machine

/-! ## Incidental changes -/

/-- Registers that the scoring array and the select unit answer for: their retries and reruns, SEL_ERR, and the tokens of
the layers closed. -/
def scoringRegs : List Nat := [aScaCntRetry, aScaCntRerun, aSelErr, aSelCntToken]

theorem not_scoring_of_lt {a : Nat} (h : a < 0xE0028) : a ∉ scoringRegs := by
  simp only [scoringRegs, aScaCntRetry, aScaCntRerun, aSelErr, aSelCntToken, List.mem_cons, List.not_mem_nil, or_false]
  omega

theorem scoring_bounds {a : Nat} (h : a ∈ scoringRegs) : 0xE0028 ≤ a ∧ a < 0x100000 := by
  simp only [scoringRegs, aScaCntRetry, aScaCntRerun, aSelErr, aSelCntToken, List.mem_cons, List.not_mem_nil, or_false] at h
  omega

/-- What tiles, rounds and the close read and set in a layer group. -/
structure Group.Gist where
  layer : Nat
  tile : Option Tile
  tilesRun : Nat
  untiled : List Nat
  scored : List (List Scored)
  round : Nat
  closed : Bool
  indices : List Nat

def Group.gist (g : Group) : Group.Gist :=
  { layer := g.layer, tile := g.tile, tilesRun := g.tilesRun, untiled := g.untiled, scored := g.scored, round := g.round,
    closed := g.closed, indices := g.toks.map (·.index) }

/-- What identifies a step, where it stands among its ops, and what its layer group shows. -/
structure Step.Gist where
  desc : Desc
  op : Nat
  waiting : Bool
  backRows : Nat
  group : Option Group.Gist

def Step.gist (t : Step) : Step.Gist :=
  { desc := t.desc, op := t.op, waiting := t.waiting, backRows := t.backRows, group := t.group.map Group.gist }

/-- The scoring registers, the stack and the power state are kept. -/
structure Keeps (s t : State) : Prop where
  regs : ∀ a ∈ scoringRegs, t.reg a = s.reg a
  stk : t.stk = s.stk
  pwr : t.pwr = s.pwr

/-- Besides these, the steps are the same in what their gists show. -/
structure Incidental (s t : State) : Prop extends Keeps s t where
  gists : t.rgm.steps.map Step.gist = s.rgm.steps.map Step.gist

theorem Keeps.refl (s : State) : Keeps s s := ⟨fun _ _ => rfl, rfl, rfl⟩

theorem Keeps.trans {s t u : State} (h : Keeps s t) (k : Keeps t u) : Keeps s u :=
  ⟨fun a ha => (k.regs a ha).trans (h.regs a ha), k.stk.trans h.stk, k.pwr.trans h.pwr⟩

theorem Keeps.foldl {α : Type} (f : State → α → State) (h : ∀ s a, Keeps s (f s a)) (l : List α) (s : State) :
    Keeps s (l.foldl f s) := by
  induction l generalizing s with
  | nil => exact .refl s
  | cons a l ih => exact (h s a).trans (ih _)

namespace Incidental

theorem refl (s : State) : Incidental s s := ⟨.refl s, rfl⟩

theorem trans {s t u : State} (h : Incidental s t) (k : Incidental t u) : Incidental s u :=
  ⟨h.toKeeps.trans k.toKeeps, k.gists.trans h.gists⟩

theorem foldl {α : Type} (f : State → α → State) (h : ∀ s a, Incidental s (f s a)) (l : List α) (s : State) :
    Incidental s (l.foldl f s) := by
  induction l generalizing s with
  | nil => exact .refl s
  | cons a l ih => exact (h s a).trans (ih _)

/-- A choice between two incidental changes is one. -/
theorem ite {s t u : State} (c : Prop) [Decidable c] (ht : Incidental s t) (hu : Incidental s u) :
    Incidental s (if c then t else u) := by
  split
  · exact ht
  · exact hu

/-- Changes outside the registers, the steps, the stack and the power state. -/
theorem of_same {s t : State} (hr : t.regs = s.regs) (hm : t.rgm = s.rgm) (hs : t.stk = s.stk) (hp : t.pwr = s.pwr) :
    Incidental s t :=
  ⟨⟨fun a _ => State.reg_congr hr a, hs, hp⟩, by rw [hm]⟩

end Incidental

/-- Two states differ at most in registers other than the scoring ones, in attention, in the flash log's queue and in the
management island. -/
def IslandOnly (s t : State) : Prop :=
  ∃ regs atn flash mgt, t = { s with regs := regs, atn := atn, way := { s.way with flash := flash }, mgt := mgt } ∧
    ∀ a ∈ scoringRegs, t.reg a = s.reg a

namespace IslandOnly

theorem refl (s : State) : IslandOnly s s := ⟨s.regs, s.atn, s.way.flash, s.mgt, rfl, fun _ _ => rfl⟩

theorem trans {s t u : State} (h : IslandOnly s t) (k : IslandOnly t u) : IslandOnly s u := by
  obtain ⟨r, a, f, m, rfl, hr⟩ := h
  obtain ⟨r', a', f', m', rfl, hr'⟩ := k
  exact ⟨r', a', f', m', rfl, fun x hx => (hr' x hx).trans (hr x hx)⟩

theorem ite {s t u : State} (c : Prop) [Decidable c] (ht : IslandOnly s t) (hu : IslandOnly s u) :
    IslandOnly s (if c then t else u) := by
  split
  · exact ht
  · exact hu

theorem setReg (s : State) {a : Nat} (v : Word) (h : a ∉ scoringRegs) : IslandOnly s (s.setReg a v) :=
  ⟨_, s.atn, s.way.flash, s.mgt, rfl, fun _ hb => s.reg_setReg_other v fun e => h (e ▸ hb)⟩

theorem setF (s : State) {a : Nat} (hi lo v : Nat) (h : a ∉ scoringRegs) : IslandOnly s (s.setF a hi lo v) := .setReg s _ h

theorem accAdd (s : State) {a : Nat → Nat} {x : Nat} (n : Nat) (h : a x ∉ scoringRegs) : IslandOnly s (s.accAdd a x n) := by
  unfold State.accAdd
  exact .ite _ (.refl s) (.setReg s _ h)

theorem chargeHbm (s : State) (x n : Nat) : IslandOnly s (s.chargeHbm x n) :=
  .accAdd s n (not_scoring_of_lt (by unfold aAccHbm; omega))

theorem chargeStk (s : State) (x n : Nat) : IslandOnly s (s.chargeStk x n) :=
  .accAdd s n (not_scoring_of_lt (by unfold aAccStk; omega))

theorem setMgt (s : State) (m : Mgt) : IslandOnly s { s with mgt := m } :=
  ⟨s.regs, s.atn, s.way.flash, m, rfl, fun _ _ => rfl⟩

theorem incidental {s t : State} (h : IslandOnly s t) : Incidental s t := by
  obtain ⟨_, _, _, _, rfl, hr⟩ := h
  exact ⟨⟨hr, rfl, rfl⟩, rfl⟩

theorem sameMemory {s t : State} (h : IslandOnly s t) : SameMemory s t := by
  obtain ⟨_, _, _, _, rfl, -⟩ := h
  exact ⟨rfl, rfl, rfl, rfl, rfl⟩

end IslandOnly

namespace Incidental

theorem setSca (s : State) (c : Sca) : Incidental s { s with sca := c } := .of_same rfl rfl rfl rfl

theorem setReg (s : State) {a : Nat} (v : Word) (h : a ∉ scoringRegs) : Incidental s (s.setReg a v) :=
  (IslandOnly.setReg s v h).incidental

theorem setF (s : State) {a : Nat} (hi lo v : Nat) (h : a ∉ scoringRegs) : Incidental s (s.setF a hi lo v) := .setReg s _ h

theorem addCtr (s : State) {a : Nat} (n : Nat) (h : a ∉ scoringRegs) : Incidental s (s.addCtr a n) := .setReg s _ h

theorem bump (s : State) {a : Nat} (h : a ∉ scoringRegs) : Incidental s (s.bump a) := .setReg s _ h

theorem hbmWriteP (s : State) (a : Nat) (bs : Bytes) (p : Bool) : Incidental s (s.hbmWriteP a bs p) :=
  .of_same rfl rfl rfl rfl

theorem hbmWrite (s : State) (a : Nat) (bs : Bytes) : Incidental s (s.hbmWrite a bs) := .hbmWriteP s a bs false

theorem modStep (s : State) (x : Nat) (step : Word) {f : Step → Step} (h : ∀ t, (f t).gist = t.gist) :
    Incidental s (s.modStep x step f) := by
  refine ⟨⟨fun _ _ => rfl, rfl, rfl⟩, ?_⟩
  simp only [State.modStep, List.map_map]
  refine List.map_congr_left fun t _ => ?_
  simp only [Function.comp_apply]
  split
  · exact h t
  · rfl

theorem modGroup (s : State) (x : Nat) (step : Word) (layer : Nat) {f : Group → Group} (h : ∀ g, (f g).gist = g.gist) :
    Incidental s (s.modGroup x step layer f) := by
  refine .modStep s x step fun t => ?_
  simp only [Step.modLayer, Step.gist, Option.map_map]
  congr 2
  funext g
  simp only [Function.comp_apply]
  split
  · exact h g
  · rfl

theorem chargeHbm (s : State) (x n : Nat) : Incidental s (s.chargeHbm x n) := (IslandOnly.chargeHbm s x n).incidental

theorem chargeStk (s : State) (x n : Nat) : Incidental s (s.chargeStk x n) := (IslandOnly.chargeStk s x n).incidental

theorem noteRetry (s : State) (x : Nat) (step : Word) (n : Nat) : Incidental s (s.noteRetry x step n) := by
  unfold State.noteRetry
  exact .ite _ (.refl s) (.modStep s x step fun _ => rfl)

end Incidental

theorem AttentionOnly.incidental {s t : State} (h : AttentionOnly s t) : Incidental s t := by
  obtain ⟨_, _, _, rfl, hr⟩ := h
  exact ⟨⟨fun a ha => hr a (.inr (by have := scoring_bounds ha; omega)), rfl, rfl⟩, rfl⟩

theorem FabricOnly.incidental {s t : State} (h : FabricOnly s t) : Incidental s t := by
  obtain ⟨_, _, rfl, hr⟩ := h
  exact ⟨⟨fun a ha => hr a (.inr (.inl (by have := scoring_bounds ha; omega))), rfl, rfl⟩, rfl⟩

/-- A context's time and its charge change a virtual time, ACC, and the step's cycles (R502, R507). -/
theorem State.chargeStep_incidental (s : State) (t : Step) (prior cycles : Nat) :
    Incidental s (s.chargeStep t prior cycles) := by
  have hacc : aAccCycles (t.desc.ctx % 4096) ∉ scoringRegs := not_scoring_of_lt (by unfold aAccCycles; omega)
  have hvt : aCtxVtime (t.desc.ctx % 4096) ∉ scoringRegs := not_scoring_of_lt (by unfold aCtxVtime; omega)
  exact ((IslandOnly.accAdd s cycles hacc).incidental.trans (.addCtr _ _ hvt)).trans (.modStep _ _ _ fun _ => rfl)

/-! ## The step that a command names -/

theorem Step.is_iff {t : Step} {x : Nat} {step : Word} : t.is x step = true ↔ t.desc.ctx = x ∧ t.desc.step = step := by
  simp [Step.is]

theorem Step.is_self (t : Step) : t.is t.desc.ctx t.desc.step = true := Step.is_iff.2 ⟨rfl, rfl⟩

theorem State.running_some {s : State} {x : Nat} {t : Step} (h : s.running x = some t) :
    t ∈ s.rgm.steps ∧ t.desc.ctx = x := by
  have hp := List.find?_some h
  simp only [Bool.and_eq_true, beq_iff_eq] at hp
  exact ⟨List.mem_of_find?_eq_some h, hp.1⟩

theorem State.worker_some {s : State} {x : Nat} {t : Step} (h : s.worker x = some t) :
    t ∈ s.rgm.steps ∧ t.desc.ctx = x ∧ s.halted = false := by
  obtain ⟨hr, hw⟩ := Option.filter_eq_some_iff.1 h
  simp only [Bool.and_eq_true, Bool.not_eq_true'] at hw
  exact ⟨(State.running_some hr).1, (State.running_some hr).2, hw.1⟩

theorem StepHas.mono {s : State} {x : Nat} {step : Word} {P Q : Step → Prop} (h : StepHas s x step P) (hq : ∀ w, P w → Q w) :
    StepHas s x step Q := by
  obtain ⟨u, hu, hi, hp⟩ := h
  exact ⟨u, hu, hi, hq u hp⟩

/-- A listed step has its own properties. -/
theorem stepHas_of_mem {s : State} {t : Step} {x : Nat} {P : Step → Prop} (h : t ∈ s.rgm.steps) (hx : t.desc.ctx = x)
    (hp : P t) : StepHas s x t.desc.step P :=
  ⟨t, h, Step.is_iff.2 ⟨hx, rfl⟩, hp⟩

theorem StepHas.addCtr {s : State} {x : Nat} {step : Word} {P : Step → Prop} (h : StepHas s x step P) (a n : Nat) :
    StepHas (s.addCtr a n) x step P := h

theorem StepHas.bump {s : State} {x : Nat} {step : Word} {P : Step → Prop} (h : StepHas s x step P) (a : Nat) :
    StepHas (s.bump a) x step P := h

/-- What a gist tells of a step outlasts incidental changes. -/
theorem StepHas.incidental {s t : State} {x : Nat} {step : Word} {P : Step → Prop} (h : StepHas s x step P)
    (k : Incidental s t) (hq : ∀ w v, v.gist = w.gist → P w → P v) : StepHas t x step P := by
  obtain ⟨u, hu, hi, hp⟩ := h
  have hm : u.gist ∈ t.rgm.steps.map Step.gist := k.gists ▸ List.mem_map_of_mem hu
  obtain ⟨v, hv, he⟩ := List.mem_map.1 hm
  have hd : v.desc = u.desc := congrArg Step.Gist.desc he
  exact ⟨v, hv, by rwa [Step.is, hd], hq u v he hp⟩

/-- A step's layer group has a property. -/
def Step.GroupHas (P : Group → Prop) (t : Step) : Prop := ∃ g, t.group = some g ∧ P g

theorem Step.GroupHas.of_gist {P : Group → Prop} {w v : Step} (h : w.GroupHas P) (he : v.gist = w.gist)
    (hq : ∀ g k, k.gist = g.gist → P g → P k) : v.GroupHas P := by
  obtain ⟨g, hg, hp⟩ := h
  have hm : v.group.map Group.gist = some g.gist := (congrArg Step.Gist.group he).trans (by simp [Step.gist, hg])
  obtain ⟨k, hk, hkg⟩ := Option.map_eq_some_iff.1 hm
  exact ⟨k, hk, hq g k hkg hp⟩

/-- What a gist tells of a layer group outlasts incidental changes. -/
theorem StepHas.group_incidental {s t : State} {x : Nat} {step : Word} {P : Group → Prop}
    (h : StepHas s x step (Step.GroupHas P)) (k : Incidental s t) (hq : ∀ g k, k.gist = g.gist → P g → P k) :
    StepHas t x step (Step.GroupHas P) :=
  h.incidental k fun _ _ he hg => hg.of_gist he hq

theorem StepHas.modStep {s : State} {x : Nat} {step : Word} {P Q : Step → Prop} {f : Step → Step} (h : StepHas s x step P)
    (hd : ∀ w, (f w).desc = w.desc) (hq : ∀ w, P w → Q (f w)) : StepHas (s.modStep x step f) x step Q := by
  obtain ⟨u, hu, hi, hp⟩ := h
  exact ⟨f u, List.mem_map.2 ⟨u, hu, if_pos hi⟩, by rwa [Step.is, hd], hq u hp⟩

/-- The step with another layer group. -/
def Step.withGroup (g : Group) (t : Step) : Step := { t with group := some g }

theorem StepHas.withGroup {s : State} {x : Nat} {step : Word} {P : Step → Prop} {Q : Group → Prop} {g : Group}
    (h : StepHas s x step P) (hq : Q g) : StepHas (s.modStep x step (Step.withGroup g)) x step (Step.GroupHas Q) :=
  h.modStep (fun _ => rfl) fun _ _ => ⟨g, rfl, hq⟩

/-- A step is there, whatever else it is. -/
theorem StepHas.present {s t : State} {x : Nat} {step : Word} (h : StepHas s x step fun _ => True) (k : Incidental s t) :
    StepHas t x step fun _ => True := h.incidental k fun _ _ _ => id

/-- A step put back replaces the one listed. -/
theorem StepHas.setStep {s : State} {t : Step} {x : Nat} {step : Word} {P Q : Step → Prop} (h : StepHas s x step P)
    (ht : t.is x step = true) (hq : Q t) : StepHas (s.setStep t) x step Q := by
  obtain ⟨rfl, rfl⟩ := Step.is_iff.1 ht
  obtain ⟨u, hu, hi, -⟩ := h
  exact ⟨t, List.mem_map.2 ⟨u, hu, if_pos hi⟩, ht, hq⟩

/-- A retry shows in the step's outcome (R307). -/
theorem StepHas.noteRetry {s : State} {x n : Nat} {step : Word} {P : Step → Prop} (h : StepHas s x step P) (hn : n ≠ 0) :
    StepHas (s.noteRetry x step n) x step fun w => w.retry = true := by
  rw [State.noteRetry, if_neg (by simpa using hn)]
  exact h.modStep (fun _ => rfl) fun _ _ => rfl

/-- The group of a layer is changed in its place. -/
theorem StepHas.modGroup {s : State} {x layer : Nat} {step : Word} {P Q : Group → Prop} {f : Group → Group}
    (h : StepHas s x step (Step.GroupHas P)) (hl : ∀ g, P g → g.layer = layer) (hq : ∀ g, P g → Q (f g)) :
    StepHas (s.modGroup x step layer f) x step (Step.GroupHas Q) := by
  refine StepHas.modStep h (fun _ => rfl) ?_
  rintro w ⟨g, hg, hp⟩
  exact ⟨f g, by simp [Step.modLayer, hg, hl g hp], hq g hp⟩

end Sys2Proof.Machine
end

section
/-! What a departure, a retirement and residue retries change (R599 to R602): registers, attention and the management
island; and what a halt keeps (R605). -/

namespace Sys2Proof.Machine

/-! ## Islands -/

theorem AttentionOnly.island {s t : State} (h : AttentionOnly s t) : IslandOnly s t := by
  obtain ⟨r, a, f, rfl, hr⟩ := h
  exact ⟨r, a, f, s.mgt, rfl, fun b hb => hr b (.inr (by have := scoring_bounds hb; omega))⟩

theorem CountOnly.island {s t : State} (h : CountOnly s t) : IslandOnly s t := by
  obtain ⟨_, _, h⟩ := h
  exact .trans (.setMgt s _) h.island

/-- The state of an island stands in a register of its unit or in the management island. -/
theorem State.setIsl_only (s : State) (i v : Nat) : IslandOnly s (s.setIsl i v) := by
  unfold State.setIsl
  split
  · next h =>
    have hi : i < 128 := of_decide_eq_true h
    exact .setF s _ _ _ (not_scoring_of_lt (by unfold aLanCtrl; omega))
  · exact .ite _ (.setF s _ _ _ (by decide))
      (.ite _ (.setF s _ _ _ (by decide)) (.ite _ (.setF s _ _ _ (by decide)) (.setMgt s _)))

theorem State.retire_only (s : State) (i : Nat) (attention : Bool) : IslandOnly s (s.retire i attention) :=
  ((s.setIsl_only i 2).trans (.setMgt _ _)).trans
    (.ite _ (State.raiseAt_only _ _ _).island (State.noteFault_only _ _ _ _).island)

theorem State.countDeparture_only (s : State) (i : Nat) : IslandOnly s (s.countDeparture i) :=
  (IslandOnly.setMgt s _).trans (.ite _ (State.retire_only _ _ _) (.refl _))

theorem State.depart_only (s : State) (i : Nat) (software : Bool) : IslandOnly s (s.depart i software) :=
  ((IslandOnly.setMgt s _).trans (.ite _ (.refl _) (State.setIsl_only _ _ _))).trans
    (.ite _ (.refl _) (State.countDeparture_only _ _))

/-- Groups that leave at a tile boundary change no step and no memory (R77). -/
theorem State.groupsLeave_only (s : State) : IslandOnly s s.groupsLeave := by
  have hfold (l : List Nat) : ∀ u : State, IslandOnly u
      (l.foldl (fun s g => if s.islState (128 + g) == 0 then s.depart (128 + g) true else s) u) := by
    induction l with
    | nil => exact .refl
    | cons g l ih => exact fun u => (IslandOnly.ite _ (u.depart_only _ _) (.refl u)).trans (ih _)
  exact (IslandOnly.setMgt s _).trans (hfold _ _)

theorem State.spareOrRetire_only (s : State) (cube : Nat) : IslandOnly s (s.spareOrRetire cube) := by
  have hmap : aScaSpareMap ∉ scoringRegs := by decide
  exact .ite _ (.ite _ (.refl s) (s.retire_only _ _))
    ((IslandOnly.setF s _ _ _ hmap).trans (.ite _ (.refl _) (.setMgt _ _)))

/-! ## Failures of cubes (R589, R590) -/

/-- Residue retries are counted; with them go correctable errors of the group and the step's outcome. -/
theorem State.arrayRetry_incidental (s : State) (x : Nat) (step : Word) (cube n : Nat) :
    Incidental (s.addCtr aScaCntRetry n) (s.arrayRetry x step cube n) := by
  unfold State.arrayRetry
  split
  · next h =>
    obtain rfl := beq_iff_eq.1 h
    refine ⟨⟨fun a _ => ?_, rfl, rfl⟩, rfl⟩
    by_cases ha : a = aScaCntRetry
    · simp [ha]
    · exact (s.reg_addCtr_other 0 ha).symm
  · exact (State.noteCes_only _ _ _).island.incidental.trans (.noteRetry _ _ _ _)

theorem State.cubeDown_incidental (s : State) (x : Nat) (step : Word) (cube : Nat) :
    Incidental (s.addCtr aScaCntRetry 2) (s.cubeDown x step cube) :=
  (s.arrayRetry_incidental x step cube 2).trans
    (((State.depart_only _ _ _).trans (State.raiseAt_only _ _ _).island).trans (State.spareOrRetire_only _ _)).incidental

/-! ## The engine halt (R605) -/

theorem State.errBit_incidental (s : State) {a : Nat} (n c : Nat) (h : a ∉ scoringRegs) : Incidental s (s.errBit a n c) :=
  (Incidental.setF s _ _ _ h).trans (State.raise_only _ _).incidental

theorem State.noteMiss_keeps (s : State) (t : Step) : Keeps s (s.noteMiss t) := by
  unfold State.noteMiss
  split
  · exact ((Incidental.bump s (by decide)).trans (State.errBit_incidental _ _ _ (by decide))).toKeeps
  · exact .refl s

/-- A completion record and its event keep the scoring registers, the stack and the power state. -/
theorem State.writeCompletion_keeps (s : State) (t : Step) (endc : Nat) : Keeps s (s.writeCompletion t endc) := by
  have hsteps : aAccSteps (t.desc.ctx % 4096) ∉ scoringRegs := not_scoring_of_lt (by unfold aAccSteps; omega)
  have hcount (u : State) :
      Keeps u (if endc ≤ 1 then (u.bump aRgmCntStep).accAdd aAccSteps (t.desc.ctx % 4096) 1 else u) := by
    split
    · exact ((Incidental.bump u (by decide)).trans (IslandOnly.accAdd _ _ hsteps).incidental).toKeeps
    · exact .refl u
  have hlast (u : State) : Keeps u (if endc ≤ 1 then
      u.setCtx t.desc.ctx { u.ctx t.desc.ctx with lastStep := some t.desc.step } else u) := by
    split <;> exact ⟨fun _ _ => rfl, rfl, rfl⟩
  have hoff (u : State) (l : List Step) : Keeps u { u with rgm := { u.rgm with steps := l } } :=
    ⟨fun _ _ => rfl, rfl, rfl⟩
  have hrec (u : State) (a : Nat) (bs : Bytes) (x n : Nat) : Keeps u ((u.hbmWrite a bs).chargeHbm x n) :=
    ((Incidental.hbmWrite u a bs).trans (.chargeHbm _ _ _)).toKeeps
  unfold State.writeCompletion
  exact (((((s.noteMiss_keeps t).trans (hrec _ _ _ _ _)).trans (hoff _ _)).trans (hcount _)).trans (hlast _)).trans
    (State.event_only _ _ _).incidental.toKeeps

theorem State.halt_halted (s : State) : s.halt.pwr.halted = true := by
  unfold State.halt
  split
  · assumption
  · simp only [State.raise_pwr, State.setF_pwr]
    rw [(Keeps.foldl _ (fun s t => s.writeCompletion_keeps t 0x34) _ _).pwr]

theorem State.halt_regs (s : State) {a : Nat} (h : a ∈ scoringRegs) : s.halt.reg a = s.reg a := by
  unfold State.halt
  split
  · rfl
  · exact (((Keeps.foldl _ (fun s t => s.writeCompletion_keeps t 0x34) _ _).trans
      (Incidental.setF _ _ _ _ (by decide)).toKeeps).trans (State.raise_only _ _).incidental.toKeeps).regs a h

end Sys2Proof.Machine
end

section
/-! The scoring array's tiles (R77, R79 to R81): a forward tile starts, ends and reruns; a tile of a backward product runs. -/

namespace Sys2Proof.Machine

/-! ## Choosing the step -/

/-- The step that the cube groups take next is one of those listed. -/
theorem State.arrayNext_mem {s : State} {p : Nat} {t : Step} (h : s.arrayNext p = some t) : t ∈ s.rgm.steps := by
  have hpick (f : Option Step → Step → Option Step) (hf : ∀ b u, f b u = b ∨ f b u = some u) (l : List Step)
      (b : Option Step) (hl : l.foldl f b = some t) : b = some t ∨ t ∈ l := by
    induction l generalizing b with
    | nil => exact .inl hl
    | cons u l ih =>
      obtain hb | hm := ih _ hl
      · obtain he | he := hf b u
        · exact .inl (he ▸ hb)
        · exact .inr (by simp [Option.some.inj (he.symm.trans hb)])
      · exact .inr (List.mem_cons_of_mem _ hm)
  unfold State.arrayNext at h
  split at h
  · cases h
  · refine List.mem_of_mem_filter ((hpick _ (fun b u => ?_) _ _ h).resolve_left (by simp))
    cases b with
    | none => exact .inr rfl
    | some v => exact (ite_eq_or_eq _ _ _).symm

theorem State.stepOf_is {s : State} {x : Nat} {step : Word} {t : Step} (h : s.stepOf x step = some t) : t.is x step = true :=
  List.find?_some (p := fun u : Step => u.is x step) h

/-- The step found by a name, or else one of that name, has the name. -/
theorem State.stepOf_getD_is (s : State) {t : Step} {x : Nat} {step : Word} (ht : t.is x step = true) :
    ((s.stepOf x step).getD t).is x step = true := by
  cases h : s.stepOf x step with
  | none => exact ht
  | some u => exact State.stepOf_is h

/-! ## A tile starts (R77, R81, R92) -/

/-- The tile that a group's next tile makes of some tokens. -/
def State.tileOf (s : State) (t : Step) (g : Group) (toks : List Nat) (rows touched : Nat) : Tile :=
  { toks := toks, poisoned := s.tilePoison t g toks
    first := g.tilesRun == 0 || tabFind s.sca.last t.part != some (t.desc.ctx, g.first)
    groups := s.groupsIn t.part, rows := rows, touched := touched }

/-- The step with its group's tokens moved into a tile. -/
def State.withTile (s : State) (t : Step) (g : Group) (toks : List Nat) (rows touched : Nat) : Step :=
  { t with group := some { g with
    untiled := g.untiled.filter (fun i => !toks.contains i), tile := some (s.tileOf t g toks rows touched) } }

section Start

variable (s : State) (t : Step) (g : Group) (toks : List Nat) (rows touched : Nat)

/-- A tile that starts is put into its step; the choice is noted and what it reads is charged. -/
theorem State.startTile_only : ∃ sca, IslandOnly { s.setStep (s.withTile t g toks rows touched) with sca := sca }
    (s.startTile t g toks rows touched) :=
  ⟨_, ((IslandOnly.chargeHbm _ _ _).trans (.ite _ (.refl _) (.chargeHbm _ _ _))).trans
    (.ite _ (.refl _) (.ite _ (.chargeStk _ _ _) (.chargeHbm _ _ _)))⟩

theorem State.startTile_sameMemory : SameMemory s (s.startTile t g toks rows touched) := by
  obtain ⟨_, h⟩ := s.startTile_only t g toks rows touched
  exact h.sameMemory

theorem State.startTile_incidental :
    Incidental (s.setStep (s.withTile t g toks rows touched)) (s.startTile t g toks rows touched) := by
  obtain ⟨_, h⟩ := s.startTile_only t g toks rows touched
  exact (Incidental.setSca _ _).trans h.incidental

end Start

/-- SCORE_TILE_START without errors: the step that comes next starts its next tile. -/
theorem execScoreTileStart_next {s : State} {p : Nat} {box : List Nat} {t : Step} {g : Group} {r : List Nat × Nat × Nat}
    (ht : s.groupsLeave.arrayNext p = some t) (hg : t.group = some g) (hr : nextTile t g box = some r) :
    execScoreTileStart p box [] s = .next (s.groupsLeave.startTile
      ((s.groupsLeave.stepOf t.desc.ctx t.desc.step).getD t) g r.1 r.2.1 r.2.2) := by
  simp only [execScoreTileStart, ht, hg, hr]
  rfl

/-- The next tile's tokens leave the group's list for the tile; no memory changes. -/
theorem scoreTileStart_completes (s : State) (p : Nat) (box : List Nat) (t : Step) (g : Group) (r : List Nat × Nat × Nat)
    (ht : s.groupsLeave.arrayNext p = some t) (hg : t.group = some g) (hr : nextTile t g box = some r) :
    Completes (.scoreTileStart p box []) s (fun u => SameMemory s u ∧ StepHas u t.desc.ctx t.desc.step (fun w =>
      ∃ h k, w.group = some h ∧ h.tile = some k ∧ k.toks = r.1 ∧ h.layer = g.layer ∧
        h.untiled = g.untiled.filter (fun i => !r.1.contains i))) := by
  have hv := s.groupsLeave.stepOf_getD_is t.is_self
  refine ⟨_, execScoreTileStart_next ht hg hr, ?_, ?_⟩
  all_goals generalize (s.groupsLeave.stepOf t.desc.ctx t.desc.step).getD t = v at hv ⊢
  · obtain ⟨h1, h2, h3, h4, h5⟩ := s.groupsLeave_only.sameMemory
    obtain ⟨k1, k2, k3, k4, k5⟩ := s.groupsLeave.startTile_sameMemory v g r.1 r.2.1 r.2.2
    exact ⟨k1.trans h1, k2.trans h2, k3.trans h3, k4.trans h4, k5.trans h5⟩
  · have hput : StepHas (s.groupsLeave.setStep (s.groupsLeave.withTile v g r.1 r.2.1 r.2.2)) t.desc.ctx t.desc.step
        (Step.GroupHas fun h => ∃ k, h.tile = some k ∧ k.toks = r.1 ∧ h.layer = g.layer ∧
          h.untiled = g.untiled.filter (fun i => !r.1.contains i)) := by
      have hin := stepHas_of_mem (P := fun _ => True) (State.arrayNext_mem ht) rfl trivial
      exact hin.setStep hv ⟨_, rfl, _, rfl, rfl, rfl, rfl⟩
    refine (hput.group_incidental (s.groupsLeave.startTile_incidental v g _ _ _) ?_).mono ?_
    · rintro h h' he ⟨k, hk, htoks, hl, hu⟩
      simp only [Group.gist, Group.Gist.mk.injEq] at he
      obtain ⟨hl', htile', -, hu', -⟩ := he
      exact ⟨k, htile'.trans hk, htoks, hl'.trans hl, hu'.trans hu⟩
    · rintro w ⟨h, hw, k, hk⟩
      exact ⟨h, k, hw, hk⟩

/-! ## A tile ends (R34, R80, R85, R87) -/

theorem State.keepRun_incidental (s : State) (x rows cols : Nat) (vals : List Num) :
    Incidental s (s.keepRun x rows cols vals) := .setSca s _

theorem Incidental.setFree (s : State) (n : Nat) : Incidental s { s with freeCtr := n } := .of_same rfl rfl rfl rfl

/-- Scoring keeps at most running results and draws free values (R80). -/
theorem State.scoreTile_incidental (s : State) (t : Step) (g : Group) (tile : Tile) :
    Incidental s (s.scoreTile t g tile).2 := by
  unfold State.scoreTile
  dsimp only
  split
  · exact .refl s
  · exact (s.keepRun_incidental _ _ _ _).trans (.ite _ (.setFree _ _) (.refl _))

/-- A tile hands on a score for each of its tokens, in order. -/
theorem State.scoreTile_index (s : State) (t : Step) (g : Group) (tile : Tile) :
    (s.scoreTile t g tile).1.map (·.index) = tile.toks := by
  unfold State.scoreTile
  dsimp only
  split
  all_goals
    simp only [List.map_map]
    refine (List.map_congr_left fun i _ => ?_).trans (List.map_id _)
    simp only [Function.comp_apply]
    split <;> rfl

theorem State.putOperand_incidental (s : State) (base d i : Nat) (row : List Num) (bad : Bool) :
    Incidental s (s.putOperand base d i row bad) :=
  .foldl _ (fun _ _ => .hbmWriteP _ _ _ _) _ s

theorem State.saveOperands_incidental (s : State) (t : Step) (g : Group) (tile : Tile) :
    Incidental s (s.saveOperands t g tile) := by
  unfold State.saveOperands
  exact .ite _ (.refl s) (((Incidental.foldl _ (fun _ _ => State.putOperand_incidental _ _ _ _ _ _) _ _).trans
    (.foldl _ (fun _ _ => State.putOperand_incidental _ _ _ _ _ _) _ _)).trans (.chargeHbm _ _ _))

/-- The group of a step whose tile has run. -/
def Group.delivered (g : Group) (scores : List Scored) (cycles : Nat) : Group :=
  { g with tile := none, tilesRun := g.tilesRun + 1, scored := g.scored ++ [scores], times := g.times ++ [cycles] }

/-- The operand of SCORE_TILE_DONE and OP_SCORE_BACKWARD gives the failures and the cube back. -/
theorem faults_split {faults cube : Nat} (hf : faults < 4) (hc : cube < 128) :
    (faults + 4 * cube) / 4 % 128 = cube ∧ (faults + 4 * cube) % 4 = faults := by
  omega

/-- Failures count where their cube is of a group that runs the work. -/
theorem faults_of_mem {groups : List Nat} {grp faults : Nat} (h : faults ≠ 0 → grp ∈ groups) :
    (if groups.contains grp then faults else 0) = faults := by
  by_cases h0 : faults = 0
  · simp [h0]
  · simp [h h0]

/-- SCORE_TILE_DONE without a failure: the scores are handed on after incidental work, then residue retries are counted and
groups leave. -/
theorem execScoreTileDone_delivers {s : State} {x faults cube : Nat} {t : Step} {g : Group} {tile : Tile}
    (ht : s.running x = some t) (hg : t.group = some g) (hl : g.tile = some tile) (hf : faults < 3) (hc : cube < 128)
    (hm : faults ≠ 0 → cube / 4 ∈ tile.groups) :
    ∃ m cycles, Incidental s m ∧ execScoreTileDone x (faults + 4 * cube) s = .next
      ((m.modStep x t.desc.step (Step.withGroup (g.delivered (s.scoreTile t g tile).1 cycles))).arrayRetry x
        t.desc.step cube faults).groupsLeave := by
  obtain ⟨hcube, hfaults⟩ := faults_split (by omega : faults < 4) hc
  have hne : (faults == 3) = false := beq_eq_false_iff_ne.2 (by omega)
  obtain ⟨-, rfl⟩ := State.running_some ht
  simp only [execScoreTileDone, ht, hg, hl, hcube, hfaults, faults_of_mem hm, hne, Bool.false_eq_true, if_false]
  refine ⟨_, _, ?_, rfl⟩
  exact (((s.scoreTile_incidental t g tile).trans (State.saveOperands_incidental _ t g tile)).trans
    (State.chargeStep_incidental _ _ _ _)).trans (.ite _ (.refl _) (.addCtr _ _ (by decide)))

/-- What is left of the registers and steps once a step has changed, residue retries are counted and groups have left. -/
theorem State.arrayRetry_groupsLeave_incidental (s : State) (x : Nat) (step : Word) (cube n : Nat) :
    Incidental (s.addCtr aScaCntRetry n) (s.arrayRetry x step cube n).groupsLeave :=
  (s.arrayRetry_incidental x step cube n).trans (State.groupsLeave_only _).incidental

theorem scoreTileDone_completes (s : State) (x : Nat) (t : Step) (g : Group) (tile : Tile) (ht : s.running x = some t)
    (hg : t.group = some g) (hl : g.tile = some tile) (faults : Nat) (hf : faults < 3) (cube : Nat) (hc : cube < 128)
    (hm : faults ≠ 0 → cube / 4 ∈ tile.groups) :
    Completes (.scoreTileDone x (faults + 4 * cube)) s (fun u =>
      u.reg aScaCntRetry = s.reg aScaCntRetry + word faults ∧ StepHas u x t.desc.step (fun w =>
        ∃ h, w.group = some h ∧ h.tile = none ∧ h.tilesRun = g.tilesRun + 1 ∧
          h.scored = g.scored ++ [(s.scoreTile t g tile).1] ∧ (s.scoreTile t g tile).1.map (·.index) = tile.toks)) := by
  obtain ⟨m, cycles, hinc, he⟩ := execScoreTileDone_delivers ht hg hl hf hc hm
  obtain ⟨hmem, hx⟩ := State.running_some ht
  have hleft := State.arrayRetry_groupsLeave_incidental (m.modStep x t.desc.step (Step.withGroup
    (g.delivered (s.scoreTile t g tile).1 cycles))) x t.desc.step cube faults
  refine ⟨_, he, ?_, ?_⟩
  · rw [hleft.regs _ (by decide), State.reg_addCtr_same]
    exact congrArg (· + word faults) (hinc.regs _ (by decide))
  · have hput := ((stepHas_of_mem hmem hx trivial).present hinc).withGroup
      (g := g.delivered (s.scoreTile t g tile).1 cycles) (Q := fun h => h.tile = none ∧ h.tilesRun = g.tilesRun + 1 ∧ h.scored = g.scored ++ [(s.scoreTile t g tile).1] ∧
        (s.scoreTile t g tile).1.map (·.index) = tile.toks) ⟨rfl, rfl, rfl, s.scoreTile_index t g tile⟩
    refine (hput.addCtr _ _).group_incidental hleft ?_
    rintro h k hk ⟨htile, hrun, hscored, hidx⟩
    simp only [Group.gist, Group.Gist.mk.injEq] at hk
    obtain ⟨-, htile', hrun', -, hscored', -⟩ := hk
    exact ⟨htile'.trans htile, hrun'.trans hrun, hscored'.trans hscored, hidx⟩

/-! ## A tile reruns (R77, R590) -/

/-- A rerun is counted and goes along with its charge; then the tile stands in the group again, or its tokens do. -/
theorem State.rerunTile_eq (s : State) (t : Step) (g : Group) (tile : Tile) (grp : Nat) :
    ∃ m h, Incidental (s.bump aScaCntRerun) m ∧ s.rerunTile t g tile grp =
      (m.modStep t.desc.ctx t.desc.step (Step.withGroup h)).noteRetry t.desc.ctx t.desc.step 1 :=
  ⟨_, _, (State.chargeStep_incidental _ _ _ _).trans (.ite _ (.setSca _ _) (.chargeHbm _ _ _)), rfl⟩

/-- SCORE_TILE_DONE with a third failure: the cube leaves, and the tile reruns. -/
theorem execScoreTileDone_fails {s : State} {x cube : Nat} {t : Step} {g : Group} {tile : Tile} (ht : s.running x = some t)
    (hg : t.group = some g) (hl : g.tile = some tile) (hc : cube < 128) (hm : cube / 4 ∈ tile.groups) :
    execScoreTileDone x (3 + 4 * cube) s = .next (s.cubeFail t g tile cube) := by
  obtain ⟨hcube, hfaults⟩ := faults_split (by decide : 3 < 4) hc
  simp [execScoreTileDone, ht, hg, hl, hcube, hfaults, hm]

theorem scoreTileDone_reruns (s : State) (x : Nat) (t : Step) (g : Group) (tile : Tile) (ht : s.running x = some t)
    (hg : t.group = some g) (hl : g.tile = some tile) (cube : Nat) (hc : cube < 128) (hm : cube / 4 ∈ tile.groups) :
    Completes (.scoreTileDone x (3 + 4 * cube)) s (fun u =>
      u.reg aScaCntRerun = s.reg aScaCntRerun + 1 ∧ StepHas u x t.desc.step (fun w => w.retry = true)) := by
  refine ⟨_, execScoreTileDone_fails ht hg hl hc hm, ?_⟩
  obtain ⟨hmem, rfl⟩ := State.running_some ht
  have hdown := s.cubeDown_incidental t.desc.ctx t.desc.step cube
  obtain ⟨m, h, hinc, he⟩ := (s.cubeDown t.desc.ctx t.desc.step cube).rerunTile_eq t g tile (cube / 4)
  rw [State.cubeFail, he]
  constructor
  · calc _ = m.reg aScaCntRerun := by rw [(Incidental.noteRetry _ _ _ _).regs _ (by decide)]; rfl
      _ = (s.cubeDown t.desc.ctx t.desc.step cube).reg aScaCntRerun + 1 := by
        rw [hinc.regs _ (by decide), State.reg_bump_same]
      _ = s.reg aScaCntRerun + 1 := by rw [hdown.regs _ (by decide), State.reg_addCtr_other _ _ (by decide)]
  · have hin := ((stepHas_of_mem hmem rfl trivial).addCtr aScaCntRetry 2).present hdown
    exact (((hin.bump aScaCntRerun).present hinc).withGroup (Q := fun _ => True) trivial).noteRetry one_ne_zero

/-! ## Backward products (R79, R80, R85, R86, R501, R502) -/

theorem State.product_incidental (s : State) (x rows cols : Nat) (cont : Bool) (lo : Nat) (ms ns : List (List Num)) :
    Incidental s (s.product x rows cols cont lo ms ns).2 :=
  (s.keepRun_incidental _ _ _ _).trans (.ite _ (.setFree _ _) (.refl _))

theorem State.putFp32_incidental (s : State) (a : Nat) (vals : List Num) (poison : Bool) :
    Incidental s (s.putFp32 a vals poison) := .hbmWriteP s _ _ _

/-- The step once some more rows of its input gradient have run. -/
def Step.ranRows (n : Nat) (bad : Bool) (t : Step) : Step := { t with poison := t.poison || bad, backRows := t.backRows + n }

/-- A tile of the input gradient moves the step on by its rows. -/
theorem State.inputGradient_eq (s : State) (t : Step) (b : Nat) (cont : Bool) :
    ∃ m bad, Incidental s m ∧
      s.inputGradient t b cont = m.modStep t.desc.ctx t.desc.step (Step.ranRows t.backTile.length bad) :=
  ⟨_, _, (((s.product_incidental _ _ _ _ _ _ _).trans
    (.foldl _ (fun _ _ => State.putFp32_incidental _ _ _ _) _ _)).trans (.chargeHbm _ _ _)).trans
    (.ite _ (.chargeStk _ _ _) (.chargeHbm _ _ _)), rfl⟩

theorem State.weightGradient_incidental (s : State) (t : Step) (b : Nat) (cont : Bool) :
    Incidental s (s.weightGradient t b cont) :=
  (((s.product_incidental _ _ _ _ _ _ _).trans (State.putFp32_incidental _ _ _ _)).trans (.chargeHbm _ _ _)).trans
    (.modStep _ _ _ fun _ => rfl)

/-- A virtual time that is raised is no scoring register, whichever context's it is (R503). -/
theorem State.readied_incidental (s old : State) (x : Nat) : Incidental s (s.readied old x) := by
  have hvt : aCtxVtime x ∉ scoringRegs := by
    simp only [scoringRegs, aScaCntRetry, aScaCntRerun, aSelErr, aSelCntToken, aCtxVtime, List.mem_cons, List.not_mem_nil,
      or_false]
    omega
  unfold State.readied State.raiseVtime
  refine .ite _ ?_ (.refl s)
  split
  · exact .refl s
  · exact .ite _ (.setReg s _ hvt) (.refl s)

/-- An op that completes leaves the scoring registers and the stack, and its step goes on to the next op (R279). -/
theorem State.finishOp_effect {s : State} {t : Step} {x : Nat} (i : Nat) (hx : t.desc.ctx = x)
    (h : StepHas s x t.desc.step fun _ => True) :
    Keeps s (s.finishOp t i) ∧ StepHas (s.finishOp t i) x t.desc.step
      (fun w => w.op = (nextOp t.prog.ops t.iters i).1 ∧ w.waiting = false) := by
  subst hx
  unfold State.finishOp
  dsimp only
  constructor
  · refine Keeps.trans ?_ (State.readied_incidental _ _ _).toKeeps
    exact ⟨fun _ _ => rfl, rfl, rfl⟩
  · refine StepHas.incidental ?_ (State.readied_incidental _ _ _) ?_
    · exact StepHas.modStep (s := s.setCtx _ _) (P := fun _ => True) h (fun _ => rfl) fun _ _ => ⟨rfl, rfl⟩
    · rintro w v he ⟨hop, hw⟩
      exact ⟨(congrArg Step.Gist.op he).trans hop, (congrArg Step.Gist.waiting he).trans hw⟩

/-- The op has rows left after its next tile. -/
def Step.rowsLeft (t : Step) (o : RouteOp) : Bool :=
  opMode o == 1 && decide (t.backRows + t.backTile.length < t.tokens.length)

theorem Step.rowsLeft_eq_false {t : Step} {o : RouteOp} :
    t.rowsLeft o = false ↔ opMode o ≠ 1 ∨ t.tokens.length ≤ t.backRows + t.backTile.length := by
  simp [Step.rowsLeft, imp_iff_not_or]

/-- A tile of either gradient keeps the scoring registers and the stack; one of the input gradient moves its step's rows
on. -/
theorem State.gradient_effect {s : State} {t : Step} {x : Nat} (o : RouteOp) (b : Nat) (hx : t.desc.ctx = x)
    (h : StepHas s x t.desc.step fun w => w.op = t.op ∧ w.backRows = t.backRows) :
    Keeps s (if opMode o == 1 then s.inputGradient t b o.cont else s.weightGradient t b o.cont) ∧
      StepHas (if opMode o == 1 then s.inputGradient t b o.cont else s.weightGradient t b o.cont) x t.desc.step
        (fun w => opMode o = 1 → w.op = t.op ∧ w.backRows = t.backRows + t.backTile.length) := by
  subst hx
  have hgist (w v : Step) (he : v.gist = w.gist) (hw : w.op = t.op ∧ w.backRows = t.backRows) :
      v.op = t.op ∧ v.backRows = t.backRows :=
    ⟨(congrArg Step.Gist.op he).trans hw.1, (congrArg Step.Gist.backRows he).trans hw.2⟩
  split
  · obtain ⟨m, bad, hinc, he⟩ := s.inputGradient_eq t b o.cont
    rw [he]
    refine ⟨⟨hinc.regs, hinc.stk, hinc.pwr⟩, ?_⟩
    refine (h.incidental hinc hgist).modStep (fun _ => rfl) ?_
    rintro w ⟨hop, hrows⟩ -
    exact ⟨hop, congrArg (· + t.backTile.length) hrows⟩
  · next hmode =>
    have hinc := s.weightGradient_incidental t b o.cont
    exact ⟨hinc.toKeeps, (h.incidental hinc hgist).mono fun _ _ h1 => absurd (beq_iff_eq.2 h1) hmode⟩

/-- A backward tile runs on the rows next in turn; then the op goes on, or ends. -/
theorem State.backwardTile_eq {s : State} {t : Step} {x : Nat} (o : RouteOp) (hx : t.desc.ctx = x)
    (h : StepHas s x t.desc.step fun w => w.op = t.op ∧ w.backRows = t.backRows) :
    ∃ m, Keeps s m ∧ (StepHas m x t.desc.step fun w =>
        opMode o = 1 → w.op = t.op ∧ w.backRows = t.backRows + t.backTile.length) ∧
      s.backwardTile t o = if t.rowsLeft o then m else m.finishOp t t.op := by
  have htime (u : State) (n k : Nat) : Incidental u ((u.chargeStep t 0 n).addCtr aScaCntStep k) :=
    (u.chargeStep_incidental t 0 n).trans (.addCtr _ _ (by decide))
  have hrun (c : Sca) := State.gradient_effect (s := { s with sca := c }) o t.blk hx h
  refine ⟨_, ((Incidental.setSca s _).toKeeps.trans (hrun _).1).trans (htime _ _ _).toKeeps,
    (hrun _).2.incidental (htime _ _ _) ?_, rfl⟩
  intro w v he hw h1
  obtain ⟨hop, hrows⟩ := hw h1
  exact ⟨(congrArg Step.Gist.op he).trans hop, (congrArg Step.Gist.backRows he).trans hrows⟩

/-- The whole effect of a backward tile: the op ends after its last tile, and else has its rows moved on. -/
theorem State.backwardTile_effect {s : State} {t : Step} {x : Nat} (o : RouteOp) (hx : t.desc.ctx = x)
    (h : StepHas s x t.desc.step fun w => w.op = t.op ∧ w.backRows = t.backRows) :
    Keeps s (s.backwardTile t o) ∧ StepHas (s.backwardTile t o) x t.desc.step (fun w =>
      if opMode o ≠ 1 ∨ t.tokens.length ≤ t.backRows + t.backTile.length then
        w.op = (nextOp t.prog.ops t.iters t.op).1 ∧ w.waiting = false
      else w.op = t.op ∧ w.backRows = t.backRows + t.backTile.length) := by
  obtain ⟨m, hkeep, hrows, he⟩ := State.backwardTile_eq o hx h
  rw [he]
  cases hleft : t.rowsLeft o with
  | true =>
    have hmore : ¬ (opMode o ≠ 1 ∨ t.tokens.length ≤ t.backRows + t.backTile.length) := by
      simp [← Step.rowsLeft_eq_false, hleft]
    refine ⟨hkeep, hrows.mono fun w hw => ?_⟩
    rw [if_neg hmore]
    exact hw (not_not.1 (not_or.1 hmore).1)
  | false =>
    obtain ⟨hk, hs⟩ := State.finishOp_effect t.op hx (hrows.mono fun _ _ => trivial)
    refine ⟨hkeep.trans hk, hs.mono fun w hw => ?_⟩
    rwa [if_pos (Step.rowsLeft_eq_false.1 hleft)]

/-- OP_SCORE_BACKWARD where the step has the cube groups: an op without tokens ends; else the next tile runs, with its residue
retries counted. -/
theorem execOpScoreBackward_runs {s : State} {x faults cube : Nat} {t : Step} {o : RouteOp} (ht : s.running x = some t)
    (hb : t.atBackward = true) (ho : t.opNow = some o)
    (hn : (s.arrayNext t.part).any (fun u => u.is x t.desc.step) = true) (hf : faults < 3) (hc : cube < 128)
    (hm : faults ≠ 0 → cube / 4 ∈ s.groupsIn t.part) :
    execOpScoreBackward x (faults + 4 * cube) s = .next
      (if opMode o == 1 && t.tokens.isEmpty then s.finishOp t t.op
        else (s.arrayRetry x t.desc.step cube faults).backwardTile t o) := by
  obtain ⟨hcube, hfaults⟩ := faults_split (by omega : faults < 4) hc
  have hne : (faults == 3) = false := beq_eq_false_iff_ne.2 (by omega)
  simp only [execOpScoreBackward, ht, hb, ho, hn, hcube, hfaults, faults_of_mem hm, hne, Bool.not_true,
    Bool.or_self, Bool.false_eq_true, if_false, Option.getD_some]
  split <;> rfl

theorem opScoreBackward_completes (s : State) (x : Nat) (t : Step) (o : RouteOp) (ht : s.running x = some t)
    (hb : t.atBackward = true) (ho : t.opNow = some o)
    (hn : (s.arrayNext t.part).any (fun u => u.is x t.desc.step) = true) (faults : Nat) (hf : faults < 3) (cube : Nat)
    (hc : cube < 128) (hm : faults ≠ 0 → cube / 4 ∈ s.groupsIn t.part) :
    Completes (.opScoreBackward x (faults + 4 * cube)) s (fun u => u.stk = s.stk ∧
      (opMode o ≠ 1 ∨ t.tokens ≠ [] → u.reg aScaCntRetry = s.reg aScaCntRetry + word faults) ∧
      StepHas u x t.desc.step (fun w =>
        if opMode o ≠ 1 ∨ t.tokens.length ≤ t.backRows + t.backTile.length then
          w.op = (nextOp t.prog.ops t.iters t.op).1 ∧ w.waiting = false
        else w.op = t.op ∧ w.backRows = t.backRows + t.backTile.length)) := by
  refine ⟨_, execOpScoreBackward_runs ht hb ho hn hf hc hm, ?_⟩
  obtain ⟨hmem, hx⟩ := State.running_some ht
  split
  · next hnone =>
    simp only [Bool.and_eq_true, beq_iff_eq, List.isEmpty_iff] at hnone
    obtain ⟨hmode, htoks⟩ := hnone
    obtain ⟨hk, hs⟩ := State.finishOp_effect (s := s) t.op hx (stepHas_of_mem hmem hx trivial)
    refine ⟨hk.stk, fun h => ?_, hs.mono fun w hw => ?_⟩
    · exact absurd htoks (h.resolve_left (not_not.2 hmode))
    · rwa [if_pos (.inr (by simp [htoks]))]
  · have hretry := s.arrayRetry_incidental x t.desc.step cube faults
    have hin := ((stepHas_of_mem (P := fun w => w.op = t.op ∧ w.backRows = t.backRows) hmem hx ⟨rfl, rfl⟩).addCtr
      aScaCntRetry faults).incidental hretry fun w v he hw =>
        ⟨(congrArg Step.Gist.op he).trans hw.1, (congrArg Step.Gist.backRows he).trans hw.2⟩
    obtain ⟨hk, hs⟩ := State.backwardTile_effect o hx hin
    refine ⟨hk.stk.trans hretry.stk, fun _ => ?_, hs⟩
    rw [hk.regs _ (by decide), hretry.regs _ (by decide), State.reg_addCtr_same]
    rfl

end Sys2Proof.Machine
end

section
/-! What releases, exits and increments change (R121, R125, R126, R207 to R213): output memory, the arrival counters, and the
marks of the tokens' records. -/

namespace Sys2Proof.Machine

/-! ## Token records -/

/-- A mark that keeps a token's index keeps the group's gist. -/
theorem Group.gist_mark (g : Group) (i : Nat) {f : TokRec → TokRec} (h : ∀ k, (f k).index = k.index) :
    (g.mark i f).gist = g.gist := by
  simp only [Group.gist, Group.mark, List.map_map, Group.Gist.mk.injEq, true_and]
  refine List.map_congr_left fun k _ => ?_
  simp only [Function.comp_apply]
  split
  · exact h k
  · rfl

/-- The group once a token's increment has been made. -/
def Group.counting (i : Nat) (g : Group) : Group :=
  { g.mark i (fun k => { k with settled := true, counted := true }) with finish := g.finish.filter (· != i) }

theorem Group.gist_counting (g : Group) (i : Nat) : (g.counting i).gist = g.gist := g.gist_mark i fun _ => rfl

theorem Group.gist_addTout (g : Group) (i : Nat) (term : Word) : (g.addTout i term).gist = g.gist := rfl

/-- Every record of a token is marked as counted. -/
def Group.CountedAt (i : Nat) (g : Group) : Prop := ∀ k ∈ g.toks, k.index = i → k.counted = true

theorem Group.countedAt_counting (g : Group) (i : Nat) : (g.counting i).CountedAt i := by
  intro k hk hi
  obtain ⟨q, -, rfl⟩ := List.mem_map.1 hk
  dsimp only at hi ⊢
  split
  · rfl
  · next hq => exact absurd (by simpa [hq] using hi) (by simpa using hq)

/-- A record once counted stays so. -/
theorem Group.CountedAt.counting {g : Group} {i : Nat} (h : g.CountedAt i) (j : Nat) : (g.counting j).CountedAt i := by
  intro k hk hi
  obtain ⟨q, hq, rfl⟩ := List.mem_map.1 hk
  dsimp only at hi ⊢
  split
  · rfl
  · next hj => exact h q hq (by simpa [hj] using hi)

@[simp] theorem State.reg_modGroup (s : State) (x : Nat) (step : Word) (layer : Nat) (f : Group → Group) (a : Nat) :
    (s.modGroup x step layer f).reg a = s.reg a := State.reg_congr rfl a

theorem State.countToken_eq (s : State) (t : Step) (g : Group) (i : Nat) :
    s.countToken t g i = (s.countUp (t.counterOf g) 1).modGroup t.desc.ctx t.desc.step g.layer (Group.counting i) := rfl

theorem Step.counterOf_lt (t : Step) (g : Group) : t.counterOf g < 65536 := Nat.mod_lt _ (by decide)

/-- An increment adds 1 to the layer's arrival counter. -/
theorem State.reg_countToken (s : State) (t : Step) (g : Group) (i : Nat) :
    (s.countToken t g i).reg (aCtr (t.counterOf g)) = s.reg (aCtr (t.counterOf g)) + 1 := by
  have hc := Nat.mod_eq_of_lt (t.counterOf_lt g)
  rw [State.countToken_eq, State.reg_modGroup, State.countUp, hc]
  exact s.reg_bump_same _

theorem State.countToken_incidental (s : State) (t : Step) (g : Group) (i : Nat) : Incidental s (s.countToken t g i) := by
  refine (Incidental.addCtr s 1 fun h => ?_).trans (.modGroup _ _ _ _ fun h => h.gist_counting i)
  have := scoring_bounds h
  unfold aCtr at this
  omega

/-! ## Releases -/

theorem State.writeFlag_incidental (s : State) (t : Step) (g : Group) (i : Nat) (f : FlagBits) :
    Incidental s (s.writeFlag t g i f) := by
  unfold State.writeFlag
  split
  · exact .refl s
  · exact (Incidental.hbmWrite s _ _).trans (.chargeHbm _ _ _)

theorem State.writeOut_incidental (s : State) (t : Step) (g : Group) (i : Nat) (row : Bytes) (f : FlagBits) :
    Incidental s (s.writeOut t g i row f) :=
  (((Incidental.hbmWriteP s _ _ _).trans (.chargeHbm _ _ _)).trans (State.writeFlag_incidental _ _ _ _ _)).trans
    (.modGroup _ _ _ _ fun g => g.gist_addTout _ _)

theorem State.notePoison_incidental (s : State) (t : Step) : Incidental s (s.notePoison t) := by
  have hcar : aCarErr ∉ scoringRegs := by decide
  unfold State.notePoison
  split
  · exact .setF s _ _ _ hcar
  · exact (Incidental.modStep s _ _ (f := fun u => { u with poison := true }) fun _ => rfl).trans
      (State.errBit_incidental _ _ _ hcar)

theorem State.releaseEmpty_incidental (s : State) (t : Step) (g : Group) (k : TokRec) :
    Incidental s (s.releaseEmpty t g k) :=
  ((s.writeOut_incidental _ _ _ _ _).trans (.ite _ (State.notePoison_incidental _ _) (.refl _))).trans
    (.modGroup _ _ _ _ fun g => g.gist_mark _ fun _ => rfl)

theorem drainZeros_incidental (n x : Nat) (step : Word) (layer : Nat) (s : State) :
    Incidental s (drainZeros n x step layer s) := by
  induction n generalizing s with
  | zero => exact .refl s
  | succ n ih =>
    unfold drainZeros
    split
    · exact .refl s
    · split
      · exact .refl s
      · exact .ite _ (((s.countToken_incidental _ _ _).trans (.bump _ (by decide))).trans (ih _)) (.refl s)

/-- Releasing the decided tokens without contributions changes no gist (R125, R136). -/
theorem State.releaseZeros_incidental (s : State) (x : Nat) (step : Word) : Incidental s (s.releaseZeros x step) := by
  unfold State.releaseZeros
  split
  · exact .refl s
  · split
    · exact .refl s
    · exact (Incidental.foldl _ (fun _ _ => State.releaseEmpty_incidental _ _ _ _) _ _).trans
        (drainZeros_incidental _ _ _ _ _)

/-! ## Increments that follow a forced exit (R136, R207, R212) -/

/-- The layer of the step that a context and STEP name counts in counter c. -/
def State.CountsIn (s : State) (x : Nat) (step : Word) (layer c : Nat) : Prop :=
  ∀ t g, s.stepOf x step = some t → t.groupAt layer = some g → t.counterOf g = c

/-- A step that a change in place finds by its name is the changed one. -/
theorem State.stepOf_modStep (s : State) (x : Nat) (step : Word) {f : Step → Step} (hf : ∀ t, (f t).desc = t.desc) :
    (s.modStep x step f).stepOf x step = (s.stepOf x step).map f := by
  have hsame : ((fun t : Step => t.is x step) ∘ fun u => if u.is x step then f u else u) = fun t => t.is x step := by
    funext u
    simp only [Function.comp_apply]
    split
    · simp only [Step.is, hf]
    · rfl
  simp only [State.stepOf, State.modStep, List.find?_map, hsame]
  cases hu : s.rgm.steps.find? (fun t => t.is x step) with
  | none => rfl
  | some u => simp [State.stepOf_is hu]

theorem Step.groups_modLayer (t : Step) (layer : Nat) (f : Group → Group) :
    (t.modLayer layer f).groups = t.groups.map (fun g => if g.layer == layer then f g else g) := by
  cases hg : t.group <;> simp [Step.groups, Step.modLayer, hg]

/-- The group of a layer that has been changed in its place. -/
theorem Step.groupAt_modLayer (t : Step) (layer : Nat) {f : Group → Group} (hf : ∀ g, (f g).layer = g.layer) :
    (t.modLayer layer f).groupAt layer = (t.groupAt layer).map f := by
  have hsame : ((fun g : Group => g.layer == layer) ∘ fun g => if g.layer == layer then f g else g) =
      fun g => g.layer == layer := by
    funext g
    simp only [Function.comp_apply]
    split
    · rw [hf]
    · rfl
  simp only [Step.groupAt, Step.groups_modLayer, List.find?_map, hsame]
  cases hg : t.groups.find? (fun g => g.layer == layer) with
  | none => rfl
  | some g =>
    have hl : g.layer = layer := by simpa using List.find?_some hg
    simp [hl]

/-- What the name and the layer find after an increment. -/
theorem State.stepOf_countToken (s : State) {t : Step} {x layer : Nat} {step : Word} {g : Group} (i : Nat)
    (ht : s.stepOf x step = some t) (hg : t.groupAt layer = some g) :
    (s.countToken t g i).stepOf x step = some (t.modLayer layer (Group.counting i)) ∧
      (t.modLayer layer (Group.counting i)).groupAt layer = some (g.counting i) := by
  obtain ⟨rfl, rfl⟩ := Step.is_iff.1 (State.stepOf_is ht)
  have hl : g.layer = layer := by simpa using List.find?_some hg
  subst hl
  constructor
  · rw [State.countToken_eq, State.modGroup, State.stepOf_modStep]
    · exact congrArg (Option.map _) ht
    · exact fun _ => rfl
  · rw [Step.groupAt_modLayer, hg]
    · rfl
    · exact fun _ => rfl

theorem State.CountsIn.bump {s : State} {x layer c : Nat} {step : Word} (h : s.CountsIn x step layer c) (a : Nat) :
    (s.bump a).CountsIn x step layer c := h

theorem State.CountsIn.countToken {s : State} {x layer c : Nat} {step : Word} (h : s.CountsIn x step layer c) {t : Step}
    {g : Group} (i : Nat) (ht : s.stepOf x step = some t) (hg : t.groupAt layer = some g) :
    (s.countToken t g i).CountsIn x step layer c := by
  intro u k hu hk
  obtain ⟨hu', hk'⟩ := s.stepOf_countToken i ht hg
  obtain rfl := Option.some.inj (hu.symm.trans hu')
  obtain rfl := Option.some.inj (hk.symm.trans hk')
  exact h t g ht hg

/-- An increment at a layer keeps what has been counted there. -/
theorem StepHas.countToken {s : State} {x layer i : Nat} {step : Word} {t : Step} {g : Group}
    (h : StepHas s x step (Step.GroupHas fun k => k.layer = layer ∧ k.CountedAt i)) (j : Nat)
    (ht : s.stepOf x step = some t) (hg : t.groupAt layer = some g) :
    StepHas (s.countToken t g j) x step (Step.GroupHas fun k => k.layer = layer ∧ k.CountedAt i) := by
  obtain ⟨rfl, rfl⟩ := Step.is_iff.1 (State.stepOf_is ht)
  have hl : g.layer = layer := by simpa using List.find?_some hg
  subst hl
  rw [State.countToken_eq]
  exact (h.addCtr _ 1).modGroup (fun _ hk => hk.1) fun _ hk => ⟨hk.1, hk.2.counting j⟩

theorem word_succ (n : Nat) : word (n + 1) = 1 + word n := by
  rw [word, Nat.add_comm, BitVec.ofNat_add]
  rfl

/-- The increments that follow one another make the counter go up by one each, and keep what has been counted. -/
theorem drainZeros_counts {x layer c i : Nat} {step : Word} (n : Nat) (s : State) (hc : s.CountsIn x step layer c)
    (h : StepHas s x step (Step.GroupHas fun k => k.layer = layer ∧ k.CountedAt i)) :
    (∃ m ≤ n, (drainZeros n x step layer s).reg (aCtr c) = s.reg (aCtr c) + word m) ∧
      StepHas (drainZeros n x step layer s) x step (Step.GroupHas fun k => k.layer = layer ∧ k.CountedAt i) := by
  have hstay (n : Nat) (s : State) : ∃ m ≤ n, s.reg (aCtr c) = s.reg (aCtr c) + word m := ⟨0, by omega, by simp [word]⟩
  induction n generalizing s with
  | zero => exact ⟨hstay 0 s, h⟩
  | succ n ih =>
    unfold drainZeros
    split
    · exact ⟨hstay _ s, h⟩
    · next t g hfound =>
      obtain ⟨t', ht, hmap⟩ := Option.bind_eq_some_iff.1 hfound
      obtain ⟨g', hg, he⟩ := Option.map_eq_some_iff.1 hmap
      obtain ⟨rfl, rfl⟩ := Prod.mk.inj he
      split
      · exact ⟨hstay _ s, h⟩
      · next j _ _ =>
        split
        · obtain ⟨⟨m, hm, hr⟩, hs⟩ := ih ((s.countToken t' g' j).bump aCarCntRelease)
            ((hc.countToken j ht hg).bump _) ((h.countToken j ht hg).bump _)
          refine ⟨⟨m + 1, by omega, ?_⟩, hs⟩
          have hrel : aCtr c ≠ aCarCntRelease := by unfold aCtr aCarCntRelease; omega
          rw [hr, State.reg_bump_other _ hrel, ← hc t' g' ht hg, State.reg_countToken, hc t' g' ht hg, word_succ,
            ← add_assoc]
        · exact ⟨hstay _ s, h⟩

end Sys2Proof.Machine
end

section
/-! The select unit (R110 to R118, R130 to R136, R207 to R212, R591): a tile's results enter the layer, the rounds of a bounded
layer, the close, and the increments of tokens that have exited. -/

namespace Sys2Proof.Machine

/-! ## Records keep their tokens -/

theorem mem_recInsert {k q : TokRec} {l : List TokRec} : q ∈ recInsert k l ↔ q = k ∨ q ∈ l := by
  induction l with
  | nil => simp [recInsert]
  | cons r l ih =>
    unfold recInsert
    split
    · rw [List.mem_cons, ih, List.mem_cons]
      tauto
    · rw [List.mem_cons]

theorem mem_foldl_recInsert {q : TokRec} (fresh l : List TokRec) :
    q ∈ fresh.foldl (fun l k => recInsert k l) l ↔ q ∈ fresh ∨ q ∈ l := by
  induction fresh generalizing l with
  | nil => simp
  | cons k fresh ih =>
    rw [List.foldl_cons, ih, mem_recInsert, List.mem_cons]
    tauto

/-- The record of a scored token is that token's. -/
theorem Step.chooseFor_index (t : Step) (g : Group) (level : Nat) (q : Scored) : (t.chooseFor g level q).index = q.index := by
  unfold Step.chooseFor
  dsimp only
  split
  · rfl
  · split <;> rfl

/-- Deciding a choice keeps the record's token (R114 to R116). -/
theorem State.decide_index (s : State) (t : Step) (g : Group) (j : Nat) (k : TokRec) (a : Admit) :
    (s.decide_ t g j k a).1.index = k.index := by
  unfold State.decide_
  split
  · rfl
  · dsimp only
    split
    · rfl
    split
    · rfl
    split
    · rfl
    split
    · rfl
    · split <;> rfl

/-- A round keeps the tokens and their order (R113). -/
theorem State.roundOver_index (s : State) (t : Step) (g : Group) (j : Nat) (l : List TokRec) (a : Admit) :
    (s.roundOver t g j l a).1.map (·.index) = l.map (·.index) := by
  induction l generalizing a with
  | nil => rfl
  | cons k l ih => simp only [State.roundOver, List.map_cons, s.decide_index, ih]

/-- Every scored token has a record once the first rounds are over (R113, R131, R132). -/
theorem State.firstRounds_index (s : State) (t : Step) (g : Group) {fresh : List TokRec} {i : Nat}
    (h : i ∈ fresh.map (·.index)) : i ∈ (s.firstRounds t g fresh).1.toks.map (·.index) := by
  unfold State.firstRounds
  dsimp only
  split
  · obtain ⟨k, hk, rfl⟩ := List.mem_map.1 h
    rw [List.map_append, s.roundOver_index, ← List.map_append, List.take_append_drop]
    exact List.mem_map_of_mem ((mem_foldl_recInsert _ _).2 (.inl hk))
  · have hrounds (js : List Nat) (q : List TokRec × Admit) :
        (js.foldl (fun q j => s.roundOver t g j q.1 q.2) q).1.map (·.index) = q.1.map (·.index) := by
      induction js generalizing q with
      | nil => rfl
      | cons j js ih => rw [List.foldl_cons, ih, s.roundOver_index]
    have hr := hrounds (List.range 16) (fresh, { loads := g.loads, decisions := 0, ovf := 0, unreach := 0 })
    generalize (List.range 16).foldl (fun q j => s.roundOver t g j q.1 q.2) _ = r at hr ⊢
    rw [← hr] at h
    obtain ⟨k, hk, rfl⟩ := List.mem_map.1 h
    exact List.mem_map_of_mem ((mem_foldl_recInsert _ _).2 (.inl hk))

/-! ## SELECT_TILE and ADMISSION_ROUND -/

/-- A bit that has been set reads 1. -/
theorem State.flag_setBit (s : State) (a : Nat) {n : Nat} (hn : n < 64) : (s.setBit a n).flag a n = true := by
  have hf := s.f_setF_same a n n 1 (Nat.le_refl n) hn
  simpa [State.f, State.flag, State.setBit, fld, bitAt] using hf

/-- A worker's step is listed. -/
theorem State.worker_present {s : State} {x : Nat} {t : Step} (h : s.worker x = some t) :
    t.desc.ctx = x ∧ StepHas s x t.desc.step fun _ => True :=
  ⟨(State.worker_some h).2.1, stepHas_of_mem (State.worker_some h).1 (State.worker_some h).2.1 trivial⟩

/-- What admission leaves is the step's group, with the new loads. -/
theorem StepHas.afterAdmit {s : State} {t : Step} {x : Nat} {P : Step → Prop} {Q : Group → Prop} {g : Group} (a : Admit)
    (hx : t.desc.ctx = x) (h : StepHas s x t.desc.step P) (hq : Q { g with loads := a.loads }) :
    StepHas (s.afterAdmit t g a) x t.desc.step (Step.GroupHas Q) := by
  subst hx
  exact ((h.addCtr aShdCntOvf a.ovf).addCtr aShdCntUnreach a.unreach).withGroup hq

theorem State.chargeSelect_incidental (s : State) (t : Step) (layer prior cycles : Nat) :
    Incidental s (s.chargeSelect t layer prior cycles) :=
  (s.chargeStep_incidental t prior cycles).trans
    (.modGroup _ _ _ _ (f := fun g => { g with spent := prior + cycles }) fun _ => rfl)

/-- What a gist tells of a group outlasts the charge and the releases that follow admission. -/
theorem StepHas.after_admission {s : State} {t : Step} {x layer prior cycles : Nat} {step : Word} {P : Group → Prop}
    (h : StepHas s x step (Step.GroupHas P)) (hq : ∀ g k, k.gist = g.gist → P g → P k) :
    StepHas ((s.chargeSelect t layer prior cycles).releaseZeros x step) x step (Step.GroupHas P) :=
  h.group_incidental ((s.chargeSelect_incidental t layer prior cycles).trans (State.releaseZeros_incidental _ _ _)) hq

/-- A tile's results have left the list of those scored, and each of its tokens has a record. -/
def Group.Selected (tile : List Scored) (rest : List (List Scored)) (g : Group) : Prop :=
  g.scored = rest ∧ ∀ q ∈ tile, q.index ∈ g.toks.map (·.index)

theorem Group.Selected.of_gist {tile : List Scored} {rest : List (List Scored)} (g k : Group) (he : k.gist = g.gist)
    (h : g.Selected tile rest) : k.Selected tile rest := by
  have hscored : k.scored = g.scored := congrArg Group.Gist.scored he
  have hidx : k.toks.map (·.index) = g.toks.map (·.index) := congrArg Group.Gist.indices he
  exact ⟨hscored.trans h.1, fun q hq => hidx ▸ h.2 q hq⟩

theorem State.selectNow_has {s : State} {t : Step} {x : Nat} {g : Group} {tile : List Scored} {rest : List (List Scored)}
    (hx : t.desc.ctx = x) (h : StepHas s x t.desc.step fun _ => True) (hs : g.scored = tile :: rest) :
    StepHas (s.selectNow t g tile) x t.desc.step (Step.GroupHas (Group.Selected tile rest)) := by
  subst hx
  unfold State.selectNow
  dsimp only
  refine StepHas.after_admission ?_ Group.Selected.of_gist
  refine StepHas.group_incidental ?_ (Incidental.modStep _ _ _ fun _ => rfl) Group.Selected.of_gist
  refine StepHas.afterAdmit _ rfl h ⟨by simp [hs], fun q hq => ?_⟩
  refine State.firstRounds_index s t g (List.mem_map.2 ⟨t.chooseFor g t.level q, ?_, t.chooseFor_index g _ q⟩)
  exact (mem_foldl_recInsert _ _).2 (.inl (List.mem_map_of_mem hq))

theorem selectTile_completes (s : State) (x : Nat) (t : Step) (g : Group) (ht : s.worker x = some t) (hg : t.group = some g)
    (tile : List Scored) (rest : List (List Scored)) (hs : g.scored = tile :: rest) :
    Completes (.selectTile x 0) s (fun u => StepHas u x t.desc.step (fun w => ∃ h, w.group = some h ∧ h.scored = rest ∧
      ∀ q ∈ tile, ∃ k ∈ h.toks, k.index = q.index)) := by
  obtain ⟨hx, hin⟩ := State.worker_present ht
  have he : exec (.selectTile x 0) s = .next ((s.setStep t).selectNow t g tile) := by
    show execSelectTile x 0 s = _
    simp [execSelectTile, ht, hg, hs]
  refine ⟨_, he, ?_⟩
  have hput := hin.setStep (Step.is_iff.2 ⟨hx, rfl⟩) (Q := fun _ => True) trivial
  refine (State.selectNow_has hx hput hs).mono ?_
  rintro w ⟨h, hw, hscored, htoks⟩
  exact ⟨h, hw, hscored, fun q hq => List.mem_map.1 (htoks q hq)⟩

/-- Three differences in a row halt the engine (R591). -/
theorem selectTile_halts (s : State) (x : Nat) (t : Step) (g : Group) (ht : s.worker x = some t) (hg : t.group = some g)
    (tile : List Scored) (rest : List (List Scored)) (hs : g.scored = tile :: rest) (d : Nat) (hd : 3 ≤ d) :
    Completes (.selectTile x d) s (fun u => u.pwr.halted = true ∧ u.flag aSelErr 0 = true) := by
  have hne : (d == 0) = false := beq_eq_false_iff_ne.2 (by omega)
  have he : exec (.selectTile x d) s = .next ((s.setBit aSelErr 0).addCtr aSelCntRetry (min d 3)).halt := by
    show execSelectTile x d s = _
    simp [execSelectTile, ht, hg, hs, hne, hd]
  refine ⟨_, he, State.halt_halted _, ?_⟩
  have hreg : ((s.setBit aSelErr 0).addCtr aSelCntRetry (min d 3)).halt.reg aSelErr =
      (s.setBit aSelErr 0).reg aSelErr := by
    rw [State.halt_regs _ (by decide), State.reg_addCtr_other _ _ (by decide)]
  rw [State.flag, State.regN, hreg]
  exact s.flag_setBit aSelErr (by decide)

/-- The next round of a bounded layer counts one round up and keeps its tokens (R113, R132). -/
theorem admissionRound_completes (s : State) (x : Nat) (t : Step) (g : Group) (ht : s.worker x = some t)
    (hg : t.group = some g) (hb : g.bounded = true) (ha : g.allSelected = true) (hr : g.round ≠ 0)
    (hu : g.toks.all (·.decided) = false) :
    Completes (.admissionRound x) s (fun u => StepHas u x t.desc.step (fun w => ∃ h, w.group = some h ∧
      h.round = g.round + 1 ∧ h.toks.map (·.index) = g.toks.map (·.index))) := by
  obtain ⟨rfl, hin⟩ := State.worker_present ht
  have hne : (g.round == 0) = false := beq_eq_false_iff_ne.2 hr
  have hguard : (!g.bounded || !g.allSelected || g.round == 0 || g.toks.all (·.decided)) = false := by
    simp [hb, ha, hne, hu]
  let a : Admit := { loads := g.loads, decisions := 0, ovf := 0, unreach := 0 }
  let r := s.roundOver t g g.round g.toks a
  let n := t.decisions g
  have he : exec (.admissionRound t.desc.ctx) s = .next
      (((s.afterAdmit t { g with toks := r.1, round := g.round + 1 } r.2).chargeSelect t g.layer g.spent
        (ceilDiv (n + r.2.decisions) 64 - ceilDiv n 64)).releaseZeros t.desc.ctx t.desc.step) := by
    show execAdmissionRound t.desc.ctx s = _
    simp only [execAdmissionRound, ht, hg, hguard, Bool.false_eq_true, if_false]
    rfl
  refine ⟨_, he, ?_⟩
  have hput := hin.afterAdmit (g := { g with toks := r.1, round := g.round + 1 }) r.2 rfl
    (Q := fun h => h.round = g.round + 1 ∧ h.toks.map (·.index) = g.toks.map (·.index))
    ⟨rfl, s.roundOver_index t g g.round g.toks a⟩
  refine hput.after_admission ?_
  rintro h k hk ⟨hround, hidx⟩
  exact ⟨(congrArg Group.Gist.round hk).trans hround, (congrArg Group.Gist.indices hk).trans hidx⟩

/-! ## SELECTION_CLOSE (R134 to R136, R425, R429, R750) -/

theorem State.writeRecords_incidental (s : State) (t : Step) (g : Group) : Incidental s (s.writeRecords t g) := by
  have hwrite (u : State) (i : Nat) (base : Nat) : Incidental u (match g.toks.find? (fun k => k.index == i) with
      | some k => u.hbmWrite (base + 8 * i) (natLe 8 (t.rec36 g k))
      | none => u.hbmWrite (base + 8 * i) (natLe 8 (1 <<< 29))) := by
    split
    · exact .hbmWrite u _ _
    · exact .hbmWrite u _ _
  unfold State.writeRecords
  exact .ite _ (.refl s) ((Incidental.foldl _ (fun u i => hwrite u i _) _ _).trans (.chargeHbm _ _ _))

theorem State.writeSummary_incidental (s : State) (t : Step) (g : Group) : Incidental s (s.writeSummary t g) :=
  (((Incidental.hbmWrite s _ _).trans (.hbmWrite _ _ _)).trans (.hbmWrite _ _ _)).trans (.chargeHbm _ _ _)

/-- Of the words of a summary, the first counts tokens; the others' counters are no scoring registers. -/
theorem State.addSelCounters_incidental (s : State) (w : List Nat) :
    Incidental (s.addCtr aSelCntToken (w.getD 0 0)) (s.addSelCounters w) :=
  ((((Incidental.addCtr _ _ (by decide)).trans (.addCtr _ _ (by decide))).trans (.addCtr _ _ (by decide))).trans
    (.addCtr _ _ (by decide))).trans (.addCtr _ _ (by decide))

theorem State.ringCloses_incidental (s : State) (x : Nat) (step : Word) : Incidental s (s.ringCloses x step) := by
  unfold State.ringCloses
  split
  · exact .refl s
  · split
    · exact .refl s
    · refine .ite _ (.refl s) ((Incidental.foldl _ (fun u e => ?_) _ _).trans (.modGroup _ _ _ _ fun _ => rfl))
      split
      · exact .refl u
      · exact .ite _ (.refl u) (u.sendKept_only _).incidental

/-- The group of a layer that closes: its digests, and the words of its summary that the step's record sums. -/
def Step.close (t : Step) (g h : Group) : Group :=
  { h with
    closed := true, tsel := (List.range ((g.enter.length + 4095) / 4096)).map (t.tselOf g)
    tally := [(t.summary g).getD 2 0, (t.summary g).getD 4 0, (t.summary g).getD 5 0, (t.summary g).getD 3 0] }

/-- SELECTION_CLOSE of a decided layer: records, summary and counters, then the group closes and what waited for it goes
on. -/
theorem execSelectionClose_closes {s : State} {x : Nat} {t : Step} {g : Group} (ht : s.worker x = some t)
    (hg : t.group = some g) (hc : g.closed = false) (ha : g.allSelected = true) (hd : g.toks.all (·.decided) = true) :
    exec (.selectionClose x) s = .next
      ((((((s.writeRecords t g).writeSummary t g).addSelCounters (t.summary g)).modGroup x t.desc.step g.layer
        (t.close g)).releaseZeros x t.desc.step).ringCloses x t.desc.step) := by
  have hguard : (g.closed || !g.allSelected || !g.toks.all (·.decided)) = false := by simp [hc, ha, hd]
  show execSelectionClose x s = _
  simp only [execSelectionClose, ht, hg, hguard, Bool.false_eq_true, if_false]
  rfl

theorem selectionClose_completes (s : State) (x : Nat) (t : Step) (g : Group) (ht : s.worker x = some t)
    (hg : t.group = some g) (hc : g.closed = false) (ha : g.allSelected = true) (hd : g.toks.all (·.decided) = true) :
    Completes (.selectionClose x) s (fun u => u.reg aSelCntToken = s.reg aSelCntToken + word g.enter.length ∧
      StepHas u x t.desc.step (fun w => ∃ h, w.group = some h ∧ h.closed = true)) := by
  obtain ⟨hmem, hx, -⟩ := State.worker_some ht
  refine ⟨_, execSelectionClose_closes ht hg hc ha hd, ?_⟩
  have hbefore := (s.writeRecords_incidental t g).trans (State.writeSummary_incidental _ t g)
  have hsum := ((s.writeRecords t g).writeSummary t g).addSelCounters_incidental (t.summary g)
  have hafter (u : State) := (u.releaseZeros_incidental x t.desc.step).trans
    (State.ringCloses_incidental _ x t.desc.step)
  constructor
  · rw [(hafter _).regs _ (by decide), State.reg_modGroup, hsum.regs _ (by decide), State.reg_addCtr_same,
      hbefore.regs _ (by decide)]
    rfl
  · have hlayer : StepHas s x t.desc.step (Step.GroupHas fun h => h.layer = g.layer) :=
      stepHas_of_mem hmem hx ⟨g, hg, rfl⟩
    have hgist (h k : Group) (hk : k.gist = h.gist) (hl : h.layer = g.layer) : k.layer = g.layer :=
      (congrArg Group.Gist.layer hk).trans hl
    have hclosed := (((hlayer.group_incidental hbefore hgist).addCtr _ _).group_incidental hsum hgist).modGroup
      (f := t.close g) (fun _ => id) (Q := fun h => h.closed = true) fun _ _ => rfl
    exact hclosed.group_incidental (hafter _) fun h k hk hcl => (congrArg Group.Gist.closed hk).trans hcl

/-! ## EXIT_COUNT (R121, R126, R207, R210, R212) -/

section Exits

variable {s : State} {x i : Nat} {t : Step} {g : Group} {k : TokRec}

/-- An exit at selection that may be counted: the flag byte is written, the term of TOUT taken, and the increment made. -/
theorem execExitCount_atSelection (ht : s.worker x = some t) (hg : t.group = some g)
    (hk : g.toks.find? (fun k => k.index == i && (k.exited || k.forced) && !k.counted) = some k) (hm : g.mayCount = true)
    (hf : k.forced = false) (hfin : g.finish = []) (hrec : t.prog.at g.pSelect 0x20 8 = 0 ∨ g.closed = true) :
    exec (.exitCount x i) s = .next (((s.writeFlag t g i { exit := true }).modGroup x t.desc.step g.layer
      (fun h => h.addTout i (toutTerm i ({ exit := true } : FlagBits).toNat []))).countToken t g i) := by
  have hguard : (!g.finish.isEmpty || (t.prog.at g.pSelect 0x20 8 != 0 && !g.closed)) = false := by
    rcases hrec with h | h <;> simp [hfin, h]
  show execExitCount x i s = _
  simp only [execExitCount, ht, hg, hk, hm, hf, hguard, Bool.not_true, Bool.false_eq_true, if_false]

/-- A forced exit whose turn it is: the increment, and those of the tokens of count 0 behind it. -/
theorem execExitCount_forced (ht : s.worker x = some t) (hg : t.group = some g)
    (hk : g.toks.find? (fun k => k.index == i && (k.exited || k.forced) && !k.counted) = some k) (hm : g.mayCount = true)
    (hf : k.forced = true) (hfin : g.finish.head? = some i) :
    exec (.exitCount x i) s = .next ((s.countToken t g i).drain x t.desc.step g.layer) := by
  show execExitCount x i s = _
  simp [execExitCount, ht, hg, hk, hm, hf, hfin]

end Exits

/-- The flag byte is charged to ACC alone. -/
theorem State.reg_writeFlag (s : State) (t : Step) (g : Group) (i : Nat) (f : FlagBits) {a : Nat} (h : 0xC0000 ≤ a) :
    (s.writeFlag t g i f).reg a = s.reg a := by
  have hne : a ≠ aAccHbm (t.desc.ctx % 4096) := by unfold aAccHbm; omega
  unfold State.writeFlag
  split
  · rfl
  · unfold State.chargeHbm State.accAdd
    split
    · rfl
    · exact State.reg_addCtr_other _ _ hne

/-- The increment of a token marks its record in the layer's group. -/
theorem StepHas.countToken_counted {s : State} {t : Step} {g : Group} {x : Nat} (i : Nat) (hx : t.desc.ctx = x)
    (h : StepHas s x t.desc.step (Step.GroupHas fun h => h.layer = g.layer)) :
    StepHas (s.countToken t g i) x t.desc.step (Step.GroupHas fun h => h.layer = g.layer ∧ h.CountedAt i) := by
  subst hx
  rw [State.countToken_eq]
  exact (h.addCtr _ 1).modGroup (fun _ => id) fun h hl => ⟨hl, h.countedAt_counting i⟩

theorem exitCount_completes_atSelection (s : State) (x : Nat) (t : Step) (g : Group) (ht : s.worker x = some t)
    (hg : t.group = some g) (i : Nat) (k : TokRec)
    (hk : g.toks.find? (fun k => k.index == i && (k.exited || k.forced) && !k.counted) = some k) (hm : g.mayCount = true)
    (hf : k.forced = false) (hfin : g.finish = []) (hrec : t.prog.at g.pSelect 0x20 8 = 0 ∨ g.closed = true) :
    Completes (.exitCount x i) s (fun u => u.reg (aCtr (t.counterOf g)) = s.reg (aCtr (t.counterOf g)) + 1 ∧
      StepHas u x t.desc.step (fun w => ∃ h, w.group = some h ∧ ∀ k ∈ h.toks, k.index = i → k.counted = true)) := by
  refine ⟨_, execExitCount_atSelection ht hg hk hm hf hfin hrec, ?_, ?_⟩
  · rw [State.reg_countToken, State.reg_modGroup, s.reg_writeFlag _ _ _ _ (by unfold aCtr; omega)]
  · obtain ⟨hmem, hx, -⟩ := State.worker_some ht
    have hlayer : StepHas s x t.desc.step (Step.GroupHas fun h => h.layer = g.layer) := stepHas_of_mem hmem hx ⟨g, hg, rfl⟩
    have hout := hlayer.group_incidental ((s.writeFlag_incidental t g i { exit := true }).trans
      (.modGroup _ x t.desc.step g.layer (f := fun h => h.addTout i (toutTerm i ({ exit := true } : FlagBits).toNat []))
        fun h => h.gist_addTout _ _)) fun h k hk hl => (congrArg Group.Gist.layer hk).trans hl
    refine (hout.countToken_counted i hx).mono ?_
    rintro w ⟨h, hw, -, hcount⟩
    exact ⟨h, hw, hcount⟩

/-- Taking the first of a list out of it shortens the list. -/
theorem length_filter_ne_of_head? {l : List Nat} {i : Nat} (h : l.head? = some i) :
    (l.filter (· != i)).length + 1 ≤ l.length := by
  cases l with
  | nil => cases h
  | cons j l =>
    obtain rfl := Option.some.inj h
    simpa using List.length_filter_le (· != j) l

theorem exitCount_completes_forced (s : State) (x : Nat) (t : Step) (g : Group) (ht : s.worker x = some t)
    (hg : t.group = some g) (i : Nat) (k : TokRec)
    (hk : g.toks.find? (fun k => k.index == i && (k.exited || k.forced) && !k.counted) = some k) (hm : g.mayCount = true)
    (hf : k.forced = true) (hfin : g.finish.head? = some i) (hs : s.stepOf x t.desc.step = some t)
    (hl : t.groupAt g.layer = some g) :
    Completes (.exitCount x i) s (fun u =>
      StepHas u x t.desc.step (fun w => ∃ h, w.group = some h ∧ ∀ k ∈ h.toks, k.index = i → k.counted = true) ∧
      ∃ m, m + 1 ≤ g.finish.length ∧
        u.reg (aCtr (t.counterOf g)) = s.reg (aCtr (t.counterOf g)) + 1 + word m) := by
  refine ⟨_, execExitCount_forced ht hg hk hm hf hfin, ?_⟩
  obtain ⟨hmem, hx, -⟩ := State.worker_some ht
  obtain ⟨hstep, hgroup⟩ := s.stepOf_countToken i hs hl
  have hcounts : s.CountsIn x t.desc.step g.layer (t.counterOf g) := by
    intro u h hu hh
    obtain rfl := Option.some.inj (hu.symm.trans hs)
    obtain rfl := Option.some.inj (hh.symm.trans hl)
    rfl
  have hcounted := StepHas.countToken_counted i hx (stepHas_of_mem hmem hx ⟨g, hg, rfl⟩)
  obtain ⟨⟨m, hm, hr⟩, hd⟩ := drainZeros_counts (g.counting i).finish.length (s.countToken t g i)
    (hcounts.countToken i hs hl) hcounted
  have hdrain : (s.countToken t g i).drain x t.desc.step g.layer =
      drainZeros (g.counting i).finish.length x t.desc.step g.layer (s.countToken t g i) := by
    simp only [State.drain, hstep, Option.bind_some, hgroup, Option.elim_some]
  rw [hdrain]
  refine ⟨hd.mono ?_, m, ?_, ?_⟩
  · rintro w ⟨h, hw, -, hcount⟩
    exact ⟨h, hw, hcount⟩
  · exact (Nat.succ_le_succ hm).trans (length_filter_ne_of_head? hfin)
  · rw [hr, State.reg_countToken]

/-! ## The claim -/

/-- Settles O50: each command by its own lemma. The moment of an exit's increment is log 88; the one that waits for STEP_TAG
(R136, log 52) is kept out by `Group.mayCount`. -/
theorem tilesAreScoredAndSelected : Obligations.TilesAreScoredAndSelected := by
  intro s
  refine ⟨scoreTileStart_completes s, fun x t g tile ht hg hl => ⟨scoreTileDone_completes s x t g tile ht hg hl,
    scoreTileDone_reruns s x t g tile ht hg hl⟩, opScoreBackward_completes s, fun x t g ht hg => ⟨?_, ?_, ?_, ?_⟩⟩
  · exact fun tile rest hs =>
      ⟨selectTile_completes s x t g ht hg tile rest hs, selectTile_halts s x t g ht hg tile rest hs⟩
  · exact admissionRound_completes s x t g ht hg
  · exact selectionClose_completes s x t g ht hg
  · exact fun i k hk hm => ⟨exitCount_completes_atSelection s x t g ht hg i k hk hm,
      exitCount_completes_forced s x t g ht hg i k hk hm⟩

end Sys2Proof.Machine
end

section
/-! Fields and flags of registers beside a write, and where the port's answer comes from. -/

namespace Sys2Proof.Machine

/-! ## Bits of fields (R7 to R9) -/

theorem testBit_fld (w hi lo i : Nat) : (fld w hi lo).testBit i = (decide (i < hi - lo + 1) && w.testBit (lo + i)) := by
  simp [fld, Nat.testBit_mod_two_pow, Nat.testBit_shiftRight]

/-- Inside the field the bits are those put in, outside it those that were there. -/
theorem testBit_withFld (w v i : Nat) {hi lo : Nat} (h : lo ≤ hi) :
    (withFld w hi lo v).testBit i = if lo ≤ i ∧ i ≤ hi then v.testBit (i - lo) else w.testBit i := by
  have hlow : w % 2 ^ lo < 2 ^ lo := Nat.mod_lt _ (by positivity)
  have hmid : 2 ^ lo * (v % 2 ^ (hi - lo + 1)) + w % 2 ^ lo < 2 ^ (hi + 1) := by
    have hv : v % 2 ^ (hi - lo + 1) < 2 ^ (hi - lo + 1) := Nat.mod_lt _ (by positivity)
    calc 2 ^ lo * (v % 2 ^ (hi - lo + 1)) + w % 2 ^ lo < 2 ^ lo * (v % 2 ^ (hi - lo + 1) + 1) := by
          rw [Nat.mul_add]; omega
      _ ≤ 2 ^ lo * 2 ^ (hi - lo + 1) := Nat.mul_le_mul_left _ hv
      _ = 2 ^ (hi + 1) := by rw [← pow_add]; congr 1; omega
  have hsplit : withFld w hi lo v =
      2 ^ (hi + 1) * (w >>> (hi + 1)) + (2 ^ lo * (v % 2 ^ (hi - lo + 1)) + w % 2 ^ lo) := by
    simp only [withFld, Nat.shiftLeft_eq]
    ring
  rw [hsplit, Nat.testBit_two_pow_mul_add _ hmid, Nat.testBit_two_pow_mul_add _ hlow, Nat.testBit_shiftRight,
    Nat.testBit_mod_two_pow, Nat.testBit_mod_two_pow]
  by_cases hlo : i < lo
  · rw [if_pos (by omega), if_pos hlo, if_neg (by omega)]
    simp [hlo]
  · by_cases hhi : i ≤ hi
    · rw [if_pos (by omega), if_neg hlo, if_pos (by omega), decide_eq_true (by omega), Bool.true_and]
    · rw [if_neg (by omega), if_neg (by omega), Nat.add_sub_cancel' (by omega)]

/-- A field apart from the one stored keeps its value. -/
theorem State.f_setF_apart (s : State) (a v : Nat) {hi lo hi' lo' : Nat} (h : lo ≤ hi) (h' : lo' ≤ hi') (h64 : hi' < 64)
    (hd : hi < lo' ∨ hi' < lo) : (s.setF a hi lo v).f a hi' lo' = s.f a hi' lo' := by
  refine Nat.eq_of_testBit_eq fun i => ?_
  simp only [State.f, State.regN, State.setF, State.reg_setReg_same, BitVec.toNat_ofNat, testBit_fld, Nat.testBit_mod_two_pow,
    testBit_withFld _ _ _ h]
  by_cases hi' : i < hi' - lo' + 1
  · rw [if_neg (by omega), decide_eq_true (by omega : lo' + i < 64), Bool.true_and]
  · rw [decide_eq_false hi', Bool.false_and, Bool.false_and]

/-- A field whose bits a mask names is the one merged in (R14). -/
theorem fld_mergeMask (w v : Word) {mask hi lo : Nat} (h : lo ≤ hi) (h64 : hi < 64)
    (hm : ∀ i < hi + 1, lo ≤ i → mask.testBit i = true) : fld (mergeMask w v mask).toNat hi lo = fld v.toNat hi lo := by
  refine Nat.eq_of_testBit_eq fun i => ?_
  rw [testBit_fld, testBit_fld]
  by_cases hi' : i < hi - lo + 1
  · have h1 := hm (lo + i) (by omega) (by omega)
    have h2 : lo + i < 64 := by omega
    simp only [mergeMask, BitVec.testBit_toNat, BitVec.getLsbD_or, BitVec.getLsbD_and, BitVec.getLsbD_not,
      BitVec.getLsbD_ofNat, h1, h2, decide_true, Bool.and_self, Bool.not_true, Bool.and_false, Bool.false_or, Bool.and_true]
  · rw [decide_eq_false hi', Bool.false_and, Bool.false_and]

/-! ## Flags -/

theorem State.flag_eq_f (s : State) (a n : Nat) : s.flag a n = (s.f a n n == 1) := by
  simp [State.flag, State.f, bitAt, fld]

/-- Two states in which a register holds the same read its fields and flags alike. -/
theorem State.f_congr {s t : State} {a : Nat} (h : t.reg a = s.reg a) (hi lo : Nat) : t.f a hi lo = s.f a hi lo := by
  rw [State.f, State.regN, h]
  rfl

theorem State.flag_congr {s t : State} {a : Nat} (h : t.reg a = s.reg a) (n : Nat) : t.flag a n = s.flag a n := by
  rw [State.flag_eq_f, State.flag_eq_f, State.f_congr h]

/-- A flag reads back as stored. -/
theorem State.flag_setF_same (s : State) (a : Nat) {n v : Nat} (hn : n < 64) : (s.setF a n n v).flag a n = (v % 2 == 1) := by
  rw [State.flag_eq_f, s.f_setF_same a n n v (Nat.le_refl n) hn]
  simp

/-- A flag outside the field stored keeps its value. -/
theorem State.flag_setF_apart (s : State) (a v : Nat) {hi lo n : Nat} (h : lo ≤ hi) (hn : n < 64) (hd : hi < n ∨ n < lo) :
    (s.setF a hi lo v).flag a n = s.flag a n := by
  rw [State.flag_eq_f, State.flag_eq_f, s.f_setF_apart a v h (Nat.le_refl n) hn hd]

/-! ## Whether anything answers (R625, R639) -/

theorem State.dark_congr {s t : State} (hp : t.pwr = s.pwr) (hs : t.reg aPwrState = s.reg aPwrState)
    (hb : t.reg aPwrBoot = s.reg aPwrBoot) : t.dark = s.dark := by
  simp only [State.dark, State.retains, State.f, State.regN, hp, hs, hb]

end Sys2Proof.Machine
end

section
/-! What the end of a step keeps (R163, R220, R303, R304, R543): the registers of PWR, those of LAN and CAR but for the counts
of voided packets, the power state and the management island; and what it leaves of the step itself. -/

namespace Sys2Proof.Machine

/-! ## What is kept -/

/-- Registers that the end of a step leaves: those of PWR, and those of LAN and CAR but for LAN_CNT_VOID. -/
abbrev EndKept (a : Nat) : Prop := 0x3000 ≤ a ∧ a < 0x4000 ∨ 0xC0000 ≤ a ∧ a < 0x120000 ∧ a % 0x400 ≠ 0x58

/-- These registers, the power state and the management island are kept. -/
structure EndKeeps (s t : State) : Prop where
  regs : ∀ a, EndKept a → t.reg a = s.reg a
  pwr : t.pwr = s.pwr
  mgt : t.mgt = s.mgt

namespace EndKeeps

theorem refl (s : State) : EndKeeps s s := ⟨fun _ _ => rfl, rfl, rfl⟩

theorem trans {s t u : State} (h : EndKeeps s t) (k : EndKeeps t u) : EndKeeps s u :=
  ⟨fun a ha => (k.regs a ha).trans (h.regs a ha), k.pwr.trans h.pwr, k.mgt.trans h.mgt⟩

theorem foldl {α : Type} (f : State → α → State) (h : ∀ s a, EndKeeps s (f s a)) (l : List α) (s : State) :
    EndKeeps s (l.foldl f s) := by
  induction l generalizing s with
  | nil => exact .refl s
  | cons a l ih => exact (h s a).trans (ih _)

theorem ite {s t u : State} (c : Prop) [Decidable c] (ht : EndKeeps s t) (hu : EndKeeps s u) :
    EndKeeps s (if c then t else u) := by
  split
  · exact ht
  · exact hu

/-- Changes outside the registers, the power state and the management island. -/
theorem of_same {s t : State} (hr : t.regs = s.regs) (hp : t.pwr = s.pwr) (hm : t.mgt = s.mgt) : EndKeeps s t :=
  ⟨fun a _ => State.reg_congr hr a, hp, hm⟩

theorem setReg (s : State) {a : Nat} (v : Word) (h : ¬ EndKept a) : EndKeeps s (s.setReg a v) :=
  ⟨fun _ hb => s.reg_setReg_other v fun e => h (e ▸ hb), rfl, rfl⟩

theorem modStep (s : State) (x : Nat) (step : Word) (f : Step → Step) : EndKeeps s (s.modStep x step f) := .of_same rfl rfl rfl

theorem setStep (s : State) (t : Step) : EndKeeps s (s.setStep t) := .of_same rfl rfl rfl

theorem setRgm (s : State) (r : Rgm) : EndKeeps s { s with rgm := r } := .of_same rfl rfl rfl

theorem setCtx (s : State) (x : Nat) (c : Ctx) : EndKeeps s (s.setCtx x c) := .of_same rfl rfl rfl

theorem setLane (s : State) (n : Nat) (l : Lane) : EndKeeps s (s.setLane n l) := .of_same rfl rfl rfl

end EndKeeps

theorem AttentionOnly.endKeeps {s t : State} (h : AttentionOnly s t) : EndKeeps s t := by
  obtain ⟨_, _, _, rfl, hr⟩ := h
  exact ⟨fun a ha => hr a (by unfold EndKept at ha; omega), rfl, rfl⟩

theorem PoolsOnly.endKeeps {s t : State} (h : PoolsOnly s t) : EndKeeps s t := by
  obtain ⟨⟨_, _, _, _, _, _, rfl⟩, hr, -⟩ := h
  exact ⟨fun a ha => hr a (by unfold EndKept at ha; omega), rfl, rfl⟩

theorem FabricOnly.endKeeps {s t : State} (h : FabricOnly s t) : EndKeeps s t := by
  obtain ⟨_, _, rfl, hr⟩ := h
  exact ⟨fun a ha => hr a (by unfold EndKept at ha; omega), rfl, rfl⟩

theorem EndKeeps.errBit (s : State) {a : Nat} (n c : Nat) (h : ¬ EndKept a) : EndKeeps s (s.errBit a n c) :=
  (EndKeeps.setReg s _ h).trans (State.raise_only _ _).endKeeps

/-! ## Stopping a step (R163, R220, R303) -/

theorem State.voidOn_endKeeps (s : State) (n : Nat) (f : DPkt → Bool) : EndKeeps s (s.voidOn n f) := by
  unfold State.voidOn
  exact .ite _ (.refl s) ((EndKeeps.setLane s _ _).trans
    (.setReg _ _ (by unfold EndKept aLanCntVoid; omega)))

theorem State.voidAll_endKeeps (s : State) (f : DPkt → Bool) : EndKeeps s (s.voidAll f) :=
  .foldl _ (fun s n => s.voidOn_endKeeps n f) _ s

theorem State.headsGone_endKeeps (s : State) (t : Step) : EndKeeps s (s.headsGone t) :=
  .foldl _ (fun s _ => .foldl _ (fun s _ => .ite _ (.setLane s _ _) (.refl s)) _ s) _ s

theorem State.stopStep_endKeeps (s : State) (t : Step) (endc : Nat) : EndKeeps s (s.stopStep t endc) := by
  have hvoid := (s.voidAll_endKeeps fun p => p.ctx == t.desc.ctx && p.step == t.desc.step).trans
    (State.headsGone_endKeeps _ t)
  have hrest (u : State) (c : Car) (l : Col) (d : Shd) (x : Nat) (k : Ctx) (f : Step → Step) : EndKeeps u
      ((({ u with car := c, col := l, shd := d } : State).setCtx x k).modStep t.desc.ctx t.desc.step f) :=
    .of_same rfl rfl rfl
  exact (hvoid.trans (hrest _ _ _ _ _ _ _)).trans (.setReg _ _ (by unfold EndKept aRgmCntAbort; omega))

theorem State.undoStep_endKeeps (s : State) (t : Step) : EndKeeps s (s.undoStep t) := by
  unfold State.undoStep
  split
  · exact .refl s
  · exact (((EndKeeps.foldl _ (fun u (e : Nat × List Nat) => (u.freeAll_only e.2).endKeeps.trans (.setRgm _ _)) _ s).trans (.setCtx _ _ _)).trans
      (.foldl _ (fun u _ => .setRgm u _) _ _)).trans (.setRgm _ _)

theorem State.dropStep_endKeeps (s : State) (t : Step) (endc : Nat) : EndKeeps s (s.dropStep t endc) :=
  ((s.undoStep_endKeeps t).trans (State.stopStep_endKeeps _ t endc)).trans (.modStep _ _ _ _)

/-! ## The lock-step entry of the context freezes (R541, R543) -/

/-- Forming a record changes WAY alone. -/
theorem State.formRecord_only (s : State) (x : Nat) (t : Step) (ws : List Word) (chain : Word) :
    ∃ way, (s.formRecord x t ws chain).2 = { s.bump aWayCntRec with way := way } := by
  unfold State.formRecord
  dsimp only
  split
  · exact ⟨_, rfl⟩
  · exact ⟨_, rfl⟩

theorem State.recordToFlash_effect (s : State) (b : Bytes) (mismatch : Bool) :
    EndKeeps s (s.recordToFlash b mismatch) ∧ (s.recordToFlash b mismatch).rgm = s.rgm := by
  unfold State.recordToFlash State.queueFlash
  dsimp only
  split
  · next h =>
    split at h
    · cases h
    · cases h
      exact ⟨.of_same rfl rfl rfl, rfl⟩
  · refine ⟨?_, by simp⟩
    exact ((EndKeeps.setReg s _ (by decide)).trans (.setReg _ _ (by decide))).trans (State.raise_only _ _).endKeeps

/-- The mismatch fields, the record and attention change no step. -/
theorem State.lsFill_effect (s : State) {i : Nat} (stage layer lane lo hi : Nat) (h : i < 16) :
    EndKeeps s (s.lsFill i stage layer lane lo hi) ∧ (s.lsFill i stage layer lane lo hi).rgm = s.rgm := by
  have hmm : ¬ EndKept (aWayLsMm i) := by unfold EndKept aWayLsMm; omega
  have htok : ¬ EndKept (aWayLsTok i) := by unfold EndKept aWayLsTok; omega
  have hrecord (u : State) (x : Nat) (t : Step) (ws : List Word) (c : Word) (b : Bytes) :
      EndKeeps u ((u.formRecord x t ws c).2.recordToFlash b true) ∧
        ((u.formRecord x t ws c).2.recordToFlash b true).rgm = u.rgm := by
    obtain ⟨way, he⟩ := u.formRecord_only x t ws c
    have hform : EndKeeps u { u.bump aWayCntRec with way := way } :=
      (EndKeeps.setReg u _ (by decide)).trans (.of_same rfl rfl rfl)
    obtain ⟨hk, hr⟩ := (u.formRecord x t ws c).2.recordToFlash_effect b true
    rw [he] at hk hr ⊢
    exact ⟨hform.trans hk, hr⟩
  unfold State.lsFill
  dsimp only
  exact ⟨(((EndKeeps.setReg s _ hmm).trans (.setReg _ _ htok)).trans (hrecord _ _ _ _ _ _).1).trans
    (.errBit _ _ _ (by decide)), (State.errBit_rgm _ _ _ _).trans ((hrecord _ _ _ _ _ _).2.trans
      ((State.setReg_rgm _ _ _).trans (State.setReg_rgm _ _ _)))⟩

/-- The running step of a context is marked as frozen, where it has one; no other step changes. -/
def FrozenOnly (x : Nat) (s t : State) : Prop :=
  t.rgm = s.rgm ∨ ∃ u, s.running x = some u ∧ t.rgm = (s.setStep { u with frozen := true }).rgm

theorem FrozenOnly.of_rgm {x : Nat} {s t u : State} (h : FrozenOnly x s t) (he : u.rgm = t.rgm) : FrozenOnly x s u := by
  rwa [FrozenOnly, he]

theorem FrozenOnly.setStep {x : Nat} {s t : State} {u : Step} (hu : s.running x = some u) (h : t.rgm = s.rgm) :
    FrozenOnly x s (t.setStep { u with frozen := true }) :=
  .inr ⟨u, hu, by simp only [State.setStep, h]⟩

theorem State.lsMark_effect (s : State) {i : Nat} (h : i < 16) :
    EndKeeps s (s.lsMark i) ∧ FrozenOnly (s.f (aWayLsCfg i) 11 0) s (s.lsMark i) := by
  have hcfg : ¬ EndKept (aWayLsCfg i) := by unfold EndKept aWayLsCfg; omega
  unfold State.lsMark
  dsimp only
  split
  · next u hu => exact ⟨(EndKeeps.setReg s _ hcfg).trans (.setStep _ _), FrozenOnly.setStep hu (State.setF_rgm s _ _ _ _)⟩
  · exact ⟨.setReg s _ hcfg, .inl (State.setF_rgm s _ _ _ _)⟩

theorem State.lsSend_effect (s : State) (x : Nat) (step : Word) (layer kind stage first count : Nat) (body : Bytes) :
    EndKeeps s (s.lsSend x step layer kind stage first count body) ∧
      (s.lsSend x step layer kind stage first count body).rgm = s.rgm := by
  have hsend := s.sendKept_only
  unfold State.lsSend
  refine ⟨(hsend _).endKeeps, ?_⟩
  obtain ⟨_, _, he, -⟩ := hsend _
  rw [he]

theorem State.lsStop_effect (s : State) {i : Nat} (stage : Nat) (tell : Bool) (h : i < 16) :
    EndKeeps s (s.lsStop i stage tell) ∧ FrozenOnly (s.f (aWayLsCfg i) 11 0) s (s.lsStop i stage tell) := by
  unfold State.lsStop State.lsFreeze
  split
  · exact ⟨.refl s, .inl rfl⟩
  · dsimp only
    obtain ⟨hk, hf⟩ := s.lsMark_effect h
    obtain ⟨hk', hr⟩ := (s.lsMark i).lsFill_effect stage (s.layerNow (s.f (aWayLsCfg i) 11 0)) 0xFF 0 0x3FFFFF h
    split
    · exact ⟨(hk.trans hk').trans (State.lsSend_effect _ _ _ _ _ _ _ _ _).1,
        (hf.of_rgm hr).of_rgm (State.lsSend_effect _ _ _ _ _ _ _ _ _).2⟩
    · exact ⟨hk.trans hk', hf.of_rgm hr⟩

/-- The freeze that an abort brings with it (R543). -/
theorem State.lsAbort_effect (s : State) (x : Nat) : EndKeeps s (s.lsAbort x) ∧ FrozenOnly x s (s.lsAbort x) := by
  unfold State.lsAbort
  split
  · next i hi =>
    have hlt : i < 16 := List.mem_range.1 (List.mem_of_find?_eq_some hi)
    have hp := List.find?_some hi
    have hctx : s.f (aWayLsCfg i) 11 0 = x := beq_iff_eq.1 (Bool.and_eq_true_iff.1 hp).2
    exact hctx ▸ s.lsStop_effect 7 true hlt
  · exact ⟨.refl s, .inl rfl⟩

/-! ## Aborting (R303, R304) -/

theorem State.abortStep_endKeeps (s : State) (t : Step) (endc : Nat) : EndKeeps s (s.abortStep t endc) := by
  unfold State.abortStep
  exact .ite _ (.refl s) (((EndKeeps.foldl _ (fun s u => s.dropStep_endKeeps u 0x23) _ s).trans
    (State.stopStep_endKeeps _ t endc)).trans (State.lsAbort_effect _ _).1)

theorem State.abortWhere_endKeeps (s : State) (f : Step → Bool) (endc : Nat) : EndKeeps s (s.abortWhere f endc) := by
  refine .foldl _ (fun s t => ?_) _ s
  split
  · exact s.abortStep_endKeeps _ endc
  · exact .refl s

/-- The steps of a name: one is listed, and every one of them has a property. -/
def StepsHave (s : State) (x : Nat) (step : Word) (P : Step → Prop) : Prop :=
  (∃ w ∈ s.rgm.steps, w.is x step = true) ∧ ∀ w ∈ s.rgm.steps, w.is x step = true → P w

theorem StepsHave.stepHas {s : State} {x : Nat} {step : Word} {P : Step → Prop} (h : StepsHave s x step P) :
    StepHas s x step P := by
  obtain ⟨⟨w, hw, hi⟩, hall⟩ := h
  exact ⟨w, hw, hi, hall w hw hi⟩

/-- A change of every step of a name gives each of them what it sets. -/
theorem StepsHave.of_modStep {s : State} {x : Nat} {step : Word} {P : Step → Prop} {f : Step → Step}
    (h : ∃ w ∈ s.rgm.steps, w.is x step = true) (hd : ∀ w, (f w).desc = w.desc) (hp : ∀ w, P (f w)) :
    StepsHave (s.modStep x step f) x step P := by
  obtain ⟨w, hw, hi⟩ := h
  refine ⟨⟨f w, List.mem_map.2 ⟨w, hw, if_pos hi⟩, by rwa [Step.is, hd]⟩, fun v hv hvi => ?_⟩
  obtain ⟨u, -, rfl⟩ := List.mem_map.1 hv
  by_cases hu : u.is x step = true
  · rw [if_pos hu]
    exact hp u
  · rw [if_neg hu] at hvi
    exact absurd hvi hu

/-- The freeze of a context's running step leaves the steps of a name that do not run. -/
theorem StepsHave.frozenOnly {s t : State} {x : Nat} {step : Word} {P : Step → Prop} (h : StepsHave s x step P)
    (hp : ∀ w, P w → w.phase ≠ .running) (hf : FrozenOnly x s t) : StepsHave t x step P := by
  obtain he | ⟨u, hu, he⟩ := hf
  · rwa [StepsHave, he]
  · obtain ⟨⟨w, hw, hi⟩, hall⟩ := h
    have hrun : u.phase = .running := by
      have hp := List.find?_some hu
      simpa using (Bool.and_eq_true_iff.1 hp).2
    have hux := (State.running_some hu).2
    have hne (v : Step) (hv : v.is x step = true) : v.is u.desc.ctx u.desc.step = false := by
      by_contra hvu
      rw [Bool.not_eq_false] at hvu
      have hname : u.is x step = true := Step.is_iff.2 ⟨hux, (Step.is_iff.1 hvu).2.symm.trans (Step.is_iff.1 hv).2⟩
      exact hp u (hall u (State.running_some hu).1 hname) hrun
    have hsteps : t.rgm.steps = s.rgm.steps.map (fun v => if v.is u.desc.ctx u.desc.step then { u with frozen := true } else v) :=
      congrArg Rgm.steps he
    refine ⟨⟨w, ?_, hi⟩, fun v hv hvi => ?_⟩
    · rw [hsteps]
      exact List.mem_map.2 ⟨w, hw, by rw [hne w hi]; rfl⟩
    · rw [hsteps] at hv
      obtain ⟨q, hq, rfl⟩ := List.mem_map.1 hv
      by_cases hqu : q.is u.desc.ctx u.desc.step = true
      · rw [if_pos hqu] at hvi
        exact absurd (hne u hvi) (by simp [Step.is_self])
      · rw [if_neg hqu] at hvi ⊢
        exact hall q hq hvi

/-! ## What is left of the step -/

/-- Steps are listed under the names that there were. -/
def SameNames (s t : State) : Prop := t.rgm.steps.map (·.desc) = s.rgm.steps.map (·.desc)

theorem SameNames.refl (s : State) : SameNames s s := rfl

theorem SameNames.trans {s t u : State} (h : SameNames s t) (k : SameNames t u) : SameNames s u := Eq.trans k h

theorem SameNames.of_steps {s t : State} (h : t.rgm.steps = s.rgm.steps) : SameNames s t := by rw [SameNames, h]

theorem SameNames.foldl {α : Type} (f : State → α → State) (h : ∀ s a, SameNames s (f s a)) (l : List α) (s : State) :
    SameNames s (l.foldl f s) := by
  induction l generalizing s with
  | nil => exact .refl s
  | cons a l ih => exact (h s a).trans (ih _)

theorem SameNames.modStep (s : State) (x : Nat) (step : Word) {f : Step → Step} (hd : ∀ w, (f w).desc = w.desc) :
    SameNames s (s.modStep x step f) := by
  simp only [SameNames, State.modStep, List.map_map]
  refine List.map_congr_left fun w _ => ?_
  simp only [Function.comp_apply]
  split
  · exact hd w
  · rfl

/-- A name that lists a step goes on doing so. -/
theorem SameNames.listed {s t : State} (h : SameNames s t) {x : Nat} {step : Word}
    (hw : ∃ w ∈ s.rgm.steps, w.is x step = true) : ∃ w ∈ t.rgm.steps, w.is x step = true := by
  obtain ⟨w, hw, hi⟩ := hw
  have hm : w.desc ∈ t.rgm.steps.map (·.desc) := h ▸ List.mem_map_of_mem hw
  obtain ⟨v, hv, he⟩ := List.mem_map.1 hm
  exact ⟨v, hv, by rwa [Step.is, he]⟩

theorem SameNames.stepOf_isSome {s t : State} (h : SameNames s t) {x : Nat} {step : Word}
    (hw : (s.stepOf x step).isSome = true) : (t.stepOf x step).isSome = true := by
  simp only [State.stepOf, List.find?_isSome] at hw ⊢
  exact h.listed hw

/-- What each change of a list of changes keeps, all of them keep. -/
theorem foldl_keeps {α β : Type} (g : State → β) {f : State → α → State} (h : ∀ s a, g (f s a) = g s) (l : List α)
    (s : State) : g (l.foldl f s) = g s := by
  induction l generalizing s with
  | nil => rfl
  | cons a l ih => exact (ih _).trans (h s a)

theorem State.voidOn_rgm (s : State) (n : Nat) (f : DPkt → Bool) : (s.voidOn n f).rgm = s.rgm := by
  unfold State.voidOn
  dsimp only
  split
  · rfl
  · exact State.addCtr_rgm _ _ _

theorem State.voidAll_rgm (s : State) (f : DPkt → Bool) : (s.voidAll f).rgm = s.rgm :=
  foldl_keeps State.rgm (fun s n => s.voidOn_rgm n f) _ s

theorem State.headsGone_rgm (s : State) (t : Step) : (s.headsGone t).rgm = s.rgm := by
  refine foldl_keeps State.rgm (fun s _ => foldl_keeps State.rgm (fun s _ => ?_) _ s) _ s
  dsimp only
  split <;> rfl

/-- What stopping a step sets in it. -/
def Step.stopped (endc : Nat) (t : Step) : Step :=
  { t with phase := .draining, abort := endc, group := none, tails := [], waiting := false, frozen := false }

/-- Of the steps, stopping one changes those of its name. -/
theorem State.stopStep_steps (s : State) (t : Step) (endc : Nat) :
    (s.stopStep t endc).rgm.steps = (s.modStep t.desc.ctx t.desc.step (Step.stopped endc)).rgm.steps := by
  have h := (State.headsGone_rgm (s.voidAll fun p => p.ctx == t.desc.ctx && p.step == t.desc.step) t).trans
    (s.voidAll_rgm _)
  unfold State.stopStep
  dsimp only
  rw [State.bump_rgm]
  simp only [State.modStep, State.setCtx, State.colAbort, State.abandon, h]
  rfl

theorem State.freeAll_rgm (s : State) (hs : List Nat) : (s.freeAll hs).rgm = s.rgm := by
  obtain ⟨⟨_, _, _, _, _, _, h⟩, -, -⟩ := s.freeAll_only hs
  rw [h]

theorem State.undoStep_steps (s : State) (t : Step) : (s.undoStep t).rgm.steps = s.rgm.steps := by
  unfold State.undoStep
  split
  · rfl
  · dsimp only
    refine (foldl_keeps (·.rgm.steps) ?_ _ _).trans (foldl_keeps (·.rgm.steps) ?_ _ s)
    · exact fun _ _ => rfl
    · intro u e
      show (u.freeAll e.2).rgm.steps = u.rgm.steps
      rw [State.freeAll_rgm]

theorem State.dropStep_names (s : State) (t : Step) (endc : Nat) : SameNames s (s.dropStep t endc) :=
  ((SameNames.of_steps (s.undoStep_steps t)).trans
    ((SameNames.modStep _ _ _ (f := Step.stopped endc) fun _ => rfl).trans
      (.of_steps (State.stopStep_steps _ _ _)))).trans (.modStep _ _ _ fun _ => rfl)

/-- An aborted step drains with its end code, under every listing of its name (R303). -/
theorem State.abortStep_drains (s : State) (t : Step) {endc : Nat} (h0 : t.abort = 0) (hp : t.phase = .running)
    (hw : ∃ w ∈ s.rgm.steps, w.is t.desc.ctx t.desc.step = true) :
    StepHas (s.abortStep t endc) t.desc.ctx t.desc.step (fun w => w.phase = .draining ∧ w.abort = endc) := by
  have hguard : (t.abort != 0 || !(t.phase == .running || t.phase == .draining)) = false := by simp [h0, hp]
  unfold State.abortStep
  rw [hguard, if_neg Bool.false_ne_true]
  dsimp only
  have hlater := (SameNames.foldl _ (fun s u => s.dropStep_names u 0x23) (s.laterSteps t) s).listed hw
  generalize (s.laterSteps t).foldl (fun s u => s.dropStep u 0x23) s = m at hlater ⊢
  have hstop : StepsHave (m.stopStep t endc) t.desc.ctx t.desc.step (fun w => w.phase = .draining ∧ w.abort = endc) := by
    rw [StepsHave, State.stopStep_steps]
    exact StepsHave.of_modStep hlater (fun _ => rfl) fun _ => ⟨rfl, rfl⟩
  refine (hstop.frozenOnly (fun w hw => ?_) (State.lsAbort_effect _ _).2).stepHas
  simp [hw.1]

end Sys2Proof.Machine
end

section
/-! Dispatch lanes entering and leaving service, and the writes of their registers (R145, R173, R179 to R187). -/

namespace Sys2Proof.Machine

/-! ## A lane's registers -/

theorem EndKeeps.dark {s t : State} (h : EndKeeps s t) : t.dark = s.dark :=
  State.dark_congr h.pwr (h.regs _ (by decide)) (h.regs _ (by decide))

/-- A register of LAN or above is stored and the port answers: of the registers that one differs. -/
theorem State.done_of_setReg {s t : State} {a : Nat} {v : Word} (hr : t.regs = (s.setReg a v).regs) (hp : t.pwr = s.pwr)
    (hd : s.dark = false) (ha : 0xC0000 ≤ a) : t.done.reg a = v ∧ SameRegsBut [a] s t.done ∧ t.done.outcome = 0 := by
  have hother {b : Nat} (hb : b ≠ a) : t.reg b = s.reg b := (State.reg_congr hr b).trans (s.reg_setReg_other v hb)
  have hdark : t.dark = s.dark :=
    State.dark_congr hp (hother (by unfold aPwrState; omega)) (hother (by unfold aPwrBoot; omega))
  refine ⟨?_, fun b hb => ?_, t.outcome_done (hdark.trans hd)⟩
  · rw [State.reg_done, State.reg_congr hr, State.reg_setReg_same]
  · rw [State.reg_done, hother (by simpa using hb)]

theorem State.done_setF (s : State) {a : Nat} (hi lo v : Nat) (hd : s.dark = false) (ha : 0xC0000 ≤ a) :
    SameRegsBut [a] s (s.setF a hi lo v).done ∧ (s.setF a hi lo v).done.outcome = 0 :=
  (State.done_of_setReg (t := s.setF a hi lo v) rfl (State.setF_pwr _ _ _ _ _) hd ha).2

theorem aLanCtrl_ge (n : Nat) : 0xC0000 ≤ aLanCtrl n := by unfold aLanCtrl; omega

theorem aLanRqStat_ne_aLanCtrl (n : Nat) : aLanRqStat n ≠ aLanCtrl n := by unfold aLanRqStat aLanCtrl; omega

theorem endKept_aLanCtrl {n : Nat} (hn : n < 128) : EndKept (aLanCtrl n) := by unfold EndKept aLanCtrl; omega

theorem islLane_of_lt {n : Nat} (hn : n < 128) : islLane n = true := decide_eq_true hn

/-- The state of a lane's island stands in LAN_CTRL (R184). -/
theorem State.islState_lane (s : State) {n : Nat} (hn : n < 128) : s.islState n = s.f (aLanCtrl n) 1 0 := by
  rw [State.islState, if_pos (islLane_of_lt hn)]

theorem State.setIsl_lane (s : State) (v : Nat) {n : Nat} (hn : n < 128) :
    s.setIsl n v = s.setF (aLanCtrl n) 1 0 v := by
  rw [State.setIsl, if_pos (islLane_of_lt hn)]

theorem State.laneOn_iff (s : State) {n : Nat} : s.laneOn n = true ↔ n < 128 ∧ s.islState n = 0 := by
  simp [State.laneOn]

theorem islFatal_lane {n : Nat} (hn : n < 128) : islFatal n = false := by
  simp [islFatal, islStack]
  omega

theorem State.islState_congr {s t : State} {n : Nat} (hn : n < 128) (h : t.reg (aLanCtrl n) = s.reg (aLanCtrl n)) :
    t.islState n = s.islState n := by
  rw [State.islState_lane _ hn, State.islState_lane _ hn, State.f_congr h]

/-- A request bit is beside the state in LAN_CTRL. -/
theorem State.islState_setF_request (s : State) {n b : Nat} (v : Nat) (hn : n < 128) (hb : 1 < b) :
    (s.setF (aLanCtrl n) b b v).islState n = s.islState n := by
  rw [State.islState_lane _ hn, State.islState_lane _ hn,
    s.f_setF_apart _ v (Nat.le_refl b) (by decide) (by decide) (.inr hb)]

theorem State.islState_setF_state (s : State) {n v : Nat} (hn : n < 128) (hv : v < 4) :
    (s.setF (aLanCtrl n) 1 0 v).islState n = v := by
  rw [State.islState_lane _ hn, State.f_setF_same _ _ _ _ _ (by decide) (by decide)]
  exact Nat.mod_eq_of_lt hv

theorem State.lane_setLane_same (s : State) (n : Nat) (l : Lane) : (s.setLane n l).lane n = l :=
  tabGet_tabSet_same lane0 s.lanes n l

theorem State.lane_congr {s t : State} (h : t.lanes = s.lanes) (n : Nat) : t.lane n = s.lane n := by
  rw [State.lane, State.lane, h]

/-- A request bit of LAN_CTRL that the port sets or clears. -/
theorem State.setRequest_done (s : State) (n : Nat) {b : Nat} (h64 : b < 64) (hd : s.dark = false) :
    let t := (s.setF (aLanCtrl n) b b 1).done
    t.flag (aLanCtrl n) b = true ∧ t.outcome = 0 ∧ SameRegsBut [aLanCtrl n] s t ∧ t.lanes = s.lanes := by
  obtain ⟨hs, ho⟩ := s.done_setF b b 1 hd (aLanCtrl_ge n)
  refine ⟨?_, ho, hs, State.done_lanes _⟩
  rw [State.flag_congr (State.reg_done _ _), State.flag_setF_same _ _ h64]
  rfl

/-! ## Requests met already (log 86) -/

theorem State.clearRequest (s : State) (n : Nat) {b : Nat} (h64 : b < 64) :
    let t := s.setF (aLanCtrl n) b b 0
    t.flag (aLanCtrl n) b = false ∧ SameRegsBut [aLanCtrl n] s t ∧ t.lanes = s.lanes := by
  refine ⟨?_, fun a ha => s.reg_setF_other _ _ _ (by simpa using ha), rfl⟩
  rw [State.flag_setF_same _ _ h64]
  rfl

/-! ## Leaving service (R180, R181, R599) -/

theorem State.raiseAt_reg (s : State) (c i : Nat) {a : Nat} (h : 0x2000 ≤ a) : (s.raiseAt c i).reg a = s.reg a := by
  obtain ⟨_, _, _, _, hr⟩ := s.raiseAt_only c i
  exact hr a (.inr h)

/-- A lane that is not retired goes out of service; the departure counts unless software asked for it (R599). -/
theorem State.depart_lane (s : State) {n : Nat} (b : Bool) (hn : n < 128) (hs : s.islState n ≠ 2) :
    ∃ m, s.depart n b = if b && !s.mgt.tests.contains n then ({ s with mgt := m } : State).setF (aLanCtrl n) 1 0 1
      else (({ s with mgt := m } : State).setF (aLanCtrl n) 1 0 1).countDeparture n := by
  have hstate (m : Mgt) : (({ s with mgt := m } : State).islState n == 2) = false := by
    have hsame : ({ s with mgt := m } : State).islState n = s.islState n := State.islState_congr hn rfl
    exact beq_false_of_ne (hsame ▸ hs)
  unfold State.depart
  dsimp only
  rw [hstate, if_neg Bool.false_ne_true, State.setIsl_lane _ _ hn]
  exact ⟨_, rfl⟩

/-- A departure that software asks for and no test counts against changes the state alone. -/
theorem State.depart_asked (s : State) {n : Nat} (hn : n < 128) (ht : s.mgt.tests.contains n = false)
    (hs : s.islState n ≠ 2) : ∃ m, s.depart n true = ({ s with mgt := m } : State).setF (aLanCtrl n) 1 0 1 := by
  obtain ⟨m, he⟩ := s.depart_lane true hn hs
  refine ⟨m, he.trans ?_⟩
  rw [ht]
  rfl

theorem State.retire_lane (s : State) {n : Nat} (hn : n < 128) :
    (s.retire n true).islState n = 2 ∧ (s.retire n true).lanes = s.lanes := by
  unfold State.retire
  dsimp only
  rw [if_pos rfl, State.raiseAt_lanes, State.setIsl_lane _ _ hn]
  refine ⟨(State.islState_congr hn (State.raiseAt_reg _ _ _ ?_)).trans (s.islState_setF_state hn (by decide)), rfl⟩
  exact (by decide : 0x2000 ≤ 0xC0000).trans (aLanCtrl_ge n)

theorem State.countDeparture_lane (s : State) {n : Nat} (hn : n < 128) (hs : s.islState n = 1) :
    ((s.countDeparture n).islState n = 1 ∨ (s.countDeparture n).islState n = 2) ∧ (s.countDeparture n).lanes = s.lanes := by
  unfold State.countDeparture
  dsimp only
  split
  · exact ⟨.inr (State.retire_lane _ hn).1, (State.retire_lane _ hn).2⟩
  · exact ⟨.inl hs, rfl⟩

/-- Any departure takes a lane that is not retired out of service, and may retire it (R601). -/
theorem State.depart_out (s : State) {n : Nat} (b : Bool) (hn : n < 128) (hs : s.islState n ≠ 2) :
    ((s.depart n b).islState n = 1 ∨ (s.depart n b).islState n = 2) ∧ (s.depart n b).lanes = s.lanes := by
  obtain ⟨m, he⟩ := s.depart_lane b hn hs
  have hone : (({ s with mgt := m } : State).setF (aLanCtrl n) 1 0 1).islState n = 1 :=
    State.islState_setF_state _ hn (by decide)
  rw [he]
  split
  · exact ⟨.inl hone, rfl⟩
  · exact State.countDeparture_lane _ hn hone

/-- A lane as it leaves service: nothing held, RTN_XOFF at 1, and its request cleared. -/
def State.emptyLane (s : State) (n : Nat) (placed : Bool) : State :=
  ((s.setLane n { lane0 with placed := placed }).setF (aLanRqStat n) 63 63 1).setF (aLanCtrl n) 8 8 0

section Empty

variable (s : State) (n : Nat) (placed : Bool)

theorem State.lane_emptyLane : (s.emptyLane n placed).lane n = { lane0 with placed := placed } := by
  rw [State.lane_congr (t := s.emptyLane n placed) ((State.setF_lanes _ _ _ _ _).trans (State.setF_lanes _ _ _ _ _)),
    State.lane_setLane_same]

theorem State.pwr_emptyLane : (s.emptyLane n placed).pwr = s.pwr :=
  (State.setF_pwr _ _ _ _ _).trans (State.setF_pwr _ _ _ _ _)

theorem State.mgt_emptyLane : (s.emptyLane n placed).mgt = s.mgt :=
  (State.setF_mgt _ _ _ _ _).trans (State.setF_mgt _ _ _ _ _)

theorem State.flag_emptyLane_request : (s.emptyLane n placed).flag (aLanCtrl n) 8 = false :=
  (State.clearRequest _ n (by decide)).1

theorem State.flag_emptyLane_xoff : (s.emptyLane n placed).flag (aLanRqStat n) 63 = true := by
  rw [State.emptyLane, State.flag_congr (State.reg_setF_other _ _ _ _ (aLanRqStat_ne_aLanCtrl n)),
    State.flag_setF_same _ _ (by decide)]
  rfl

theorem State.reg_emptyLane {a : Nat} (h : a ≠ aLanCtrl n) (k : a ≠ aLanRqStat n) :
    (s.emptyLane n placed).reg a = s.reg a := by
  rw [State.emptyLane, State.reg_setF_other _ _ _ _ h, State.reg_setF_other _ _ _ _ k]
  rfl

theorem State.islState_emptyLane (hn : n < 128) : (s.emptyLane n placed).islState n = s.islState n := by
  rw [State.emptyLane, State.islState_setF_request _ _ hn (by decide),
    State.islState_congr hn (State.reg_setF_other _ _ _ _ (aLanRqStat_ne_aLanCtrl n).symm)]
  rfl

end Empty

/-- A lane that goes out at once (R181): what its steps had there has ended, the lane is empty and LANE_DOWN is raised. -/
theorem State.laneOut_eq (s : State) (n : Nat) :
    ∃ m b, EndKeeps s m ∧ s.laneOut n = (m.emptyLane n b).raiseAt cLaneDown n := by
  unfold State.laneOut State.emptyLane
  dsimp only
  refine ⟨_, _, ?_, rfl⟩
  exact (s.abortWhere_endKeeps _ 0x31).trans (State.freeAll_only _ _).endKeeps

theorem State.laneOut_effect (s : State) {n : Nat} (hn : n < 128) :
    (∃ b, (s.laneOut n).lane n = { lane0 with placed := b }) ∧ (s.laneOut n).islState n = s.islState n ∧
      (s.laneOut n).dark = s.dark ∧ (s.laneOut n).mgt = s.mgt := by
  obtain ⟨m, b, hend, he⟩ := s.laneOut_eq n
  have hreg {a : Nat} (h : 0x2000 ≤ a) : (s.laneOut n).reg a = (m.emptyLane n b).reg a := by
    rw [he, State.raiseAt_reg _ _ _ h]
  have hpwr {a : Nat} (h : 0x3000 ≤ a ∧ a < 0x4000) : (s.laneOut n).reg a = s.reg a := by
    have hlan := aLanCtrl_ge n
    rw [hreg (by omega), State.reg_emptyLane _ _ _ (by omega) (by unfold aLanRqStat; omega), hend.regs _ (.inl h)]
  refine ⟨⟨b, ?_⟩, ?_, State.dark_congr ?_ (hpwr (by decide)) (hpwr (by decide)), ?_⟩
  · rw [he, State.lane_congr (State.raiseAt_lanes _ _ _), State.lane_emptyLane]
  · rw [State.islState_congr hn (hreg ((by decide : 0x2000 ≤ 0xC0000).trans (aLanCtrl_ge n))),
      State.islState_emptyLane _ _ _ hn, State.islState_congr hn (hend.regs _ (endKept_aLanCtrl hn))]
  · rw [he, State.raiseAt_pwr, State.pwr_emptyLane, hend.pwr]
  · rw [he, State.raiseAt_mgt, State.mgt_emptyLane, hend.mgt]

/-- The end of a departure that software asks for: of the lane's registers the state alone changes. -/
theorem State.depart_asked_effect (s : State) {n : Nat} (hn : n < 128) (ht : s.mgt.tests.contains n = false)
    (hs : s.islState n ≠ 2) :
    let t := s.depart n true
    t.islState n = 1 ∧ t.lanes = s.lanes ∧ t.dark = s.dark ∧ t.flag (aLanCtrl n) 8 = s.flag (aLanCtrl n) 8 ∧
      ∀ a, a ≠ aLanCtrl n → t.reg a = s.reg a := by
  obtain ⟨m, he⟩ := s.depart_asked hn ht hs
  rw [he]
  have hlan := aLanCtrl_ge n
  have hmgt (a : Nat) : ({ s with mgt := m } : State).reg a = s.reg a := State.reg_congr rfl a
  refine ⟨State.islState_setF_state _ hn (by decide), State.setF_lanes _ _ _ _ _, ?_, ?_, fun a ha => ?_⟩
  · exact (State.dark_setReg _ _ (by unfold aPwrState; omega) (by unfold aPwrBoot; omega)).trans
      (State.dark_congr rfl (hmgt _) (hmgt _))
  · rw [State.flag_setF_apart _ _ _ (by decide) (by decide) (.inl (by decide)), State.flag_congr (hmgt _)]
  · rw [State.reg_setF_other _ _ _ _ ha, hmgt]

/-- LAN_CTRL.ABORT takes a lane in service out at once (R181). -/
theorem laneAbort_completes (s : State) {n : Nat} (hn : n < 128) (hs : s.portShut = false) (hd : s.dark = false)
    (h0 : s.islState n = 0) (ht : s.mgt.tests.contains n = false) :
    Completes (.laneAbort n) s (fun u =>
      u.islState n = 1 ∧ (u.lane n).dq = [] ∧ (u.lane n).owed = [] ∧ (u.lane n).rqOcc = 0 ∧ u.outcome = 0) := by
  have he : exec (.laneAbort n) s = .next ((s.laneOut n).depart n true).done := by
    show execLaneAbort n s = _
    simp [execLaneAbort, State.laneAbort, hn, hs, h0]
  obtain ⟨⟨b, hlane⟩, hisl, hdark, hmgt⟩ := s.laneOut_effect hn
  obtain ⟨hone, hlanes, hdark', -, -⟩ := (s.laneOut n).depart_asked_effect hn (by rw [hmgt, ht]) (by omega)
  refine ⟨_, he, (State.islState_congr hn (State.reg_done _ _)).trans hone, ?_⟩
  rw [State.lane_congr (State.done_lanes _), State.lane_congr hlanes, hlane]
  exact ⟨rfl, rfl, rfl, State.outcome_done _ ((hdark'.trans hdark).trans hd)⟩

/-- An island fault takes the lane out at once; the departure counts, and may retire it (R181, R599, R601). -/
theorem laneIslandFault_completes (s : State) {n : Nat} (hon : s.laneOn n = true) :
    Completes (.laneIslandFault n) s (fun u => (u.islState n = 1 ∨ u.islState n = 2) ∧
      (u.lane n).dq = [] ∧ (u.lane n).owed = []) := by
  obtain ⟨hn, h0⟩ := s.laneOn_iff.1 hon
  have he : exec (.laneIslandFault n) s = .next ((s.laneOut n).depart n false) := by
    show execLaneIslandFault n s = _
    rw [execLaneIslandFault, if_pos hon, State.islandFault, islFatal_lane hn, if_neg Bool.false_ne_true, State.islandLoss,
      if_pos (islLane_of_lt hn)]
  obtain ⟨⟨b, hlane⟩, hisl, -, -⟩ := s.laneOut_effect hn
  obtain ⟨hout, hlanes⟩ := (s.laneOut n).depart_out false hn (by omega)
  refine ⟨_, he, hout, ?_⟩
  rw [State.lane_congr hlanes, hlane]
  exact ⟨rfl, rfl⟩

/-- A lane that was asked to leave and holds nothing leaves at its partition's boundary (R180). -/
theorem laneLeaveService_completes (s : State) {n : Nat} (hon : s.laneOn n = true) (hf : s.flag (aLanCtrl n) 8 = true)
    (hq : (s.lane n).dq = []) (hr : (s.lane n).rqOcc = 0) (ho : s.laneOwes n = false)
    (hb : (s.laneOwner n).all s.atBoundary = true) (ht : s.mgt.tests.contains n = false) :
    Completes (.laneLeaveService n) s (fun u => u.islState n = 1 ∧ u.flag (aLanCtrl n) 8 = false ∧
      u.flag (aLanRqStat n) 63 = true ∧ (u.lane n).backing = []) := by
  obtain ⟨hn, h0⟩ := s.laneOn_iff.1 hon
  let m := s.freeAll (s.lane n).backing
  have hend : EndKeeps s m := (s.freeAll_only _).endKeeps
  have he : exec (.laneLeaveService n) s = .next ((m.emptyLane n (s.lane n).placed).depart n true) := by
    show execLaneLeaveService n s = _
    simp [execLaneLeaveService, State.leaveLane, State.emptyLane, m, hn, hb, hf, h0, hq, hr, ho]
  have hisl : (m.emptyLane n (s.lane n).placed).islState n = 0 := by
    rw [State.islState_emptyLane _ _ _ hn, State.islState_congr hn (hend.regs _ (endKept_aLanCtrl hn)), h0]
  obtain ⟨hone, hlanes, -, hflag, hreg⟩ := (m.emptyLane n (s.lane n).placed).depart_asked_effect hn
    (by rw [State.mgt_emptyLane, hend.mgt, ht]) (by omega)
  refine ⟨_, he, hone, hflag.trans (State.flag_emptyLane_request _ _ _), ?_, ?_⟩
  · rw [State.flag_congr (hreg _ (aLanRqStat_ne_aLanCtrl n)), State.flag_emptyLane_xoff]
  · rw [State.lane_congr hlanes, State.lane_emptyLane]
    rfl

/-! ## Entering service (R145, R179) -/

/-- A lane that is due takes its backing and enters at its partition's boundary. -/
theorem laneEnterService_completes (s : State) {n p : Nat} {hs : List Nat} (hn : n < 128) (hp : s.laneOwner n = some p)
    (h1 : s.islState n = 1) (hu : s.unitShut = false) (hd : (s.lane n).due = true ∨ s.flag (aLanCtrl n) 9 = true)
    (hb : s.atBoundary p = true)
    (ha : (s.allocN 3 (s.f (aLanBack n) 6 0 + s.f (aLanBack n) 14 8) { ctx := 0, part := p, partOnly := true } 1).1 = some hs) :
    Completes (.laneEnterService n) s (fun u => u.islState n = 0 ∧ u.flag (aLanCtrl n) 9 = false ∧
      (u.lane n).backing = hs ∧ (u.lane n).dq = [] ∧ u.flag (aLanRqStat n) 63 = false) := by
  obtain ⟨m, hm⟩ : ∃ m, s.allocN 3 (s.f (aLanBack n) 6 0 + s.f (aLanBack n) 14 8) { ctx := 0, part := p, partOnly := true } 1 =
      (some hs, m) := ⟨_, Prod.ext ha rfl⟩
  let l : Lane := { lane0 with placed := (s.lane n).placed, backing := hs, headC := m.f (aLanCt n) 12 0 }
  have he : exec (.laneEnterService n) s = .next
      ((((m.setLane n l).setF (aLanRqStat n) 63 63 0).setF (aLanCtrl n) 9 9 0).setF (aLanCtrl n) 1 0 0) := by
    rw [← State.setIsl_lane _ _ hn]
    show execLaneEnterService n s = _
    rcases hd with h | h <;> simp [execLaneEnterService, State.enterLane, hp, hn, hb, hu, h, h1, hm, l]
  have hlane := m.lane_setLane_same n l
  refine ⟨_, he, State.islState_setF_state _ hn (by decide), ?_, ?_, ?_, ?_⟩
  · rw [State.flag_setF_apart _ _ _ (by decide) (by decide) (.inl (by decide))]
    exact (State.clearRequest _ n (by decide)).1
  · simp only [State.lane, State.setF_lanes] at hlane ⊢
    rw [hlane]
  · simp only [State.lane, State.setF_lanes] at hlane ⊢
    rw [hlane]
    rfl
  · rw [State.flag_congr ((State.reg_setF_other _ _ _ _ (aLanRqStat_ne_aLanCtrl n)).trans
      (State.reg_setF_other _ _ _ _ (aLanRqStat_ne_aLanCtrl n))), State.flag_setF_same _ _ (by decide)]
    rfl

/-- A lane in service that was asked to return has met the request (log 86). -/
theorem laneEnterService_met (s : State) {n p : Nat} (hn : n < 128) (hp : s.laneOwner n = some p) (h0 : s.islState n = 0)
    (hu : s.unitShut = false) (hf : s.flag (aLanCtrl n) 9 = true) (hb : s.atBoundary p = true) :
    Completes (.laneEnterService n) s (fun u => u.flag (aLanCtrl n) 9 = false ∧ SameRegsBut [aLanCtrl n] s u ∧
      u.lanes = s.lanes) := by
  refine ⟨_, ?_, s.clearRequest n (by decide)⟩
  show execLaneEnterService n s = _
  simp [execLaneEnterService, State.enterLane, hp, hn, hb, hu, hf, h0]

/-- A lane out of service that was asked to leave has met the request (log 86). -/
theorem laneLeaveService_met (s : State) {n : Nat} (hn : n < 128) (h0 : s.islState n ≠ 0)
    (hf : s.flag (aLanCtrl n) 8 = true) (hb : (s.laneOwner n).all s.atBoundary = true) :
    Completes (.laneLeaveService n) s (fun u => u.flag (aLanCtrl n) 8 = false ∧ SameRegsBut [aLanCtrl n] s u ∧
      u.lanes = s.lanes) := by
  refine ⟨_, ?_, s.clearRequest n (by decide)⟩
  show execLaneLeaveService n s = _
  simp [execLaneLeaveService, State.leaveLane, hn, hb, hf, h0]

/-! ## Writes of a lane's registers (R173, R179, R180, R184 to R187) -/

section Writes

variable {s : State} {n : Nat} (hn : n < 128) (hs : s.portShut = false)
include hn hs

theorem exec_laneOosReq : exec (.laneOosReq n) s = .next (s.setF (aLanCtrl n) 8 8 1).done := by
  show execLaneOosReq n s = _
  simp [execLaneOosReq, State.laneOos, hn, hs]

theorem exec_laneRtsReq : exec (.laneRtsReq n) s =
    .next (if s.islState n = 2 then s.refuse else (s.setF (aLanCtrl n) 9 9 1).done) := by
  show execLaneRtsReq n s = _
  simp [execLaneRtsReq, State.laneRts, hn, hs]

theorem exec_laneAbort_out (h0 : s.islState n ≠ 0) : exec (.laneAbort n) s = .next s.done := by
  show execLaneAbort n s = _
  simp [execLaneAbort, State.laneAbort, hn, hs, h0]

variable (ha : s.applying 7 = false) (v : Word)
include ha

theorem exec_lanCtWrite : exec (.lanCtWrite n v) s = .next (if 4096 < fld v.toNat 12 0 then s.refuse
    else (s.setF (aLanCt n) 12 0 (fld v.toNat 12 0)).done) :=
  execLanCtWrite_open v hn hs ha

theorem exec_lanBackWrite : exec (.lanBackWrite n v) s =
    .next (if s.islState n = 0 ∨ 64 < fld v.toNat 6 0 ∨ 64 < fld v.toNat 14 8 then s.refuse
      else (s.setReg (aLanBack n) (mergeMask (s.reg (aLanBack n)) v (fm 6 0 + fm 14 8))).done) := by
  refine (execLanBackWrite_open v hn hs ha).trans ?_
  simp [State.lanBack, or_assoc]

/-- LAN_CT takes a value up to 4,096 (R185). -/
theorem lanCtWrite_completes (hd : s.dark = false) (hv : fld v.toNat 12 0 ≤ 4096) :
    Completes (.lanCtWrite n v) s (fun u =>
      u.f (aLanCt n) 12 0 = fld v.toNat 12 0 ∧ u.outcome = 0 ∧ SameRegsBut [aLanCt n] s u) := by
  refine ⟨_, exec_lanCtWrite hn hs ha v, ?_⟩
  rw [if_neg (by omega)]
  obtain ⟨hsame, ho⟩ := s.done_setF (a := aLanCt n) 12 0 (fld v.toNat 12 0) hd (by unfold aLanCt; omega)
  refine ⟨?_, ho, hsame⟩
  rw [State.f_done, State.f_setF_same _ _ _ _ _ (by decide) (by decide)]
  exact Nat.mod_eq_of_lt (by omega)

/-- LAN_BACK takes values up to 64 while the lane is out of service (R187). -/
theorem lanBackWrite_completes (hd : s.dark = false) (h0 : s.islState n ≠ 0) (h1 : fld v.toNat 6 0 ≤ 64)
    (h2 : fld v.toNat 14 8 ≤ 64) : Completes (.lanBackWrite n v) s (fun u =>
      u.f (aLanBack n) 6 0 = fld v.toNat 6 0 ∧ u.f (aLanBack n) 14 8 = fld v.toNat 14 8 ∧ u.outcome = 0 ∧
      SameRegsBut [aLanBack n] s u) := by
  refine ⟨_, exec_lanBackWrite hn hs ha v, ?_⟩
  rw [if_neg (by omega)]
  obtain ⟨hreg, hsame, ho⟩ := State.done_of_setReg (a := aLanBack n) rfl (State.setReg_pwr _ _ _) hd
    (by unfold aLanBack; omega)
  refine ⟨?_, ?_, ho, hsame⟩
  · rw [State.f, State.regN, hreg]
    exact fld_mergeMask _ _ (by decide) (by decide) (by decide)
  · rw [State.f, State.regN, hreg]
    exact fld_mergeMask _ _ (by decide) (by decide) (by decide)

/-- A watermark pair that is taken: its fields, and LPRESS where the pair is the dispatch queue's (R173, R176). -/
theorem lanWmWrite_completes (rq : Bool) (hd : s.dark = false) (hlt : fld v.toNat 51 32 < fld v.toNat 19 0)
    (hcap : rq = true → fld v.toNat 19 0 + 32 ≤ 8192 + 4096 * s.f (aLanBack n) 14 8) :
    let a := if rq then aLanRqWm n else aLanDqWm n
    Completes (.lanWmWrite n rq v) s (fun u =>
      u.f a 19 0 = fld v.toNat 19 0 ∧ u.f a 51 32 = fld v.toNat 51 32 ∧ u.outcome = 0 ∧ SameRegsBut [a] s u) := by
  intro a
  have hge : 0xC0000 ≤ a := by
    simp only [a]
    split
    · unfold aLanRqWm; omega
    · unfold aLanDqWm; omega
  have hguard : (decide (fld v.toNat 19 0 ≤ fld v.toNat 51 32) ||
      (rq && decide (8192 + 4096 * s.f (aLanBack n) 14 8 < fld v.toNat 19 0 + 32))) = false := by
    cases rq <;> simp at hcap ⊢ <;> omega
  let m := s.setReg a (mergeMask (s.reg a) v (fm 19 0 + fm 51 32))
  have hput (c : Bool) : (if c then m else m.putLane n (m.lane n)).regs = m.regs ∧
      (if c then m else m.putLane n (m.lane n)).pwr = m.pwr := by
    cases c <;> exact ⟨rfl, rfl⟩
  have he : exec (.lanWmWrite n rq v) s = .next (if rq || !m.laneOn n then m else m.putLane n (m.lane n)).done :=
    (execLanWmWrite_open v rq hn hs ha).trans (congrArg Host.Outcome.next (if_neg (by rw [hguard]; decide)))
  obtain ⟨hreg, hsame, ho⟩ := State.done_of_setReg (hput (rq || !m.laneOn n)).1
    ((hput _).2.trans (State.setReg_pwr _ _ _)) hd hge
  refine ⟨_, he, ?_, ?_, ho, hsame⟩
  · rw [State.f, State.regN, hreg]
    exact fld_mergeMask _ _ (by decide) (by decide) (by decide)
  · rw [State.f, State.regN, hreg]
    exact fld_mergeMask _ _ (by decide) (by decide) (by decide)

/-- A watermark pair that is refused (R173). -/
theorem exec_lanWmWrite_refused (rq : Bool) (h : fld v.toNat 19 0 ≤ fld v.toNat 51 32 ∨
    (rq = true ∧ 8192 + 4096 * s.f (aLanBack n) 14 8 < fld v.toNat 19 0 + 32)) :
    exec (.lanWmWrite n rq v) s = .next s.refuse := by
  refine (execLanWmWrite_open v rq hn hs ha).trans ?_
  rw [State.lanWm, if_pos (by simpa using h)]

end Writes

/-! ## The claim -/

/-- Settles O53: each command by its own lemma. The registers are `exec_lane…` and `exec_lan…` of an answering port; a
request already met is log 86. -/
theorem lanesEnterAndLeaveService : Obligations.LanesEnterAndLeaveService := by
  intro s n hn
  refine ⟨fun hs hd => ⟨⟨_, exec_laneOosReq hn hs, s.setRequest_done n (by decide) hd⟩, fun h2 => ?_, fun h2 => ?_,
    fun h0 ht => laneAbort_completes s hn hs hd h0 ht, fun h0 => exec_laneAbort_out hn hs h0, fun ha => ⟨?_, ?_, ?_, ?_, ?_⟩⟩,
    fun hon hf hq hr ho hb ht => laneLeaveService_completes s hon hf hq hr ho hb ht,
    fun h0 hf hb => laneLeaveService_met s hn h0 hf hb,
    fun p hp h0 hu hf hb => laneEnterService_met s hn hp h0 hu hf hb,
    fun p hs hp h1 hu hd hb ha => laneEnterService_completes s hn hp h1 hu hd hb ha,
    fun hon => laneIslandFault_completes s hon⟩
  · exact ⟨_, (exec_laneRtsReq hn hs).trans (by rw [if_neg h2]), s.setRequest_done n (by decide) hd⟩
  · rw [exec_laneRtsReq hn hs, if_pos h2]
  · exact fun v hv => lanCtWrite_completes hn hs ha v hd hv
  · exact fun v hv => by rw [exec_lanCtWrite hn hs ha v, if_pos hv]
  · exact fun v rq => ⟨fun hlt hcap => lanWmWrite_completes hn hs ha v rq hd hlt hcap,
      exec_lanWmWrite_refused hn hs ha v rq⟩
  · exact fun v h0 h1 h2 => lanBackWrite_completes hn hs ha v hd h0 h1 h2
  · exact fun v hv => by rw [exec_lanBackWrite hn hs ha v, if_pos hv]

end Sys2Proof.Machine
end

section
/-! Contributions to a bound slot (R198 to R205): each segment that a line, a row or a WITHDRAW covers has one more, and the
slot keeps what names it. -/

namespace Sys2Proof.Machine

/-! ## Slots -/

theorem tabFind_tabPut_same {α : Type} (t : Tab α) (i : Nat) (v : α) : tabFind (tabPut t i v) i = some v := by
  induction t with
  | nil => simp [tabPut, tabFind]
  | cons e t ih =>
    obtain ⟨j, x⟩ := e
    rcases lt_trichotomy j i with h | h | h
    · simp [tabPut, tabFind, h, h.ne, ih]
    · simp [tabPut, tabFind, h]
    · simp [tabPut, tabFind, not_lt.2 h.le, h.ne']

theorem tabFind_tabErase_same {α : Type} (t : Tab α) (i : Nat) : tabFind (tabErase t i) i = none := by
  induction t with
  | nil => rfl
  | cons e t ih =>
    obtain ⟨j, x⟩ := e
    by_cases h : j = i <;> simp [tabErase, tabFind, h, ih]

theorem State.find_setSlot_same (s : State) (n : Nat) (p : Slot) : tabFind (s.setSlot n p).car.slots n = some p :=
  tabFind_tabPut_same s.car.slots n p

/-- A slot after one contribution to each of its segments [lo, hi), and to no other. -/
structure Slot.Gained (p q : Slot) (lo hi : Nat) : Prop where
  ctx : q.ctx = p.ctx
  step : q.step = p.step
  index : q.index = p.index
  count : q.count = p.count
  wdraw : q.wdraw = p.wdraw
  mixDue : q.mixDue = p.mixDue
  tallies : ∀ i : Nat, (q.segs[i]?).map (·.tally) =
    (p.segs[i]?).map (fun g => g.tally + (if lo ≤ i ∧ i < hi then 1 else 0))

namespace Slot.Gained

/-- A slot with the same segments has gained nothing. -/
theorem of_segs {p q : Slot} (lo : Nat) (hc : q.ctx = p.ctx) (hs : q.step = p.step) (hi : q.index = p.index)
    (hn : q.count = p.count) (hw : q.wdraw = p.wdraw) (hm : q.mixDue = p.mixDue) (hg : q.segs = p.segs) :
    p.Gained q lo lo := by
  refine ⟨hc, hs, hi, hn, hw, hm, fun i => ?_⟩
  rw [hg, if_neg (by omega)]
  rfl

theorem refl (p : Slot) (lo : Nat) : p.Gained p lo lo := .of_segs lo rfl rfl rfl rfl rfl rfl rfl

theorem trans {p q r : Slot} {lo mid hi : Nat} (h : p.Gained q lo mid) (k : q.Gained r mid hi) (h1 : lo ≤ mid)
    (h2 : mid ≤ hi) : p.Gained r lo hi := by
  refine ⟨k.ctx.trans h.ctx, k.step.trans h.step, k.index.trans h.index, k.count.trans h.count, k.wdraw.trans h.wdraw,
    k.mixDue.trans h.mixDue, fun i => ?_⟩
  have hq := h.tallies i
  rw [k.tallies i]
  cases hqi : q.segs[i]? with
  | none =>
    rw [hqi] at hq
    cases hpi : p.segs[i]? with
    | none => rfl
    | some g => simp [hpi] at hq
  | some b =>
    rw [hqi] at hq
    cases hpi : p.segs[i]? with
    | none => simp [hpi] at hq
    | some a =>
      simp only [hpi, Option.map_some, Option.some.injEq] at hq ⊢
      rw [hq]
      split_ifs <;> omega

end Slot.Gained

/-- No contribution would reach a full segment: the segments' tallies lie below the count (R205). -/
theorem Slot.full_eq_false_iff (p : Slot) (lo n : Nat) :
    p.full lo n = false ↔ ∀ i < n, ∀ g, p.segs[lo + i]? = some g → g.tally < p.count := by
  simp only [Slot.full, Slot.range, List.any_eq_false, List.mem_iff_getElem?, List.getElem?_take, List.getElem?_drop,
    decide_eq_true_eq, not_le]
  constructor
  · exact fun h i hi g hg => h g ⟨i, by rw [if_pos hi, hg]⟩
  · rintro h g ⟨i, hi⟩
    split at hi
    · next hlt => exact h i hlt g hi
    · cases hi

/-- The segments behind those that have gained are as full as before. -/
theorem Slot.Gained.full {p q : Slot} {lo mid n k : Nat} (h : p.Gained q lo mid) (hm : lo ≤ mid) (hk : mid + k ≤ lo + n)
    (hf : p.full lo n = false) : q.full mid k = false := by
  rw [Slot.full_eq_false_iff] at hf ⊢
  intro i hi g hg
  have ht := h.tallies (mid + i)
  rw [hg, if_neg (by omega)] at ht
  cases hp : p.segs[mid + i]? with
  | none => simp [hp] at ht
  | some a =>
    simp only [hp, Option.map_some, Option.some.injEq, Nat.add_zero] at ht
    rw [ht, h.count]
    exact hf (mid + i - lo) (by omega) a (by rw [show lo + (mid + i - lo) = mid + i by omega, hp])

/-! ## What goes along with a contribution -/

/-- The registers of LAN and CAR up to CAR_CNT_RELEASE, and the steps' names, are kept. -/
structure Entering (s t : State) : Prop where
  regs : ∀ a, 0xC0000 ≤ a → a < aCarCntOvf → t.reg a = s.reg a
  names : SameNames s t

namespace Entering

theorem refl (s : State) : Entering s s := ⟨fun _ _ _ => rfl, .refl s⟩

theorem trans {s t u : State} (h : Entering s t) (k : Entering t u) : Entering s u :=
  ⟨fun a h1 h2 => (k.regs a h1 h2).trans (h.regs a h1 h2), h.names.trans k.names⟩

theorem of_same {s t : State} (hr : t.regs = s.regs) (hm : t.rgm = s.rgm) : Entering s t :=
  ⟨fun a _ _ => State.reg_congr hr a, .of_steps (by rw [hm])⟩

theorem modStep (s : State) (x : Nat) (step : Word) {f : Step → Step} (hd : ∀ w, (f w).desc = w.desc) :
    Entering s (s.modStep x step f) := ⟨fun a _ _ => State.reg_congr rfl a, .modStep s x step hd⟩

theorem modGroup (s : State) (x : Nat) (step : Word) (layer : Nat) (f : Group → Group) :
    Entering s (s.modGroup x step layer f) := .modStep s x step fun _ => rfl

theorem setSlot (s : State) (n : Nat) (p : Slot) : Entering s (s.setSlot n p) := .of_same rfl rfl

theorem setReg (s : State) {a : Nat} (v : Word) (h : a < 0xC0000 ∨ aCarCntOvf ≤ a) : Entering s (s.setReg a v) :=
  ⟨fun _ h1 h2 => s.reg_setReg_other v (by omega), .of_steps rfl⟩

theorem accAdd (s : State) {a : Nat → Nat} {x : Nat} (n : Nat) (h : a x < 0xC0000) : Entering s (s.accAdd a x n) := by
  unfold State.accAdd
  split
  · exact .refl s
  · exact .setReg s _ (.inl h)

theorem chargeStk (s : State) (x n : Nat) : Entering s (s.chargeStk x n) := .accAdd s n (by unfold aAccStk; omega)

theorem chargeHbm (s : State) (x n : Nat) : Entering s (s.chargeHbm x n) := .accAdd s n (by unfold aAccHbm; omega)

/-- Counts of the same counter add up. -/
theorem addCtr_trans {s t u : State} {c k l : Nat} (h : Entering (s.addCtr c k) t) (h' : Entering (t.addCtr c l) u) :
    Entering (s.addCtr c (k + l)) u := by
  refine ⟨fun a h1 h2 => ?_, ?_⟩
  · rw [h'.regs a h1 h2]
    by_cases ha : a = c
    · subst ha
      rw [State.reg_addCtr_same, State.reg_addCtr_same, h.regs a h1 h2, State.reg_addCtr_same, BitVec.ofNat_add, add_assoc]
    · rw [State.reg_addCtr_other _ _ ha, State.reg_addCtr_other _ _ ha, h.regs a h1 h2, State.reg_addCtr_other _ _ ha]
  · exact (h.names.trans h'.names : SameNames s u)

theorem of_addCtr_zero (s : State) (c : Nat) : Entering (s.addCtr c 0) s := by
  refine ⟨fun a _ _ => ?_, .of_steps rfl⟩
  by_cases ha : a = c
  · subst ha
    rw [State.reg_addCtr_same]
    simp
  · rw [State.reg_addCtr_other _ _ ha]

end Entering

theorem AttentionOnly.entering {s t : State} (h : AttentionOnly s t) : Entering s t := by
  obtain ⟨_, _, _, rfl, hr⟩ := h
  exact ⟨fun a h1 _ => hr a (.inr (by omega)), .of_steps rfl⟩

theorem State.noteOvf_effect (s : State) (x : Nat) (step : Word) :
    Entering s (s.noteOvf x step) ∧ (s.noteOvf x step).car = s.car := by
  have hcount : Entering s ((s.bump aCarCntOvf).modStep x step (fun u => { u with ovf := true })) :=
    (Entering.setReg s _ (.inr (le_refl _))).trans (.modStep _ _ _ fun _ => rfl)
  unfold State.noteOvf
  dsimp only
  split
  · exact ⟨hcount.trans (State.raise_only _ _).entering, State.raise_car _ _⟩
  · exact ⟨hcount, rfl⟩

/-! ## One segment (R202) -/

/-- A slot's segment takes a contribution: accumulators aside, its tally goes up by one. -/
theorem State.segIn_eq {s : State} {n i : Nat} {p : Slot} {g : Seg} (data : Option (List Int))
    (h : tabFind s.car.slots n = some p) (hg : p.segs[i]? = some g) :
    ∃ m g1 b k, Entering s m ∧ g1.tally = g.tally + 1 ∧ s.segIn n i data [] =
      (m.setSlot n { p with segs := p.segs.set i g1, poison := b }).chargeStk p.ctx k := by
  have hw (c : Bool) (a : Nat) (bs : Bytes) : Entering s (if c then s.stkWrite a bs else s) := by
    cases c
    · exact .refl s
    · exact .of_same (State.stkWrite_regs _ _ _) rfl
  simp only [State.segIn, h, hg, List.map_nil, State.stepReads, List.foldl_nil, ite_self]
  exact ⟨_, _, _, _, hw _ _ _, rfl, rfl⟩

/-- A segment that is set with its tally raised by one. -/
theorem Slot.gained_set {p : Slot} {i : Nat} {g g1 : Seg} (b : Bool) (hg : p.segs[i]? = some g)
    (h1 : g1.tally = g.tally + 1) : p.Gained { p with segs := p.segs.set i g1, poison := b } i (i + 1) := by
  refine ⟨rfl, rfl, rfl, rfl, rfl, rfl, fun j => ?_⟩
  rw [List.getElem?_set]
  split
  · next hj =>
    subst hj
    obtain ⟨hlt, rfl⟩ := List.getElem?_eq_some_iff.1 hg
    simp [hlt, h1]
  · rw [if_neg (by omega)]
    rfl

/-- In a state a slot is bound that has gained on [lo, hi) over `p`. -/
def State.SlotGained (s : State) (n : Nat) (p : Slot) (lo hi : Nat) : Prop :=
  ∃ q, tabFind s.car.slots n = some q ∧ p.Gained q lo hi

theorem State.SlotGained.of_car {s t : State} {n : Nat} {p : Slot} {lo hi : Nat} (h : s.SlotGained n p lo hi)
    (hc : t.car = s.car) : t.SlotGained n p lo hi := by
  rwa [State.SlotGained, hc]

theorem State.segIn_gains {s : State} {n : Nat} {p : Slot} (i : Nat) (data : Option (List Int))
    (h : tabFind s.car.slots n = some p) :
    Entering s (s.segIn n i data []) ∧ (s.segIn n i data []).SlotGained n p i (i + 1) := by
  cases hg : p.segs[i]? with
  | none =>
    have he : s.segIn n i data [] = s := by simp [State.segIn, h, hg]
    rw [he]
    refine ⟨.refl s, p, h, rfl, rfl, rfl, rfl, rfl, rfl, fun j => ?_⟩
    by_cases hj : j = i
    · simp [hj, hg]
    · rw [if_neg (by omega)]
      rfl
  | some g =>
    obtain ⟨m, g1, b, k, hm, h1, he⟩ := State.segIn_eq data h hg
    rw [he]
    exact ⟨(hm.trans (.setSlot _ _ _)).trans (.chargeStk _ _ _), _,
      (congrArg (fun c : Car => tabFind c.slots n) (State.chargeStk_car _ _ _)).trans (m.find_setSlot_same n _),
      Slot.gained_set b hg h1⟩

/-- Segments one after the other. -/
theorem State.segsIn_gain {n : Nat} (lo : Nat) (data : Nat → Option (List Int)) (k : Nat) (s : State) {p : Slot}
    (h : tabFind s.car.slots n = some p) :
    let t := (List.range k).foldl (fun s i => s.segIn n (lo + i) (data i) []) s
    Entering s t ∧ t.SlotGained n p lo (lo + k) := by
  induction k with
  | zero => exact ⟨.refl s, p, h, .refl p lo⟩
  | succ k ih =>
    obtain ⟨hent, q, hq, hgain⟩ := ih
    obtain ⟨hent', r, hr, hgain'⟩ := State.segIn_gains (lo + k) (data k) hq
    rw [List.range_succ, List.foldl_append]
    exact ⟨hent.trans hent', r, hr, hgain.trans hgain' (by omega) (by omega)⟩

/-! ## Lines (R200, R201, R205, R227) -/

theorem State.flagTerms_gains {s : State} {n : Nat} {p : Slot} (ts : Terms) (lo : Nat)
    (h : tabFind s.car.slots n = some p) :
    Entering s (s.flagTerms n ts) ∧ (s.flagTerms n ts).SlotGained n p lo lo := by
  have hgain (o k : Bool) : p.Gained { p with ovf := o, nanf := k } lo lo := .of_segs lo rfl rfl rfl rfl rfl rfl rfl
  have hput (o k : Bool) : Entering s (s.setSlot n { p with ovf := o, nanf := k }) ∧
      (s.setSlot n { p with ovf := o, nanf := k }).SlotGained n p lo lo :=
    ⟨.setSlot s _ _, _, s.find_setSlot_same n _, hgain o k⟩
  simp only [State.flagTerms, h]
  split
  · obtain ⟨hent, hcar⟩ := State.noteOvf_effect _ p.ctx p.step
    exact ⟨(hput _ _).1.trans hent, (hput _ _).2.of_car hcar⟩
  · exact hput _ _

/-- The data of a line's i-th segment. -/
def segData (ts : Terms) (i : Nat) : Option (List Int) := some (((ts.drop (32 * i)).take 32).map (·.1))

/-- A line without faults whose step is in flight and whose segments are not full. -/
theorem State.lineIn_gains {s : State} (lane : Option Nat) (back : Bool) {n : Nat} {tag p : Slot} {ofs : Nat} {ts : Terms}
    (hs : (s.stepOf tag.ctx tag.step).isSome = true) (h : tabFind s.car.slots n = some p) (hc : p.ctx = tag.ctx)
    (hst : p.step = tag.step) (hf : p.full (ofs / 32) (ts.length / 32) = false) :
    let t := s.lineIn lane back n tag ofs ts []
    Entering (s.addCtr aCarCntLine (bit back)) t ∧ t.SlotGained n p (ofs / 32) (ofs / 32 + ts.length / 32) := by
  obtain ⟨u, hu⟩ := Option.isSome_iff_exists.1 hs
  have he : s.lineIn lane back n tag ofs ts [] = (List.range (ts.length / 32)).foldl (fun s i =>
      s.segIn n (ofs / 32 + i) (segData ts i) []) ((if back then s.bump aCarCntLine else s).flagTerms n ts) := by
    simp only [State.lineIn, hu, List.foldl_nil, h, hc, hst, hf, bne_self_eq_false, Bool.or_self, Bool.false_eq_true, if_false]
    rfl
  have hcount : Entering (s.addCtr aCarCntLine (bit back)) (if back then s.bump aCarCntLine else s) := by
    cases back
    · exact .of_addCtr_zero s _
    · exact .refl _
  have hslot : tabFind (if back then s.bump aCarCntLine else s).car.slots n = some p := by
    cases back <;> exact h
  obtain ⟨hent, q, hq, hgain⟩ := State.flagTerms_gains ts (ofs / 32) hslot
  obtain ⟨hent', r, hr, hgain'⟩ := State.segsIn_gain (ofs / 32) (segData ts) (ts.length / 32) _ hq
  rw [he]
  exact ⟨(hcount.trans hent).trans hent', r, hr, hgain.trans hgain' (le_refl _) (by omega)⟩

theorem State.progress_entering (s : State) (x : Nat) (step : Word) : Entering s (s.progress x step) :=
  .modStep s x step fun _ => rfl

theorem State.tookIn_effect (s : State) (n : Nat) : Entering s (s.tookIn n) ∧ (s.tookIn n).car = s.car := by
  unfold State.tookIn
  split
  · exact ⟨.refl s, rfl⟩
  · dsimp only
    split
    · exact ⟨(s.progress_entering _ _).trans (.modGroup _ _ _ _ _), rfl⟩
    · exact ⟨s.progress_entering _ _, rfl⟩

/-- Lines of 32 · c elements each, m of them, none of whose segments is full. -/
theorem State.linesIn_gain {s : State} (lane : Option Nat) (back : Bool) {n : Nat} {tag p : Slot} {ofs c m : Nat} {ts : Terms}
    (hpos : 0 < c) (hlen : ts.length = 32 * c * m) (hs : (s.stepOf tag.ctx tag.step).isSome = true)
    (h : tabFind s.car.slots n = some p) (hc : p.ctx = tag.ctx) (hst : p.step = tag.step)
    (hf : p.full (ofs / 32) (c * m) = false) :
    let t := s.linesIn lane back n tag ofs (32 * c) ts []
    Entering (s.addCtr aCarCntLine (m * bit back)) t ∧ t.SlotGained n p (ofs / 32) (ofs / 32 + c * m) := by
  have hfold (k : Nat) (hk : k ≤ m) :
      let t := (List.range k).foldl (fun s j =>
        s.lineIn lane back n tag (ofs + 32 * c * j) ((ts.drop (32 * c * j)).take (32 * c)) []) s
      Entering (s.addCtr aCarCntLine (k * bit back)) t ∧ t.SlotGained n p (ofs / 32) (ofs / 32 + c * k) := by
    induction k with
    | zero => exact ⟨by simpa using Entering.of_addCtr_zero s _, p, h, .refl p _⟩
    | succ k ih =>
      obtain ⟨hent, q, hq, hgain⟩ := ih (by omega)
      rw [List.range_succ, List.foldl_append, List.foldl_cons, List.foldl_nil]
      generalize (List.range k).foldl _ s = u at hent hq ⊢
      dsimp only
      have hline : ((ts.drop (32 * c * k)).take (32 * c)).length = 32 * c := by
        have hle : 32 * c * (k + 1) ≤ 32 * c * m := Nat.mul_le_mul_left _ hk
        rw [List.length_take, List.length_drop, hlen]
        rw [Nat.mul_succ] at hle
        omega
      have hofs : (ofs + 32 * c * k) / 32 = ofs / 32 + c * k := by rw [Nat.mul_assoc]; omega
      have hsegs : ((ts.drop (32 * c * k)).take (32 * c)).length / 32 = c := by rw [hline]; omega
      have hle : c * (k + 1) ≤ c * m := Nat.mul_le_mul_left _ hk
      rw [Nat.mul_succ] at hle
      obtain ⟨hent', hgain'⟩ := State.lineIn_gains (ofs := ofs + 32 * c * k) (ts := (ts.drop (32 * c * k)).take (32 * c))
        lane back (hent.names.stepOf_isSome hs) hq (hgain.ctx.trans hc) (hgain.step.trans hst) (by
          rw [hofs, hsegs]
          exact hgain.full (by omega) (by omega) hf)
      rw [hofs, hsegs] at hgain'
      obtain ⟨r, hr, hgain'⟩ := hgain'
      have hcount : (k + 1) * bit back = k * bit back + bit back := Nat.succ_mul _ _
      have hseg : ofs / 32 + c * (k + 1) = ofs / 32 + c * k + c := by rw [Nat.mul_succ, Nat.add_assoc]
      rw [hcount, hseg]
      exact ⟨hent.addCtr_trans hent', r, hr, hgain.trans hgain' (by omega) (by omega)⟩
  have hm : ts.length / (32 * c) = m := by rw [hlen]; exact Nat.mul_div_cancel_left m (by omega)
  obtain ⟨hent, hgain⟩ := hfold m (le_refl m)
  have he : s.linesIn lane back n tag ofs (32 * c) ts [] = ((List.range m).foldl (fun s j =>
      s.lineIn lane back n tag (ofs + 32 * c * j) ((ts.drop (32 * c * j)).take (32 * c)) []) s).tookIn n := by
    rw [State.linesIn, hm]
    rfl
  rw [he]
  exact ⟨hent.trans (State.tookIn_effect _ n).1, hgain.of_car (State.tookIn_effect _ n).2⟩

/-! ## Rows, returned lines and withdrawals (R198, R200, R201, R205) -/

theorem length_termsOf (w : Int) (ps : List Num) : (termsOf w ps).length = ps.length := List.length_map _

theorem length_floatsAt (f : FloatFmt) (bs : Bytes) (n : Nat) : (floatsAt f bs n).length = n := by simp [floatsAt]

/-- A whole row whose segments are not full (R200, R201). -/
theorem State.rowIn_gains {s : State} {n : Nat} {p : Slot} {ps : List Num} {m : Nat} (hlen : ps.length = 64 * m)
    (hsegs : p.segs.length = 2 * m) (hs : (s.stepOf p.ctx p.step).isSome = true) (h : tabFind s.car.slots n = some p)
    (hf : p.full 0 p.segs.length = false) :
    (s.rowIn n p ps []).SlotGained n p 0 p.segs.length := by
  have hlines := State.linesIn_gain (ofs := 0) (c := 2) (m := m) (ts := termsOf p.w ps) none false (by decide)
    (by rw [length_termsOf, hlen]) hs h rfl rfl (by rwa [← hsegs])
  rw [State.rowIn, hf, if_neg Bool.false_ne_true, hsegs]
  simpa using hlines.2

/-- A change of a bound slot that leaves its name and its segments. -/
theorem State.modSlot_eq {s : State} {n : Nat} {p : Slot} (f : Slot → Slot) (h : tabFind s.car.slots n = some p) :
    s.modSlot n f = s.setSlot n (f p) := by
  rw [State.modSlot, h]
  rfl

theorem lineElems_eq (fmt : Nat) : ∃ c, 0 < c ∧ lineElems fmt = 32 * c := by
  unfold lineElems
  split
  · exact ⟨1, by decide, rfl⟩
  · exact ⟨2, by decide, rfl⟩

/-- Returned lines for a choice that no WITHDRAW has answered. -/
theorem State.takeLines_gain {s : State} (lane : Option Nat) {n : Nat} {p : Slot} {c : SlotChoice} (gate fmt ofs : Nat)
    (data : Bytes) (k : Nat) (poison : Bool) (hs : (s.stepOf p.ctx p.step).isSome = true)
    (h : tabFind s.car.slots n = some p) (ha : c.answered = false)
    (hf : p.full (ofs / 32) (k * lineElems fmt / 32) = false) :
    let t := s.takeLines lane n p c gate fmt ofs data k poison []
    Entering (s.addCtr aCarCntLine k) t ∧ t.SlotGained n p (ofs / 32) (ofs / 32 + k * lineElems fmt / 32) := by
  obtain ⟨e, he, hw⟩ := lineElems_eq fmt
  have hsegs : k * lineElems fmt / 32 = e * k := by
    rw [hw, show k * (32 * e) = 32 * (e * k) by ring]
    omega
  have hmark (f : SlotChoice → SlotChoice) (b : Bool) :
      p.Gained { p.markChoice c.expert f with poison := b } (ofs / 32) (ofs / 32) :=
    .of_segs _ rfl rfl rfl rfl rfl rfl rfl
  rw [hsegs] at hf ⊢
  simp only [State.takeLines, ha, Bool.false_eq_true, if_false, State.modSlot_eq _ h, hw]
  have hlines (p1 : Slot) (hp1 : p.Gained p1 (ofs / 32) (ofs / 32)) (ts : Terms) (hts : ts.length = 32 * e * k) :
      let t := (s.setSlot n p1).linesIn lane true n p ofs (32 * e) ts []
      Entering (s.addCtr aCarCntLine k) t ∧ t.SlotGained n p (ofs / 32) (ofs / 32 + e * k) := by
    obtain ⟨hent, q, hq, hgain⟩ := State.linesIn_gain (s := s.setSlot n p1) lane true (tag := p) he hts hs
      (s.find_setSlot_same n p1) hp1.ctx hp1.step (hp1.full (le_refl _) (le_refl _) hf)
    have hcount : Entering (s.addCtr aCarCntLine k) ((s.setSlot n p1).addCtr aCarCntLine (k * bit true)) :=
      .of_same (by rw [show k * bit true = k from Nat.mul_one k]; rfl) rfl
    exact ⟨hcount.trans hent, q, hq, hp1.trans hgain (le_refl _) (by omega)⟩
  refine hlines _ (hmark _ _) _ ?_
  rw [length_termsOf, List.length_map, length_floatsAt]
  ring

/-- A WITHDRAW reaches every segment (R198, R201). -/
theorem State.takeWdraw_gains {s : State} {n : Nat} {p : Slot} {c : SlotChoice} (poison : Bool)
    (h : tabFind s.car.slots n = some p) (ha : c.answered = false) (hl : c.lined = false)
    (hf : p.full 0 p.segs.length = false) :
    let t := s.takeWdraw n p c poison
    Entering s t ∧ ∃ p1, p1.wdraw = true ∧ p1.segs = p.segs ∧ t.SlotGained n p1 0 p.segs.length := by
  let p1 : Slot := { p.markChoice c.expert (fun c => { c with answered := true }) with
    wdraw := true, poison := p.poison || poison }
  obtain ⟨hent, q, hq, hgain⟩ := State.segsIn_gain 0 (fun _ => none) p.segs.length _ (s.find_setSlot_same n p1)
  have he : s.takeWdraw n p c poison = ((List.range p.segs.length).foldl (fun s i => s.segIn n (0 + i) none [])
      (s.setSlot n p1)).tookIn n := by
    simp [State.takeWdraw, ha, hl, hf, State.modSlot_eq _ h, p1]
  obtain ⟨hent', hcar⟩ := State.tookIn_effect ((List.range p.segs.length).foldl (fun s i => s.segIn n (0 + i) none [])
    (s.setSlot n p1)) n
  rw [Nat.zero_add] at hgain
  rw [he]
  exact ⟨((Entering.setSlot s n p1).trans hent).trans hent', p1, rfl, rfl, State.SlotGained.of_car ⟨q, hq, hgain⟩ hcar⟩

end Sys2Proof.Machine
end

section
/-! Returns on a lane (R169, R171, R172, R198, R199), the mixing term (R198), the release and the count of a token (R203, R209
to R212), stalls (R219) and the peak of the slots bound (R226). -/

namespace Sys2Proof.Machine

/-! ## The return queue (R144, R174) -/

/-- Two states differ at most in the lanes and in LAN_RQ_STAT of a lane. -/
structure QueueOnly (n : Nat) (s t : State) : Prop where
  same : ∃ regs lanes, t = { s with regs := regs, lanes := lanes }
  regs : ∀ a, a ≠ aLanRqStat n → t.reg a = s.reg a

namespace QueueOnly

theorem refl (n : Nat) (s : State) : QueueOnly n s s := ⟨⟨s.regs, s.lanes, rfl⟩, fun _ _ => rfl⟩

theorem trans {n : Nat} {s t u : State} (h : QueueOnly n s t) (k : QueueOnly n t u) : QueueOnly n s u := by
  obtain ⟨⟨_, _, rfl⟩, hr⟩ := h
  obtain ⟨⟨_, _, rfl⟩, hr'⟩ := k
  exact ⟨⟨_, _, rfl⟩, fun a ha => (hr' a ha).trans (hr a ha)⟩

theorem setLane (n : Nat) (s : State) (m : Nat) (l : Lane) : QueueOnly n s (s.setLane m l) :=
  ⟨⟨s.regs, _, rfl⟩, fun _ _ => rfl⟩

theorem setXoff (n : Nat) (s : State) (v : Nat) : QueueOnly n s (s.setF (aLanRqStat n) 63 63 v) :=
  ⟨⟨_, s.lanes, rfl⟩, fun _ ha => s.reg_setF_other _ _ _ ha⟩

theorem car {n : Nat} {s t : State} (h : QueueOnly n s t) : t.car = s.car := by
  obtain ⟨⟨_, _, rfl⟩, -⟩ := h
  rfl

theorem rgm {n : Nat} {s t : State} (h : QueueOnly n s t) : t.rgm = s.rgm := by
  obtain ⟨⟨_, _, rfl⟩, -⟩ := h
  rfl

theorem sameMemory {n : Nat} {s t : State} (h : QueueOnly n s t) : SameMemory s t := by
  obtain ⟨⟨_, _, rfl⟩, -⟩ := h
  exact ⟨rfl, rfl, rfl, rfl, rfl⟩

end QueueOnly

theorem State.rtnWire_only (s : State) (n : Nat) : QueueOnly n s (s.rtnWire n) := by
  unfold State.rtnWire
  dsimp only
  split
  · exact .setXoff n s 1
  · split
    · exact .setXoff n s 0
    · exact .refl n s

theorem State.rqMove_only (s : State) (n : Nat) (f : RqFlow) : QueueOnly n s (s.rqMove n f) :=
  (((QueueOnly.setLane n s n _).trans (State.rtnWire_only _ n)).trans (.setLane n _ n _)).trans (State.rtnWire_only _ n)

theorem State.rqFlow_only (s : State) (n : Nat) (flow : List RqFlow) : QueueOnly n s (s.rqFlow n flow).1 := by
  have hfold (l : List RqFlow) : ∀ a : State × Bool, QueueOnly n a.1 (l.foldl (fun (a : State × Bool) f =>
      if s.rqCap n < (a.1.lane n).rqOcc + f.arrive then (a.1, true) else (a.1.rqMove n f, a.2)) a).1 := by
    induction l with
    | nil => exact fun a => .refl n a.1
    | cons f l ih =>
      intro a
      refine QueueOnly.trans ?_ (ih _)
      dsimp only
      split
      · exact .refl n a.1
      · exact a.1.rqMove_only n f
  exact hfold flow (s, false)

/-- A return that found room and whose header is of a return's kind does what its command says (R171). -/
theorem State.takeReturn_clean {s : State} {n kind : Nat} {h : BitVec 256} {flow : List RqFlow}
    (hflow : (s.rqFlow n flow).2 = false) (hok : flitOk h = true) (hk : hdrKind h = kind) (h3 : 3 ≤ kind) (h5 : kind ≤ 5) :
    ∃ s1, QueueOnly n s s1 ∧ ∀ f, s.takeReturn n h kind flow f = f s1 := by
  refine ⟨(s.rqFlow n flow).1.setLane n { (s.rqFlow n flow).1.lane n with rqPkts := ((s.rqFlow n flow).1.lane n).rqPkts - 1 },
    (s.rqFlow_only n flow).trans (.setLane n _ n _), fun f => ?_⟩
  have hnone : returnFault h (s.rqFlow n flow).2 = none := by
    simp [returnFault, hflow, hok, hk, h3, h5]
  simp only [State.takeReturn, hnone, hk, beq_self_eq_true, if_true]

/-! ## Matching (R199, R400) -/

theorem State.matchReturn_congr {s t : State} {h : BitVec 256} (hc : t.car = s.car)
    (hr : t.reg (aCtxCfg (hdrCtx h)) = s.reg (aCtxCfg (hdrCtx h))) : t.matchReturn h = s.matchReturn h := by
  have hp : t.ctxPart (hdrCtx h) = s.ctxPart (hdrCtx h) := State.f_congr hr 7 2
  rw [State.matchReturn, State.matchReturn, hp, hc]

theorem State.isMine_congr {s t : State} (c : Nat) (h1 : t.reg aMsfChip = s.reg aMsfChip)
    (h2 : t.reg aTwnState = s.reg aTwnState) : t.isMine c = s.isMine c := by
  simp only [State.isMine, State.chip, State.f_congr h1, State.f_congr h2, State.flag_congr h2]

/-- A return that matches names a bound slot. -/
theorem State.find_of_matchReturn {s : State} {h : BitVec 256} {p : Slot} {c : SlotChoice}
    (hm : s.matchReturn h = some (p, c)) : tabFind s.car.slots (hdrSlot h) = some p := by
  unfold State.matchReturn at hm
  dsimp only at hm
  split at hm
  · cases hm
  · next q hq =>
    split at hm
    · obtain ⟨_, _, he⟩ := Option.map_eq_some_iff.1 hm
      rw [hq, (Prod.mk.inj he).1]
    · cases hm

theorem hdrCtx_lt (h : BitVec 256) : hdrCtx h < 4096 := Nat.mod_lt _ (by decide)

/-- What a lane's own registers and queues do not touch decides what a return matches. -/
theorem QueueOnly.matchReturn {n : Nat} {s t : State} (k : QueueOnly n s t) (h : BitVec 256) :
    t.matchReturn h = s.matchReturn h := by
  have hx := hdrCtx_lt h
  exact State.matchReturn_congr k.car (k.regs _ (by unfold aCtxCfg aLanRqStat; omega))

theorem aLanRqStat_bounds {n : Nat} (hn : n < 128) : 0xC0000 ≤ aLanRqStat n ∧ aLanRqStat n < 0xE0000 := by
  unfold aLanRqStat
  omega

theorem QueueOnly.isMine {n : Nat} {s t : State} (hn : n < 128) (k : QueueOnly n s t) (c : Nat) :
    t.isMine c = s.isMine c := by
  have hb := aLanRqStat_bounds hn
  exact State.isMine_congr c (k.regs _ (by unfold aMsfChip; omega)) (k.regs _ (by unfold aTwnState; omega))

/-! ## STORE (R158, R169, R199) -/

section
variable {s : State} {n : Nat} {h : BitVec 256} {p : Slot} {c : SlotChoice}

/-- The digest of the returned lines (R539) touches the layer's group alone. -/
theorem State.addLrtn_entering (s : State) (p : Slot) (lane : Nat) (ts : List Word) : Entering s (s.addLrtn p lane ts) :=
  .modGroup s _ _ _ _

/-- A STORE that matched a slot of this chip enters it. -/
theorem State.storeIn_gains {data : Bytes} (hn : n < 128) (hmine : s.isMine (handleOrigin (hdrHandle h)) = true)
    (hm : s.matchReturn h = some (p, c)) (hd : hdrOffset h + hdrNline h * lineElems (hdrFmt h) ≤ p.d)
    (hs : (s.stepOf p.ctx p.step).isSome = true) (ha : c.answered = false)
    (hf : p.full (hdrOffset h / 32) (hdrNline h * lineElems (hdrFmt h) / 32) = false) :
    let u := s.storeIn n h data []
    u.reg aCarCntLine = s.reg aCarCntLine + word (hdrNline h) ∧ u.reg (aLanCntStore n) = s.reg (aLanCntStore n) + 1 ∧
      u.SlotGained (hdrSlot h) p (hdrOffset h / 32) (hdrOffset h / 32 + hdrNline h * lineElems (hdrFmt h) / 32) := by
  let m := (((s.bump (aLanCntStore n)).paid n h (some (hdrNline h * lineElems (hdrFmt h)))).addLrtn p c.lane
    ((List.range (hdrNline h)).map (fun j => lrtnTerm p.index c.expert (hdrOffset h + j * lineElems (hdrFmt h))
      (sliceBytes data (128 * j) 128))))
  have he : s.storeIn n h data [] = m.takeLines (some n) (hdrSlot h) p c (hdrGate h) (hdrFmt h) (hdrOffset h) data
      (hdrNline h) false [] := by
    simp [State.storeIn, hmine, hm, not_lt.2 hd, m]
  have hpaid : Entering (s.bump (aLanCntStore n)) m :=
    .trans (.of_same (t := (s.bump (aLanCntStore n)).paid n h _) rfl rfl) (State.addLrtn_entering _ _ _ _)
  have hslot : tabFind m.car.slots (hdrSlot h) = some p := State.find_of_matchReturn (s := s) hm
  obtain ⟨hent, hgain⟩ := State.takeLines_gain (s := m) (some n) (hdrGate h) (hdrFmt h) (hdrOffset h) data (hdrNline h)
    false (hpaid.names.stepOf_isSome hs) hslot ha hf
  have hne : aCarCntLine ≠ aLanCntStore n := by unfold aCarCntLine aLanCntStore; omega
  have hst : 0xC0000 ≤ aLanCntStore n ∧ aLanCntStore n < aCarCntOvf := by unfold aCarCntOvf aLanCntStore; omega
  rw [he]
  refine ⟨?_, ?_, hgain⟩
  · rw [hent.regs _ (by decide) (by decide), State.reg_addCtr_same, hpaid.regs _ (by decide) (by decide),
      State.reg_bump_other _ hne]
    rfl
  · rw [hent.regs _ hst.1 hst.2, State.reg_addCtr_other _ _ hne.symm, hpaid.regs _ hst.1 hst.2, State.reg_bump_same]

/-- A STORE of this chip that matches nothing is counted (R199). -/
theorem State.storeIn_stale {data : Bytes} (hmine : s.isMine (handleOrigin (hdrHandle h)) = true)
    (hm : s.matchReturn h = none) :
    s.storeIn n h data [] =
      ((s.bump (aLanCntStore n)).paid n h (some (hdrNline h * lineElems (hdrFmt h)))).stale := by
  simp only [State.storeIn, hmine, hm, Option.any_none, Bool.and_false, Bool.not_true, Bool.false_eq_true, if_false]

end

theorem execStore_clean {s : State} {n : Nat} {h : BitVec 256} {data : Bytes} {flow : List RqFlow}
    (hon : s.laneOn n = true) (hh : s.halted = false) (hok : flitOk h = true) (hflow : (s.rqFlow n flow).2 = false)
    (hk : hdrKind h = 3) (hfmt : hdrFmt h ≤ 2) (hofs : hdrOffset h % lineElems (hdrFmt h) = 0) (h1 : 1 ≤ hdrNline h)
    (h512 : hdrNline h ≤ 512) (hend : hdrOffset h + hdrNline h * lineElems (hdrFmt h) ≤ 16384) :
    ∃ s1, QueueOnly n s s1 ∧ exec (.store n h data (1 + 4 * hdrNline h) [] flow) s =
      .next (s1.storeIn n h (sliceBytes data 0 (128 * hdrNline h)) []) := by
  obtain ⟨s1, hq, he⟩ := State.takeReturn_clean hflow hok hk (by decide) (by decide)
  refine ⟨s1, hq, ?_⟩
  show execStore n h data _ [] flow s = _
  have hbad : (decide (2 < hdrFmt h) || hdrOffset h % lineElems (hdrFmt h) != 0 || hdrNline h == 0 ||
      decide (512 < hdrNline h) || decide (16384 < hdrOffset h + hdrNline h * lineElems (hdrFmt h)) ||
      1 + 4 * hdrNline h != 1 + 4 * hdrNline h) = false := by
    simp only [hofs, bne_self_eq_false, Bool.or_false, Bool.or_eq_false_iff, decide_eq_false_iff_not, beq_eq_false_iff_ne]
    omega
  simp only [execStore, hon, hh, Bool.not_true, Bool.or_false, Bool.false_eq_true, if_false, he, hbad]

/-! ## WITHDRAW (R168, R169, R198, R199) -/

/-- A WITHDRAW that matched a slot of this chip reaches every segment of it. -/
theorem State.withdrawIn_gains {s : State} {n : Nat} {h : BitVec 256} {p : Slot} {c : SlotChoice} (hn : n < 128)
    (hmine : s.isMine (handleOrigin (hdrHandle h)) = true) (hm : s.matchReturn h = some (p, c)) (ha : c.answered = false)
    (hl : c.lined = false) (hf : p.full 0 p.segs.length = false) :
    let u := s.withdrawIn n h
    u.reg (aLanCntWdraw n) = s.reg (aLanCntWdraw n) + 1 ∧
      ∃ p1, p1.wdraw = true ∧ p1.segs = p.segs ∧ u.SlotGained (hdrSlot h) p1 0 p.segs.length := by
  let m := (s.paid n h none).bump (aLanCntWdraw n)
  have hreg {a : Nat} (ha : a ≠ aLanCntWdraw n) : m.reg a = s.reg a :=
    (State.reg_bump_other _ ha).trans (State.reg_congr rfl a)
  have hmine' : m.isMine (handleOrigin (hdrHandle h)) = true := by
    rwa [State.isMine_congr _ (hreg (by unfold aMsfChip aLanCntWdraw; omega))
      (hreg (by unfold aTwnState aLanCntWdraw; omega))]
  have hm' : m.matchReturn h = some (p, c) := by
    have hx := hdrCtx_lt h
    have hcfg : aCtxCfg (hdrCtx h) ≠ aLanCntWdraw n := by unfold aCtxCfg aLanCntWdraw; omega
    rwa [State.matchReturn_congr (s := s) (t := m) rfl (hreg hcfg)]
  have he : s.withdrawIn n h = (m.addLrtn p c.lane [lrtnTerm p.index c.expert 0xFFFF []]).takeWdraw (hdrSlot h) p c false := by
    rw [State.withdrawIn]
    simp only [show (s.paid n h none).bump (aLanCntWdraw n) = m from rfl, hmine', hm', Bool.not_true, Bool.false_eq_true,
      if_false]
  obtain ⟨hent, hgain⟩ := State.takeWdraw_gains (s := m.addLrtn p c.lane [lrtnTerm p.index c.expert 0xFFFF []]) false
    (State.find_of_matchReturn hm') ha hl hf
  have hw : 0xC0000 ≤ aLanCntWdraw n ∧ aLanCntWdraw n < aCarCntOvf := by unfold aCarCntOvf aLanCntWdraw; omega
  rw [he]
  refine ⟨?_, hgain⟩
  rw [hent.regs _ hw.1 hw.2, (State.addLrtn_entering _ _ _ _).regs _ hw.1 hw.2, State.reg_bump_same]
  exact congrArg (· + 1) (State.reg_congr rfl _)

/-! ## FAULT (R171, R172) -/

theorem State.lost_regs (s : State) (n : Nat) (h : BitVec 256) (a : Nat) : (s.lost n h).reg a = s.reg a := by
  unfold State.lost
  dsimp only
  split
  · exact State.reg_congr rfl a
  · split
    · rfl
    · exact State.reg_congr rfl a

/-- What a header names is owed no longer once the whole of it has been paid. -/
theorem State.paid_owed (s : State) (n : Nat) (h : BitVec 256) : ∀ o ∈ ((s.paid n h none).lane n).owed, o.of h = false := by
  intro o ho
  rw [State.paid, State.lane_setLane_same] at ho
  obtain ⟨hmem, hleft⟩ := List.mem_filter.1 ho
  obtain ⟨q, -, rfl⟩ := List.mem_map.1 hmem
  cases hq : q.of h with
  | true => simp [hq] at hleft
  | false => simp [hq]

/-- What a FAULT answers is owed no longer (DESIGN CHOICE, log 32). -/
theorem State.lost_owed (s : State) (n : Nat) {h : BitVec 256} (hk : hdrKind h = 5) :
    ∀ o ∈ ((s.lost n h).lane n).owed, o.of h = false := by
  unfold State.lost
  simp only [hk]
  split
  · simpa using s.paid_owed n h
  · next hany =>
    intro o ho
    have hall : ∀ o ∈ (s.lane n).owed, o.of h = false := by simpa using hany
    simp only [bne_self_eq_false, Bool.and_false, Bool.false_eq_true, if_false, State.lane_setLane_same] at ho
    exact hall o (List.mem_of_mem_drop ho)

theorem fault_completes {s : State} {n : Nat} {h : BitVec 256} {flow : List RqFlow} (hon : s.laneOn n = true)
    (hh : s.halted = false) (hok : flitOk h = true) (hflow : (s.rqFlow n flow).2 = false) (hk : hdrKind h = 5) :
    Completes (.fault n h true flow) s (fun u => u.flag (aLanErr n) 0 = true ∧
      ∀ o ∈ (u.lane n).owed, o.of h = false) := by
  obtain ⟨hn, -⟩ := s.laneOn_iff.1 hon
  obtain ⟨s1, -, he⟩ := State.takeReturn_clean hflow hok hk (by decide) (by decide)
  have hexec : exec (.fault n h true flow) s = .next ((s1.laneFault n 0).lost n h) := by
    show execFault n h true flow s = _
    simp only [execFault, hon, hh, Bool.not_true, Bool.or_false, Bool.false_eq_true, if_false, he, if_true]
    rfl
  have hend : EndKeeps (s1.errBit (aLanErr n) 0 cLaneProto) (s1.laneFault n 0) := State.abortWhere_endKeeps _ _ _
  refine ⟨_, hexec, ?_, (s1.laneFault n 0).lost_owed n hk⟩
  rw [State.flag_congr (State.lost_regs _ n h _), State.flag_congr (hend.regs _ (by unfold EndKept aLanErr; omega)),
    State.flag_errBit _ _ _ (by unfold aLanErr; omega) (by decide)]

end Sys2Proof.Machine
end

section
/-! The mixing term (R198), the release and the count of a token (R203, R209 to R212), stalls (R219) and the peak of the
slots bound (R226); then the returns' obligation. -/

namespace Sys2Proof.Machine

/-! ## The mixing term (R68, R198) -/

section
variable {s : State} {n : Nat} {p : Slot} {t : Step} {g : Group}

/-- The layer group of a bound slot. -/
theorem groupOf_slot (hs : s.stepOf p.ctx p.step = some t) (hg : t.groupAt p.layer = some g) :
    (s.stepOf p.ctx p.step).bind (fun t => (t.groupAt p.layer).map (fun g => (t, g))) = some (t, g) := by
  rw [hs, Option.bind_some, hg, Option.map_some]

/-- A mixing term's row enters the slot whose term it is. -/
theorem State.mixRow_gains {b : Bool} {as bs : List Num} {k : Nat} (f : Num → Num → Num)
    (hs : (s.stepOf p.ctx p.step).isSome = true) (ha : as.length = p.d) (hb : bs.length = p.d)
    (hd : p.segs.length * 32 = p.d) (h64 : p.d % 64 = 0) (hf : p.full 0 p.segs.length = false) :
    (((s.chargeHbm p.ctx k).setSlot n { p with mixDue := false, poison := b }).rowIn n
      { p with mixDue := false, poison := b } (List.zipWith f as bs) []).SlotGained n
      { p with mixDue := false, poison := b } 0 p.segs.length := by
  let p1 : Slot := { p with mixDue := false, poison := b }
  have hent : Entering s ((s.chargeHbm p.ctx k).setSlot n p1) := (Entering.chargeHbm s _ _).trans (.setSlot _ _ _)
  exact State.rowIn_gains (p := p1) (m := p.d / 64) (by rw [List.length_zipWith, ha, hb]; omega)
    (show p.segs.length = _ by omega) (hent.names.stepOf_isSome hs) (State.find_setSlot_same _ n p1) hf

theorem mixTermEnter_completes (hp : tabFind s.car.slots n = some p) (hs : s.stepOf p.ctx p.step = some t)
    (hg : t.groupAt p.layer = some g) (hdue : p.mixDue = true) (hw : (s.worker p.ctx).isSome = true)
    (hd : p.segs.length * 32 = p.d) (h64 : p.d % 64 = 0) (hf : p.full 0 p.segs.length = false) :
    Completes (.mixTermEnter n []) s (fun u => ∃ q, tabFind u.car.slots n = some q ∧ q.mixDue = false ∧
      ∀ i : Nat, (q.segs[i]?).map (·.tally) =
        (p.segs[i]?).map (fun g => g.tally + (if 0 ≤ i ∧ i < p.segs.length then 1 else 0))) := by
  have hnone : (s.worker p.ctx).isNone = false := by simpa using hw
  have he : exec (.mixTermEnter n []) s = execMixTermEnter n [] s := rfl
  simp only [execMixTermEnter, hp, groupOf_slot hs hg, hdue, hnone, Bool.not_true, Bool.or_self, Bool.false_eq_true,
    if_false] at he
  have hstep : (s.stepOf p.ctx p.step).isSome = true := by rw [hs]; rfl
  exact ⟨_, he, (State.mixRow_gains _ hstep (length_floatsAt _ _ _) (length_floatsAt _ _ _) hd h64 hf).imp
    fun q ⟨hq, hgain⟩ => ⟨hq, hgain.mixDue, hgain.tallies⟩⟩

/-! ## The release of a token (R61, R203, R209, R217) -/

theorem State.writeFlag_car (s : State) (t : Step) (g : Group) (i : Nat) (f : FlagBits) : (s.writeFlag t g i f).car = s.car := by
  unfold State.writeFlag
  split
  · rfl
  · exact State.chargeHbm_car _ _ _

theorem State.writeOut_car (s : State) (t : Step) (g : Group) (i : Nat) (row : Bytes) (f : FlagBits) :
    (s.writeOut t g i row f).car = s.car :=
  (State.writeFlag_car _ _ _ _ _).trans (State.chargeHbm_car _ _ _)

/-- A row that its flag byte does not reach holds what was written. -/
theorem State.writeOut_holds (s : State) (t : Step) (g : Group) (i : Nat) (row : Bytes) (f : FlagBits)
    (h : ∀ a, t.flagAt g i = some a → a < t.outAt g i ∨ t.outAt g i + row.length ≤ a) :
    HbmHolds (s.writeOut t g i row f) (t.outAt g i) row := by
  have hrow : HbmHolds ((s.hbmWriteP (t.outAt g i) row f.poison).chargeHbm t.desc.ctx row.length) (t.outAt g i) row := by
    intro j hj
    rw [State.chargeHbm_hbm]
    exact cellGet_cellWrite_inside 0 s.hbm (t.outAt g i) row j hj
  have hflag (s : State) (hs : HbmHolds s (t.outAt g i) row) : HbmHolds (s.writeFlag t g i f) (t.outAt g i) row := by
    unfold State.writeFlag
    split
    · exact hs
    · next a ha =>
      intro j hj
      have hout := h a ha
      rw [State.chargeHbm_hbm, State.hbmWrite_other s a _ (t.outAt g i + j) (by simp only [List.length_singleton]; omega)]
      exact hs j hj
  exact hflag _ hrow

theorem State.notePoison_car (s : State) (t : Step) : (s.notePoison t).car = s.car := by
  unfold State.notePoison
  split
  · exact State.setF_car _ _ _ _ _
  · exact State.errBit_car _ _ _ _

theorem State.notePoison_hbm (s : State) (t : Step) : (s.notePoison t).hbm = s.hbm := by
  unfold State.notePoison
  split
  · exact State.setF_hbm _ _ _ _ _
  · exact State.errBit_hbm _ _ _ _

/-- A token that overflowed only now is noted. -/
theorem State.noteOvf_ite_car (s : State) (c : Bool) (x : Nat) (step : Word) :
    (if c then s.noteOvf x step else s).car = s.car := by
  split
  · exact (State.noteOvf_effect s x step).2
  · rfl

/-- The slot and the row after the release's writes, with the note of a poisoned row. -/
theorem State.release_effect (m : State) (t v : Step) (g : Group) (i : Nat) (row : Bytes) (f : FlagBits) (c : Bool) :
    let u := if c then (m.writeOut t g i row f).notePoison v else m.writeOut t g i row f
    u.car = m.car ∧ ((∀ a, t.flagAt g i = some a → a < t.outAt g i ∨ t.outAt g i + row.length ≤ a) →
      HbmHolds u (t.outAt g i) row) := by
  have hrow := m.writeOut_holds t g i row f
  cases c with
  | true =>
    refine ⟨(State.notePoison_car _ v).trans (m.writeOut_car t g i row f), fun h j hj => ?_⟩
    rw [if_pos rfl, State.notePoison_hbm]
    exact hrow h j hj
  | false => exact ⟨m.writeOut_car t g i row f, hrow⟩

theorem tokenRelease_completes (hp : tabFind s.car.slots n = some p) (hs : s.stepOf p.ctx p.step = some t)
    (hg : t.groupAt p.layer = some g) (hc : p.complete = true) (hw : p.written = false) (hh : s.halted = false) :
    Completes (.tokenRelease n) s (fun u => (∃ q, tabFind u.car.slots n = some q ∧ q.written = true) ∧
      ((∀ a, t.flagAt g p.index = some a → a < t.outAt g p.index ∨ t.outAt g p.index + p.output.1.length ≤ a) →
        HbmHolds u (t.outAt g p.index) p.output.1)) := by
  let p1 : Slot := { p with written := true, ovf := p.output.2.ovf }
  have he : exec (.tokenRelease n) s = execTokenRelease n s := rfl
  simp only [execTokenRelease, hp, groupOf_slot hs hg, hc, hw, hh, Bool.not_true, Bool.or_self, Bool.false_eq_true,
    if_false] at he
  refine ⟨_, he, ⟨p1, ?_, rfl⟩, (State.release_effect _ _ _ _ _ _ _ _).2⟩
  rw [(State.release_effect _ _ _ _ _ _ _ _).1, State.noteOvf_ite_car]
  exact s.find_setSlot_same n p1

end

/-! ## The count of a token (R136, R210, R212) -/

theorem aCtr_ne_aCarCntRelease (c : Nat) : aCtr c ≠ aCarCntRelease := by
  unfold aCtr aCarCntRelease
  omega

theorem State.reg_countToken_release (s : State) (t : Step) (g : Group) (i : Nat) :
    (s.countToken t g i).reg aCarCntRelease = s.reg aCarCntRelease := by
  rw [State.countToken_eq, State.reg_modGroup]
  exact s.reg_bump_other (aCtr_ne_aCarCntRelease _).symm

/-- The increments that follow one another free no slot, and each is one release and one count. -/
theorem drainZeros_releases {x layer c : Nat} {step : Word} (n : Nat) (s : State) (hc : s.CountsIn x step layer c) :
    let u := drainZeros n x step layer s
    u.car = s.car ∧ ∃ m ≤ n, u.reg (aCtr c) = s.reg (aCtr c) + word m ∧
      u.reg aCarCntRelease = s.reg aCarCntRelease + word m := by
  have hstay (n : Nat) (s : State) : s.car = s.car ∧ ∃ m ≤ n, s.reg (aCtr c) = s.reg (aCtr c) + word m ∧
      s.reg aCarCntRelease = s.reg aCarCntRelease + word m := ⟨rfl, 0, by omega, by simp [word], by simp [word]⟩
  induction n generalizing s with
  | zero => exact hstay 0 s
  | succ n ih =>
    unfold drainZeros
    split
    · exact hstay _ s
    · next t g hfound =>
      obtain ⟨t', ht, hmap⟩ := Option.bind_eq_some_iff.1 hfound
      obtain ⟨g', hg, he⟩ := Option.map_eq_some_iff.1 hmap
      obtain ⟨rfl, rfl⟩ := Prod.mk.inj he
      split
      · exact hstay _ s
      · next j _ _ =>
        split
        · obtain ⟨hcar, m, hm, hr, hrel⟩ := ih ((s.countToken t' g' j).bump aCarCntRelease) ((hc.countToken j ht hg).bump _)
          obtain rfl := hc t' g' ht hg
          refine ⟨hcar, m + 1, by omega, ?_, ?_⟩
          · rw [hr, State.reg_bump_other _ (aCtr_ne_aCarCntRelease _), State.reg_countToken, word_succ, ← add_assoc]
          · rw [hrel, State.reg_bump_same, State.reg_countToken_release, word_succ, ← add_assoc]
        · exact hstay _ s

/-- Noting a step's progress leaves what its layers count in. -/
theorem State.CountsIn.progress {s : State} {x layer c : Nat} {step : Word} (h : s.CountsIn x step layer c) :
    (s.progress x step).CountsIn x step layer c := by
  intro u k hu hk
  rw [State.progress, State.stepOf_modStep] at hu
  · obtain ⟨w, hw, rfl⟩ := Option.map_eq_some_iff.1 hu
    exact h w k hw hk
  · exact fun _ => rfl

theorem State.reg_progress (s : State) (x : Nat) (step : Word) (a : Nat) : (s.progress x step).reg a = s.reg a :=
  State.reg_congr rfl a

theorem tokenCount_completes {s : State} {n : Nat} {p : Slot} {t : Step} {g : Group}
    (hp : tabFind s.car.slots n = some p) (hs : s.stepOf p.ctx p.step = some t) (hg : t.groupAt p.layer = some g)
    (hw : p.written = true) (hm : g.mayCount = true) (hfin : g.finish.head? = some p.index) (hh : s.halted = false) :
    Completes (.tokenCount n) s (fun u => tabFind u.car.slots n = none ∧ ∃ m, m + 1 ≤ g.finish.length ∧
      u.reg (aCtr (t.counterOf g)) = s.reg (aCtr (t.counterOf g)) + 1 + word m ∧
      u.reg aCarCntRelease = s.reg aCarCntRelease + 1 + word m) := by
  let s0 : State := { s with car := { s.car with slots := tabErase s.car.slots n } }
  let s1 := ((s0.countToken t g p.index).progress p.ctx p.step).bump aCarCntRelease
  have he : exec (.tokenCount n) s = .next (s1.drain p.ctx p.step p.layer) := by
    show execTokenCount n s = _
    simp only [execTokenCount, hp, groupOf_slot hs hg, hw, hm, hfin, hh, Bool.not_true, bne_self_eq_false, Bool.or_self,
      Bool.false_eq_true, if_false]
    rfl
  have hs0 : s0.stepOf p.ctx p.step = some t := hs
  obtain ⟨hstep, hgroup⟩ := s0.stepOf_countToken p.index hs0 hg
  have hcounts : s0.CountsIn p.ctx p.step p.layer (t.counterOf g) := by
    intro u k hu hk
    obtain rfl := Option.some.inj (hs0.symm.trans hu)
    obtain rfl := Option.some.inj (hg.symm.trans hk)
    rfl
  have hdrain : s1.drain p.ctx p.step p.layer =
      drainZeros (g.counting p.index).finish.length p.ctx p.step p.layer s1 := by
    have hfound : s1.stepOf p.ctx p.step = (some (t.modLayer p.layer (Group.counting p.index))).map
        (fun w => { w with lastProgress := word s0.tclk }) := by
      rw [← hstep]
      exact State.stepOf_modStep _ _ _ fun _ => rfl
    rw [State.drain, hfound]
    exact congrArg (fun o : Option Group => drainZeros (o.elim 0 (·.finish.length)) p.ctx p.step p.layer s1) hgroup
  obtain ⟨hcar, m, hle, hr, hrel⟩ := drainZeros_releases (g.counting p.index).finish.length s1
    ((hcounts.countToken p.index hs0 hg).progress.bump aCarCntRelease)
  refine ⟨_, he, ?_, m, ?_, ?_, ?_⟩
  · rw [hdrain, hcar]
    exact tabFind_tabErase_same s.car.slots n
  · exact le_trans (Nat.succ_le_succ hle) (length_filter_ne_of_head? hfin)
  · rw [hdrain, hr, State.reg_bump_other _ (aCtr_ne_aCarCntRelease _), State.reg_progress, State.reg_countToken]
    rfl
  · rw [hdrain, hrel, State.reg_bump_same, State.reg_progress, State.reg_countToken_release]
    rfl

/-! ## Stalls and the peak (R219, R226) -/

theorem stepStall_completes {s : State} {x : Nat} {t : Step} (ht : s.running x = some t)
    (hb : s.boundBy x t.desc.step ≠ 0) (hf : t.frozen = false) (hw : t.waiting = false)
    (hx : s.ctxState x = 2 ∨ (s.ctxState x = 3 ∧ (s.ctx x).parkCut = false)) (hh : s.halted = false) (ha : t.abort = 0)
    (hstall : t.lastProgress.toNat + s.f aCarStall 15 0 * 100 ≤ s.tclk) :
    Completes (.stepStall x) s (fun u => u.flag aCarErr 1 = true ∧
      StepHas u x t.desc.step (fun w => w.phase = .draining ∧ w.abort = 0x32)) := by
  have hguard : (s.boundBy x t.desc.step == 0 || t.frozen || t.waiting || s.halted ||
      !(s.ctxState x == 2 || (s.ctxState x == 3 && !(s.ctx x).parkCut)) ||
      decide (s.tclk < t.lastProgress.toNat + s.f aCarStall 15 0 * 100)) = false := by
    simpa [hb, hf, hw, hh, not_lt.2 hstall] using fun h2 => hx.resolve_left h2
  have he : exec (.stepStall x) s = .next ((s.errBit aCarErr 1 cCarStall).abortStep t 0x32) := by
    show execStepStall x s = _
    rw [execStepStall, ht]
    dsimp only
    rw [hguard, if_neg Bool.false_ne_true]
  obtain ⟨hmem, rfl⟩ := State.running_some ht
  have hphase : t.phase = .running := by
    have hfound := List.find?_some ht
    simp only [Bool.and_eq_true, beq_iff_eq] at hfound
    exact hfound.2
  refine ⟨_, he, ?_, State.abortStep_drains _ t ha hphase ⟨t, by rwa [State.errBit_rgm], t.is_self⟩⟩
  rw [State.flag_congr ((State.abortStep_endKeeps _ t 0x32).regs _ (.inr (by decide))),
    State.flag_errBit _ _ _ (.inr (by decide)) (by decide)]

theorem peakRst_completes {s : State} (hs : s.portShut = false) (hd : s.dark = false) :
    Completes .peakRst s (fun u => u.f aCarSlotUse 47 32 = s.car.slots.length % 65536 ∧ u.outcome = 0 ∧
      SameRegsBut [aCarSlotUse] s u ∧ SameMemory s u) := by
  have he : exec .peakRst s = .next (s.setF aCarSlotUse 47 32 s.car.slots.length).done := by
    show execPeakRst s = _
    rw [execPeakRst, hs, if_neg Bool.false_ne_true]
    rfl
  obtain ⟨hregs, hout⟩ := s.done_setF (a := aCarSlotUse) 47 32 s.car.slots.length hd (by decide)
  refine ⟨_, he, ?_, hout, hregs, ?_⟩
  · rw [State.f_done, State.f_setF_same _ _ _ _ _ (by decide) (by decide)]
    rfl
  · simp [SameMemory]

/-! ## The obligation -/

theorem store_matched_completes {s : State} {n : Nat} {h : BitVec 256} {flow : List RqFlow} {data : Bytes} {p : Slot}
    {c : SlotChoice} {t : Step} (hon : s.laneOn n = true) (hh : s.halted = false) (hok : flitOk h = true)
    (hflow : (s.rqFlow n flow).2 = false) (hk : hdrKind h = 3) (hfmt : hdrFmt h ≤ 2)
    (hofs : hdrOffset h % lineElems (hdrFmt h) = 0) (h1 : 1 ≤ hdrNline h) (h512 : hdrNline h ≤ 512)
    (hend : hdrOffset h + hdrNline h * lineElems (hdrFmt h) ≤ 16384)
    (hmine : s.isMine (handleOrigin (hdrHandle h)) = true) (hm : s.matchReturn h = some (p, c))
    (hd : hdrOffset h + hdrNline h * lineElems (hdrFmt h) ≤ p.d) (hs : s.stepOf p.ctx p.step = some t)
    (ha : c.answered = false) (hf : p.full (hdrOffset h / 32) (hdrNline h * lineElems (hdrFmt h) / 32) = false) :
    Completes (.store n h data (1 + 4 * hdrNline h) [] flow) s (fun u =>
      u.reg aCarCntLine = s.reg aCarCntLine + word (hdrNline h) ∧ u.reg (aLanCntStore n) = s.reg (aLanCntStore n) + 1 ∧
      u.SlotGained (hdrSlot h) p (hdrOffset h / 32) ((hdrOffset h + hdrNline h * lineElems (hdrFmt h)) / 32)) := by
  obtain ⟨hn, -⟩ := s.laneOn_iff.1 hon
  obtain ⟨s1, hq, he⟩ := execStore_clean hon hh hok hflow hk hfmt hofs h1 h512 hend
  have hstep : (s1.stepOf p.ctx p.step).isSome = true := by rw [State.stepOf, hq.rgm, ← State.stepOf, hs]; rfl
  obtain ⟨hline, hstore, hgain⟩ := State.storeIn_gains (data := sliceBytes data 0 (128 * hdrNline h)) hn
    (by rwa [hq.isMine hn]) (by rwa [hq.matchReturn]) hd hstep ha hf
  have hhi : (hdrOffset h + hdrNline h * lineElems (hdrFmt h)) / 32 =
      hdrOffset h / 32 + hdrNline h * lineElems (hdrFmt h) / 32 := by
    obtain ⟨e, -, hw⟩ := lineElems_eq (hdrFmt h)
    rw [hw, show hdrNline h * (32 * e) = 32 * (hdrNline h * e) by ring]
    omega
  rw [hq.regs _ (by unfold aCarCntLine aLanRqStat; omega)] at hline
  rw [hq.regs _ (by unfold aLanCntStore aLanRqStat; omega)] at hstore
  exact ⟨_, he, hline, hstore, hhi ▸ hgain⟩

theorem store_stale_completes {s : State} {n : Nat} {h : BitVec 256} {flow : List RqFlow} {data : Bytes}
    (hon : s.laneOn n = true) (hh : s.halted = false) (hok : flitOk h = true) (hflow : (s.rqFlow n flow).2 = false)
    (hk : hdrKind h = 3) (hfmt : hdrFmt h ≤ 2) (hofs : hdrOffset h % lineElems (hdrFmt h) = 0) (h1 : 1 ≤ hdrNline h)
    (h512 : hdrNline h ≤ 512) (hend : hdrOffset h + hdrNline h * lineElems (hdrFmt h) ≤ 16384)
    (hmine : s.isMine (handleOrigin (hdrHandle h)) = true) (hm : s.matchReturn h = none) :
    Completes (.store n h data (1 + 4 * hdrNline h) [] flow) s (fun u =>
      u.reg aCarCntStale = s.reg aCarCntStale + 1 ∧ u.car = s.car ∧ SameMemory s u) := by
  obtain ⟨hn, -⟩ := s.laneOn_iff.1 hon
  obtain ⟨s1, hq, he⟩ := execStore_clean (data := data) hon hh hok hflow hk hfmt hofs h1 h512 hend
  rw [State.storeIn_stale (by rwa [hq.isMine hn]) (by rwa [hq.matchReturn])] at he
  refine ⟨_, he, ?_, hq.car, hq.sameMemory⟩
  rw [State.stale, State.reg_bump_same, ← hq.regs aCarCntStale (by unfold aCarCntStale aLanRqStat; omega)]
  exact congrArg (· + 1) (s1.reg_bump_other (by unfold aCarCntStale aLanCntStore; omega))

theorem withdraw_completes {s : State} {n : Nat} {h : BitVec 256} {flow : List RqFlow} {p : Slot} {c : SlotChoice}
    (hon : s.laneOn n = true) (hh : s.halted = false) (hok : flitOk h = true) (hflow : (s.rqFlow n flow).2 = false)
    (hk : hdrKind h = 4) (hmine : s.isMine (handleOrigin (hdrHandle h)) = true) (hm : s.matchReturn h = some (p, c))
    (ha : c.answered = false) (hl : c.lined = false) (hf : p.full 0 p.segs.length = false) :
    Completes (.withdraw n h true flow) s (fun u => u.reg (aLanCntWdraw n) = s.reg (aLanCntWdraw n) + 1 ∧
      ∃ q, tabFind u.car.slots (hdrSlot h) = some q ∧ q.wdraw = true ∧ ∀ i : Nat, (q.segs[i]?).map (·.tally) =
        (p.segs[i]?).map (fun g => g.tally + (if 0 ≤ i ∧ i < p.segs.length then 1 else 0))) := by
  obtain ⟨hn, -⟩ := s.laneOn_iff.1 hon
  obtain ⟨s1, hq, he⟩ := State.takeReturn_clean hflow hok hk (by decide) (by decide)
  have hexec : exec (.withdraw n h true flow) s = .next (s1.withdrawIn n h) := by
    show execWithdraw n h true flow s = _
    simp only [execWithdraw, hon, hh, Bool.not_true, Bool.or_false, Bool.false_eq_true, if_false, he, if_true]
  obtain ⟨hcount, p1, hw, hsegs, q, hfind, hgain⟩ := State.withdrawIn_gains hn
    (by rwa [hq.isMine hn]) (by rwa [hq.matchReturn]) ha hl hf
  rw [hq.regs _ (by unfold aLanCntWdraw aLanRqStat; omega)] at hcount
  exact ⟨_, hexec, hcount, q, hfind, hgain.wdraw.trans hw, hsegs ▸ hgain.tallies⟩

/-- Settles O52: a return that found room acts on a state that differs only in the return queue, every segment that it
covers gains one contribution, and each increment of the arrival counter is one release. Which return a FAULT answers is
the choice of log 32. -/
theorem returnsEnterTheCarousel : Obligations.ReturnsEnterTheCarousel := by
  intro s n
  refine ⟨fun h flow hon hh hok hflow => ⟨fun data hk hfmt hofs h1 h512 hend hmine => ⟨?_, ?_⟩, ?_, ?_⟩,
    fun p t g hp hs hg => ⟨?_, ?_, ?_⟩, ?_, ?_⟩
  · intro p c t hm hd hs ha hf
    obtain ⟨u, he, hline, hstore, q, hq, hgain⟩ :=
      store_matched_completes hon hh hok hflow hk hfmt hofs h1 h512 hend hmine hm hd hs ha hf
    exact ⟨u, he, hline, hstore, q, hq, hgain.tallies, hgain.ctx, hgain.index⟩
  · exact store_stale_completes hon hh hok hflow hk hfmt hofs h1 h512 hend hmine
  · exact fun hk hmine p c hm ha hl hf => withdraw_completes hon hh hok hflow hk hmine hm ha hl hf
  · exact fault_completes hon hh hok hflow
  · exact mixTermEnter_completes hp hs hg
  · exact tokenRelease_completes hp hs hg
  · exact tokenCount_completes hp hs hg
  · exact fun x t => stepStall_completes
  · exact peakRst_completes

end Sys2Proof.Machine
end

section
/-! Dispatch queues: a packet joins the end of its lane's queue, as far as there is room (R147 to R152, R177); the tile takes
packets in order (R141, R159 to R163); DROP (R166, R167). -/

namespace Sys2Proof.Machine

/-! ## Building (R147, R177) -/

/-- A packet apart from how much of it has been written. -/
def DPkt.unbuilt (p : DPkt) : DPkt := { p with built := 0 }

/-- Packets of one order and content, whatever has been written of each. -/
def SamePackets (a b : List DPkt) : Prop := a.map DPkt.unbuilt = b.map DPkt.unbuilt

/-- Going on with packets in building changes no order and no content. -/
theorem samePackets_buildOn (room : Nat) (l : List DPkt) : SamePackets (buildOn room l) l := by
  induction l generalizing room with
  | nil => rfl
  | cons p l ih =>
    rw [SamePackets, buildOn, List.map_cons, List.map_cons, ih]
    rfl

/-- Behind whole packets, the last one gets all the room. -/
theorem buildOn_append (room : Nat) {l : List DPkt} (q : DPkt) (h : l.all (·.whole) = true) :
    buildOn room (l ++ [q]) = l ++ [{ q with built := q.built + min room (q.total - q.built) }] := by
  induction l with
  | nil => rfl
  | cons p l ih =>
    simp only [List.all_cons, Bool.and_eq_true, DPkt.whole, decide_eq_true_eq] at h
    obtain ⟨hp, hl⟩ := h
    have hnone : min room (p.total - p.built) = 0 := by omega
    rw [List.cons_append, buildOn, hnone, Nat.sub_zero, ih hl]
    rfl

theorem Lane.occ_append (l : Lane) (q : DPkt) : ({ l with dq := l.dq ++ [q] } : Lane).occ = l.occ + q.flits := by
  simp [Lane.occ]

/-! ## Storing a lane -/

/-- LPRESS alone follows the occupancy (R176). -/
theorem State.press_eq (s : State) (n : Nat) (l : Lane) : ∃ b, s.press n l = { l with lpress := b } := by
  unfold State.press
  dsimp only
  split
  · exact ⟨_, rfl⟩
  · split
    · exact ⟨_, rfl⟩
    · exact ⟨_, rfl⟩

theorem State.lane_putLane (s : State) (n : Nat) (l : Lane) :
    ∃ b, (s.putLane n l).lane n = { l with dq := buildOn (s.dqCap n - l.occ) l.dq, lpress := b } := by
  obtain ⟨b, hb⟩ := s.press_eq n { l with dq := buildOn (s.dqCap n - l.occ) l.dq }
  exact ⟨b, by rw [State.putLane, State.lane_setLane_same, hb]⟩

@[simp] theorem State.putLane_dq (s : State) (n : Nat) (l : Lane) :
    ((s.putLane n l).lane n).dq = buildOn (s.dqCap n - l.occ) l.dq := by
  obtain ⟨b, hb⟩ := s.lane_putLane n l
  rw [hb]

@[simp] theorem State.putLane_owed (s : State) (n : Nat) (l : Lane) : ((s.putLane n l).lane n).owed = l.owed := by
  obtain ⟨b, hb⟩ := s.lane_putLane n l
  rw [hb]

@[simp] theorem State.putLane_out (s : State) (n : Nat) (l : Lane) : ((s.putLane n l).lane n).out = l.out := by
  obtain ⟨b, hb⟩ := s.lane_putLane n l
  rw [hb]

@[simp] theorem State.reg_putLane (s : State) (n : Nat) (l : Lane) (a : Nat) : (s.putLane n l).reg a = s.reg a := rfl

theorem State.putLane_same (s : State) (n : Nat) (l : Lane) : SamePackets ((s.putLane n l).lane n).dq l.dq :=
  s.putLane_dq n l ▸ samePackets_buildOn _ _

/-! ## Joining the queue (R150, R177) -/

/-- What is left alone until a packet is appended: the lanes and the size of the backing. -/
structure QueueKept (n : Nat) (s u : State) : Prop where
  lanes : u.lanes = s.lanes
  back : u.reg (aLanBack n) = s.reg (aLanBack n)

namespace QueueKept

variable {n : Nat} {s u : State}

theorem putGroup (s : State) (x : Nat) (step : Word) (g : Group) : QueueKept n s (s.putGroup x step g) := ⟨rfl, rfl⟩

theorem modStep (h : QueueKept n s u) (x : Nat) (step : Word) (f : Step → Step) : QueueKept n s (u.modStep x step f) :=
  ⟨h.lanes, h.back⟩

theorem chargeHbm (h : QueueKept n s u) (x k : Nat) : QueueKept n s (u.chargeHbm x k) := by
  refine ⟨(u.chargeHbm_lanes x k).trans h.lanes, ?_⟩
  rw [← h.back, State.chargeHbm, State.accAdd]
  split
  · rfl
  · exact State.reg_addCtr_other _ _ (by unfold aLanBack aAccHbm; omega)

theorem setSlot_ite (h : QueueKept n s u) (c : Prop) [Decidable c] (m : Nat) (p : Slot) :
    QueueKept n s (if c then u.setSlot m p else u) := by
  split
  · exact ⟨h.lanes, h.back⟩
  · exact h

end QueueKept

/-- A header that is written on a lane with room goes to the end of its queue, and as many flits of its packet with it as
there is room for. -/
theorem State.enqueue_dq {s u : State} {n : Nat} {q : DPkt} (h : QueueKept n s u) (hroom : s.laneRoom n = true)
    (hb : q.built = 1) (ht : q.taken = 0) : ((u.enqueue n q).lane n).dq =
      (s.lane n).dq ++ [{ q with built := min q.total (s.dqCap n - (s.lane n).occ) }] := by
  simp only [State.laneRoom, Bool.and_eq_true, decide_eq_true_eq] at hroom
  obtain ⟨hocc, hwhole⟩ := hroom
  have hcap : u.dqCap n = s.dqCap n := by rw [State.dqCap, State.dqCap, State.f_congr h.back]
  have hflits : q.flits = 1 := by rw [DPkt.flits, hb, ht]
  have htotal : 1 ≤ q.total := Nat.le_add_right 1 _
  have hbuilt : 1 + min (s.dqCap n - ((s.lane n).occ + 1)) (q.total - 1) = min q.total (s.dqCap n - (s.lane n).occ) := by
    omega
  rw [State.enqueue, State.putLane_dq, Lane.occ_append, hcap, State.lane_congr h.lanes, hflits, buildOn_append _ _ hwhole, hb,
    hbuilt]

/-! ## Token packets (R149, R150, R152, R434) -/

section Writes

variable {s : State} {n x e : Nat} {t : Step} {g : Group} {r : LaneRun}

theorem tokenPacketWrite_local_completes {skip logical m : Nat} {p : Slot} {gate : BitVec 16} (hon : s.laneOn n = true)
    (hroom : s.laneRoom n = true) (hdue : (s.writers n).findSome? (fun t => (s.due t n).map (fun d => (t, d))) =
      some (t, g, r, e, NextPkt.local skip logical m p gate)) :
    Completes (.tokenPacketWrite n) s (fun u => ∃ q, (u.lane n).dq = (s.lane n).dq ++ [q] ∧ q.token = true ∧ q.expert = e ∧
      q.ctx = t.desc.ctx ∧ q.index = p.index ∧ q.slot = m ∧ q.data = (s.payload t g p.index).1 ∧ q.remote = false ∧
      q.built = min q.total (s.dqCap n - (s.lane n).occ)) := by
  have hexec : exec (.tokenPacketWrite n) s = execTokenPacketWrite n s := rfl
  simp only [execTokenPacketWrite, hon, hroom, hdue, Bool.not_true, Bool.or_self, Bool.false_eq_true, if_false] at hexec
  have hkept : QueueKept n s (s.putGroup t.desc.ctx t.desc.step (g.wrote n e skip r)) := .putGroup s _ _ _
  exact ⟨_, hexec, _, State.enqueue_dq ((hkept.chargeHbm _ _).setSlot_ite _ _ _) hroom rfl rfl,
    rfl, rfl, rfl, rfl, rfl, rfl, rfl, rfl⟩

theorem State.freeAll_lanes (s : State) (hs : List Nat) : (s.freeAll hs).lanes = s.lanes := by
  obtain ⟨⟨_, _, _, _, _, _, h⟩, -⟩ := s.freeAll_only hs
  rw [h]

theorem State.useRow_lanes (s : State) (r : RingRec) : (s.useRow r).lanes = s.lanes := State.freeAll_lanes _ _

theorem tokenPacketWrite_remote_completes {skip logical : Nat} {rc : RingRec} (hon : s.laneOn n = true)
    (hroom : s.laneRoom n = true) (hdue : (s.writers n).findSome? (fun t => (s.due t n).map (fun d => (t, d))) =
      some (t, g, r, e, NextPkt.remote skip logical rc)) :
    Completes (.tokenPacketWrite n) s (fun u => ∃ q, (u.lane n).dq = (s.lane n).dq ++ [q] ∧ q.token = true ∧ q.expert = e ∧
      q.ctx = rc.ctx ∧ q.remote = true ∧ q.built = min q.total (s.dqCap n - (s.lane n).occ)) := by
  have hexec : exec (.tokenPacketWrite n) s = execTokenPacketWrite n s := rfl
  simp only [execTokenPacketWrite, hon, hroom, hdue, Bool.not_true, Bool.or_self, Bool.false_eq_true, if_false] at hexec
  have hkept : QueueKept n s (s.putGroup t.desc.ctx t.desc.step (g.wrote n e skip r)) := .putGroup s _ _ _
  exact ⟨_, hexec, _, (congrArg Lane.dq (State.lane_congr (State.useRow_lanes _ _) n)).trans
    (State.enqueue_dq hkept hroom rfl rfl), rfl, rfl, rfl, rfl, rfl⟩

/-! ## Closes (R148, R150, R182, R435) -/

theorem closePkt_joins {u : State} {bcount : Nat} {partly : Bool} {v : State} (h : QueueKept n s u)
    (hroom : s.laneRoom n = true) :
    ∃ q, ((u.enqueue n (v.closePkt t g e bcount partly)).lane n).dq = (s.lane n).dq ++ [q] ∧ q.token = false ∧ q.expert = e :=
  ⟨_, State.enqueue_dq h hroom rfl rfl, rfl, rfl⟩

/-- A step whose batches are written is not one that a park has cut off. -/
theorem State.parkCut_of_writes (hw : s.writes t = true) (hx : t.desc.ctx = x) :
    (s.ctxState x == 3 && (s.ctx x).parkCut) = false := by
  subst hx
  simp only [State.writes, Bool.and_eq_true, Bool.or_eq_true, beq_iff_eq, Bool.not_eq_true'] at hw
  obtain ⟨-, h2 | ⟨-, hcut⟩⟩ := hw
  · simp [h2]
  · simp [hcut]

section Reached

variable (hon : s.laneOn n = true) (ht : s.rgm.steps.find? (fun t => t.desc.ctx == x && (s.runOn t n).isSome) = some t)
  (hr : s.runOn t n = some (g, r)) (hh : s.halted = false) (hf : t.frozen = false) (hheld : s.laneHeld n x = false)
  (hroom : s.laneRoom n = true)

include hon ht hr hh hf hheld hroom

theorem closePacketWrite_parked_completes (h3 : s.ctxState x = 3) (hcut : (s.ctx x).parkCut = true) (he : r.expert = some e)
    (hp : r.partialClose = false) :
    Completes (.closePacketWrite n x) s (fun u => ∃ q, (u.lane n).dq = (s.lane n).dq ++ [q] ∧ q.token = false ∧
      q.expert = e) := by
  have hexec : exec (.closePacketWrite n x) s = execClosePacketWrite n x s := rfl
  simp only [execClosePacketWrite, ht, hr, hon, hh, hf, hheld, hroom, h3, hcut, he, hp, Bool.not_true, Bool.or_self,
    Bool.false_eq_true, if_false, beq_self_eq_true, Bool.and_self, if_true] at hexec
  exact ⟨_, hexec, closePkt_joins (.putGroup s _ _ _) hroom⟩

theorem closePacketWrite_batch_completes (hw : s.writes t = true) (he : s.laneExpert t (s.mergeRing t g) r = some e)
    (hnext : s.nextOf t (s.mergeRing t g) e 0 ((t.laneSeq (s.mergeRing t g) n e).drop
      (tabGet 0 (s.mergeRing t g).sent (n * 2048 + e))) = NextPkt.none)
    (hend : t.batchEnd (s.mergeRing t g) = true) (hmet : s.ringMet t (s.mergeRing t g).layer e = true) :
    Completes (.closePacketWrite n x) s (fun u => ∃ q, (u.lane n).dq = (s.lane n).dq ++ [q] ∧ q.token = false ∧
      q.expert = e) := by
  have hx : t.desc.ctx = x ∧ (s.runOn t n).isSome = true := by simpa using List.find?_some ht
  have hexec : exec (.closePacketWrite n x) s = execClosePacketWrite n x s := rfl
  simp only [execClosePacketWrite, ht, hr, hon, hh, hf, hheld, hroom, State.parkCut_of_writes hw hx.1, hw, he, hnext, hend,
    hmet, Bool.not_true, Bool.or_self, Bool.false_eq_true, if_false, Bool.and_self, if_true] at hexec
  exact ⟨_, hexec, closePkt_joins ((QueueKept.putGroup s _ _ _).modStep _ _ _) hroom⟩

end Reached

end Writes

/-! ## The tile takes flits (R141, R159 to R163) -/

/-- What a header's taking notes of its choice is neither in a register nor in a lane. -/
theorem State.headerTaken_keeps (s : State) (p : DPkt) :
    (s.headerTaken p).regs = s.regs ∧ (s.headerTaken p).lanes = s.lanes := by
  unfold State.headerTaken
  dsimp only
  split
  · exact ⟨rfl, rfl⟩
  · split
    · split
      · exact ⟨rfl, rfl⟩
      · exact ⟨rfl, rfl⟩
    · exact ⟨rfl, rfl⟩

/-- Payload flits leave the registers and what the tile owes. -/
theorem State.takeFlits_keeps (s : State) (n k : Nat) :
    SameRegsBut [] s (s.takeFlits n k) ∧ ((s.takeFlits n k).lane n).owed = (s.lane n).owed := by
  unfold State.takeFlits
  dsimp only
  split
  · exact ⟨fun _ _ => rfl, rfl⟩
  · split
    · exact ⟨fun _ _ => rfl, rfl⟩
    · exact ⟨fun _ _ => rfl, s.putLane_owed n _⟩

/-- Payload flits of the packet being read: they pass the port, and the packet leaves the queue with its last. -/
theorem State.takeFlits_reads {s : State} {n k : Nat} {p : DPkt} {rest : List DPkt} (hq : (s.lane n).dq = p :: rest)
    (h0 : p.taken ≠ 0) (hlt : p.taken < p.total) :
    ((s.takeFlits n k).lane n).out.length = (s.lane n).out.length + min k (p.total - p.taken) ∧
    SamePackets ((s.takeFlits n k).lane n).dq
      (if p.total ≤ p.taken + k then rest else { p with taken := p.taken + k } :: rest) := by
  have h0' : (p.taken == 0) = false := beq_false_of_ne h0
  simp only [State.takeFlits, hq, h0', Bool.false_eq_true, if_false]
  refine ⟨by simp [DPkt.flitsFrom], (State.putLane_same _ _ _).trans ?_⟩
  change SamePackets (if (p.taken + min k (p.total - p.taken) == p.total) = true then rest else
    { p with taken := p.taken + min k (p.total - p.taken), built := _ } :: rest) _
  by_cases hk : p.total ≤ p.taken + k
  · have hall : p.taken + min k (p.total - p.taken) = p.total := by omega
    rw [if_pos hk, if_pos (beq_iff_eq.2 hall)]
    rfl
  · have hsome : min k (p.total - p.taken) = k := by omega
    rw [if_neg hk, hsome, if_neg (by rw [beq_iff_eq]; omega)]
    rfl

section Takes

variable {s : State} {n k : Nat} {p : DPkt} {rest : List DPkt}

theorem exec_packetTake_header (hon : s.laneOn n = true) (hq : (s.lane n).dq = p :: rest) (hk : 1 ≤ k) (h0 : p.taken = 0) :
    exec (.packetTake n k) s =
      .next (if p.total == 1 then s.takeHeader n p else (s.takeHeader n p).takeFlits n (k - 1)) := by
  have hk0 : (k == 0) = false := beq_false_of_ne (by omega)
  have hexec : exec (.packetTake n k) s = execPacketTake n k s := rfl
  simpa only [execPacketTake, hon, hk0, hq, h0, Bool.not_true, Bool.or_self, Bool.false_eq_true, if_false, beq_self_eq_true,
    if_true] using hexec

theorem packetTake_token_completes (hon : s.laneOn n = true) (hq : (s.lane n).dq = p :: rest) (hk : 1 ≤ k) (h0 : p.taken = 0)
    (ht : p.token = true) (hv : p.void = false) :
    Completes (.packetTake n k) s (fun u => u.reg (aLanCntToken n) = s.reg (aLanCntToken n) + 1 ∧
      ∃ o, (u.lane n).owed = (s.lane n).owed ++ [o] ∧ o.ctx = p.ctx ∧ o.step = p.step ∧ o.handle = hdrHandle p.hdr ∧
        o.expert = p.expert) := by
  have hhead : (s.takeHeader n p).reg (aLanCntToken n) = s.reg (aLanCntToken n) + 1 ∧
      ∃ o, ((s.takeHeader n p).lane n).owed = (s.lane n).owed ++ [o] ∧ o.ctx = p.ctx ∧ o.step = p.step ∧
        o.handle = hdrHandle p.hdr ∧ o.expert = p.expert := by
    simp only [State.takeHeader, ht, hv, Bool.not_true, Bool.false_eq_true, if_false]
    refine ⟨?_, _, (congrArg Lane.owed (State.lane_congr (State.headerTaken_keeps _ _).2 n)).trans (State.putLane_owed _ _ _),
      rfl, rfl, rfl, rfl⟩
    rw [State.reg_congr (State.headerTaken_keeps _ _).1, State.reg_bump_same, State.reg_putLane]
  obtain ⟨hreg, hkeep⟩ := (s.takeHeader n p).takeFlits_keeps n (k - 1)
  refine ⟨_, exec_packetTake_header hon hq hk h0, ?_⟩
  split
  · exact hhead
  · rwa [hreg _ List.not_mem_nil, hkeep]

theorem packetTake_void_completes (hon : s.laneOn n = true) (hq : (s.lane n).dq = p :: rest) (hk : 1 ≤ k) (h0 : p.taken = 0)
    (ht : p.token = true) (hv : p.void = true) (hd : p.data = []) :
    Completes (.packetTake n k) s (fun u => SameRegsBut [] s u ∧ SamePackets (u.lane n).dq rest ∧
      (u.lane n).owed = (s.lane n).owed) := by
  have h1 : (p.total == 1) = true := by simp [DPkt.total, hd]
  refine ⟨_, exec_packetTake_header hon hq hk h0, ?_⟩
  simp only [State.takeHeader, h1, ht, hv, hq, Bool.not_true, Bool.false_eq_true, if_false, if_true]
  exact ⟨fun _ _ => rfl, State.putLane_same _ _ _, State.putLane_owed _ _ _⟩

theorem packetTake_close_completes (hon : s.laneOn n = true) (hq : (s.lane n).dq = p :: rest) (hk : 1 ≤ k) (h0 : p.taken = 0)
    (ht : p.token = false) (hd : p.data = []) :
    Completes (.packetTake n k) s (fun u => u.reg (aLanCntClose n) = s.reg (aLanCntClose n) + 1 ∧
      SamePackets (u.lane n).dq rest ∧ (u.lane n).owed = (s.lane n).owed) := by
  have h1 : (p.total == 1) = true := by simp [DPkt.total, hd]
  refine ⟨_, exec_packetTake_header hon hq hk h0, ?_⟩
  simp only [State.takeHeader, h1, ht, hq, Bool.not_false, if_true]
  exact ⟨State.reg_bump_same _ _, State.putLane_same _ _ _, State.putLane_owed _ _ _⟩

theorem packetTake_payload_completes (hon : s.laneOn n = true) (hq : (s.lane n).dq = p :: rest) (hk : 1 ≤ k) (h0 : p.taken ≠ 0)
    (hlt : p.taken < p.total) :
    Completes (.packetTake n k) s (fun u => SameRegsBut [] s u ∧ (u.lane n).out.length = min k (p.total - p.taken) ∧
      SamePackets (u.lane n).dq (if p.total ≤ p.taken + k then rest else { p with taken := p.taken + k } :: rest)) := by
  have hk0 : (k == 0) = false := beq_false_of_ne (by omega)
  have h0' : (p.taken == 0) = false := beq_false_of_ne h0
  have hexec : exec (.packetTake n k) s = .next ((s.setLane n { s.lane n with out := [] }).takeFlits n k) := by
    change execPacketTake n k s = _
    simp only [execPacketTake, hon, hk0, hq, h0', Bool.not_true, Bool.or_self, Bool.false_eq_true, if_false]
  have hlane : (s.setLane n { s.lane n with out := [] }).lane n = { s.lane n with out := [] } := s.lane_setLane_same n _
  obtain ⟨hout, hdq⟩ := State.takeFlits_reads (s := s.setLane n { s.lane n with out := [] }) (k := k) (by rw [hlane, hq]) h0 hlt
  refine ⟨_, hexec, (State.takeFlits_keeps _ n k).1, hout.trans ?_, hdq⟩
  rw [hlane, List.length_nil, Nat.zero_add]

/-! ## DROP and undefined commands (R166, R167) -/

theorem Lane.reading_iff {l : Lane} (hq : l.dq = p :: rest) : l.reading = true ↔ p.taken ≠ 0 := by
  simp [Lane.reading, hq]

theorem laneDrop_reading_completes (hon : s.laneOn n = true) (hq : (s.lane n).dq = p :: rest) (h0 : p.taken ≠ 0) (b : Bool) :
    Completes (.laneDrop n b) s (fun u => SamePackets (u.lane n).dq rest ∧
      u.reg (aLanCntDrop n) = s.reg (aLanCntDrop n) + 1) := by
  have hread := (Lane.reading_iff hq).2 h0
  have hexec : exec (.laneDrop n b) s = execLaneDrop n b s := rfl
  simp only [execLaneDrop, hon, hread, hq, Bool.not_true, Bool.and_false, Bool.false_eq_true, if_false, if_true] at hexec
  exact ⟨_, hexec, State.putLane_same _ _ _, State.reg_bump_same _ _⟩

/-- A command that the lane refuses only sets CMD. -/
theorem State.badCmd_effect (s : State) {n : Nat} (hn : n < 128) :
    (s.badCmd n).flag (aLanErr n) 4 = true ∧ (s.badCmd n).lanes = s.lanes ∧ SameMemory s (s.badCmd n) :=
  ⟨s.flag_errBit _ _ (by unfold aLanErr; omega) (by decide), s.errBit_lanes _ _ _, by simp [State.badCmd, SameMemory]⟩

theorem laneDrop_idle_completes (hon : s.laneOn n = true) (hread : (s.lane n).reading = false) {b : Bool}
    (hb : b = false ∨ (s.lane n).ended = false) :
    Completes (.laneDrop n b) s (fun u => u.flag (aLanErr n) 4 = true ∧ u.lanes = s.lanes) := by
  have hend : (b && (s.lane n).ended) = false := Bool.and_eq_false_iff.2 hb
  have hexec : exec (.laneDrop n b) s = execLaneDrop n b s := rfl
  simp only [execLaneDrop, hon, hread, hend, Bool.not_true, Bool.false_and, Bool.false_eq_true, if_false] at hexec
  obtain ⟨herr, hlanes, -⟩ := s.badCmd_effect (s.laneOn_iff.1 hon).1
  exact ⟨_, hexec, herr, hlanes⟩

theorem exec_laneDrop_atEnd (hon : s.laneOn n = true) (hread : (s.lane n).reading = false) (hend : (s.lane n).ended = true) :
    exec (.laneDrop n true) s = .next s := by
  have hexec : exec (.laneDrop n true) s = execLaneDrop n true s := rfl
  simpa only [execLaneDrop, hon, hread, hend, Bool.not_true, Bool.not_false, Bool.and_self, Bool.false_eq_true, if_false,
    if_true] using hexec

theorem lcmdUndefined_completes {c : Nat} (hon : s.laneOn n = true) (h0 : c % 16 ≠ 0)
    (h1 : c % 16 = 1 → (s.lane n).reading = false) :
    Completes (.lcmdUndefined n c) s (fun u => u.flag (aLanErr n) 4 = true ∧ u.lanes = s.lanes ∧ SameMemory s u) := by
  have hdrop : (c % 16 == 1 && (s.lane n).reading) = false := by simpa using h1
  have hexec : exec (.lcmdUndefined n c) s = execLcmdUndefined n c s := rfl
  simp only [execLcmdUndefined, hon, beq_false_of_ne h0, hdrop, Bool.not_true, Bool.or_self, Bool.false_eq_true, if_false]
    at hexec
  exact ⟨_, hexec, s.badCmd_effect (s.laneOn_iff.1 hon).1⟩

end Takes

/-! ## Counting (R159, R160) -/

/-- Packets that DQ_PKTS counts. -/
def pktsIn (l : List DPkt) : Nat := ((l.filter (fun p => p.taken == 0)).filter (·.counted)).length

/-- The first packet whose increment is due is counted, and no other changes. -/
theorem countFirst_counts {l : List DPkt} {i : Nat} (h : l.findIdx? DPkt.countDue = some i) :
    countFirst l = l.modify i (fun p => { p with counted := true }) ∧ pktsIn (countFirst l) = pktsIn l + 1 := by
  induction l generalizing i with
  | nil => cases h
  | cons p l ih =>
    rw [List.findIdx?_cons] at h
    by_cases hp : p.countDue = true
    · rw [if_pos hp] at h
      cases h
      simp only [DPkt.countDue, Bool.and_eq_true, Bool.not_eq_true'] at hp
      obtain ⟨⟨hc, h0⟩, hw⟩ := hp
      simp [countFirst, DPkt.countDue, pktsIn, hc, h0, hw]
    · rw [if_neg hp, Option.map_eq_some_iff] at h
      obtain ⟨j, hj, rfl⟩ := h
      obtain ⟨hmod, hcount⟩ := ih hj
      rw [countFirst, if_neg hp]
      refine ⟨by rw [List.modify_succ_cons, hmod], ?_⟩
      unfold pktsIn at hcount ⊢
      simp only [List.filter_cons]
      split
      · simp only [List.filter_cons]
        split
        · simp only [List.length_cons, hcount]
        · exact hcount
      · exact hcount

theorem dqCountUpdate_completes {s : State} {n i : Nat} (h : (s.lane n).dq.findIdx? DPkt.countDue = some i) :
    Completes (.dqCountUpdate n) s (fun u => (u.lane n).dq = (s.lane n).dq.modify i (fun p => { p with counted := true }) ∧
      (u.lane n).pkts = (s.lane n).pkts + 1 ∧ SameRegsBut [] s u ∧ SameMemory s u) := by
  obtain ⟨hmod, hcount⟩ := countFirst_counts h
  refine ⟨_, rfl, ?_, ?_, fun _ _ => rfl, rfl, rfl, rfl, rfl, rfl⟩
  · rw [State.lane_setLane_same, hmod]
  · rw [State.lane_setLane_same]
    exact hcount

end Sys2Proof.Machine
end

section
/-! Binding a slot (R195, R196, R199, R427); then the obligation of slots and lanes. -/

namespace Sys2Proof.Machine

/-! ## Remote choices of a token leave (R423 to R429) -/

theorem FabricOnly.chargeHbm (s : State) (x n : Nat) : FabricOnly s (s.chargeHbm x n) :=
  .accAdd s n (by unfold aAccHbm; omega)

theorem FabricOnly.car {s t : State} (h : FabricOnly s t) : t.car = s.car := by
  obtain ⟨_, _, rfl, -⟩ := h
  rfl

theorem State.sendRows_only (s : State) (t : Step) (g : Group) (p : Slot) (owner : Nat) :
    FabricOnly s (s.sendRows t g p owner) :=
  (FabricOnly.chargeHbm s _ _).trans (.foldl _ (fun u _ => u.sendKept_only _) _ _)

theorem State.releaseRemote_only (s : State) (t : Step) (g : Group) (slot : Nat) (p : Slot) :
    FabricOnly s (s.releaseRemote t g slot p) := by
  exact .foldl _ (fun u o => (FabricOnly.foldl _ (fun v _ => v.sendKept_only _) _ u).trans (State.sendRows_only _ _ _ _ _)) _ s

theorem State.ringCloses_car (s : State) (x : Nat) (step : Word) : (s.ringCloses x step).car = s.car := by
  unfold State.ringCloses
  split
  · rfl
  · split
    · rfl
    · dsimp only
      split
      · rfl
      · change (List.foldl _ s _).car = s.car
        refine FabricOnly.car (.foldl _ (fun u e => ?_) _ s)
        split
        · exact .refl u
        · split
          · exact .refl u
          · exact u.sendKept_only _

theorem State.notePeak_car (s : State) : s.notePeak.car = s.car := by
  unfold State.notePeak
  split
  · rfl
  · rfl

/-! ## SLOT_BIND (R195, R196) -/

theorem Step.countOf_mergeRing (s : State) (t : Step) (g : Group) (k : TokRec) :
    t.countOf (s.mergeRing t g) k = t.countOf g k := by
  unfold State.mergeRing
  induction s.ring.recs generalizing g with
  | nil => rfl
  | cons r l ih =>
    rw [List.foldl_cons, ih]
    split
    · rfl
    · rfl

theorem slotBind_completes {s : State} {x n : Nat} {t : Step} {g : Group} {k : TokRec} (ht : s.worker x = some t)
    (hg : t.group = some g) (hk : t.nextBind g g.enter = some k) (hin : s.slotIn t.part n = true)
    (hfree : tabFind s.car.slots n = none) (hroom : s.boundBy x t.desc.step < t.slotRes) :
    Completes (.slotBind x n) s (fun u => tabGet 0 u.car.gens n = (tabGet 0 s.car.gens n + 1) % 65536 ∧
      ∃ p, tabFind u.car.slots n = some p ∧ p.ctx = x ∧ p.step = t.desc.step ∧ p.index = k.index ∧
        p.count = t.countOf g k ∧ p.segs.all (fun q => q.tally == 0) = true ∧ p.segs.length = t.prog.d / 32) := by
  have hres : decide (t.slotRes ≤ s.boundBy x t.desc.step) = false := decide_eq_false (by omega)
  have hexec : exec (.slotBind x n) s = execSlotBind x n s := rfl
  simp only [execSlotBind, ht, hg, hk, hin, hfree, hres, Option.isSome_none, Bool.not_true, Bool.or_self, Bool.false_eq_true,
    if_false] at hexec
  have hcar (u : State) (t : Step) (g : Group) (p : Slot) (step : Word) :
      ((u.notePeak.releaseRemote t g n p).ringCloses x step).car = u.car :=
    (State.ringCloses_car _ _ _).trans ((State.releaseRemote_only _ _ _ _ _).car.trans u.notePeak_car)
  refine ⟨_, hexec, ?_, _, (congrArg (fun c : Car => tabFind c.slots n) (hcar _ _ _ _ _)).trans
    (tabFind_tabPut_same s.car.slots n _), (State.worker_some ht).2.1, rfl, rfl, Step.countOf_mergeRing s t g k, ?_,
    List.length_replicate⟩
  · rw [hcar]
    exact tabGet_tabSet_same 0 s.car.gens n _
  · simp [State.newSlot]

/-! ## The obligation -/

/-- Settles O51: a packet written joins whole packets, so it alone is in building and gets all the room; what goes on
being written behind a take changes no packet's order or content. -/
theorem lanesCarryBatches : Obligations.LanesCarryBatches := by
  intro s n
  refine ⟨fun x t g k => slotBind_completes, fun hon => ⟨?_, ?_, ?_, ?_, ?_, ?_⟩, fun i => dqCountUpdate_completes⟩
  · exact fun t g r e skip logical m p gate => tokenPacketWrite_local_completes hon
  · exact fun t g r e skip logical rc => tokenPacketWrite_remote_completes hon
  · exact fun x t g r ht hr hh hf hheld hroom => ⟨fun e => closePacketWrite_parked_completes hon ht hr hh hf hheld hroom,
      fun e => closePacketWrite_batch_completes hon ht hr hh hf hheld hroom⟩
  · exact fun p rest k hq hk => ⟨packetTake_token_completes hon hq hk, packetTake_void_completes hon hq hk,
      packetTake_close_completes hon hq hk, packetTake_payload_completes hon hq hk, laneDrop_reading_completes hon hq⟩
  · exact fun b hread => ⟨laneDrop_idle_completes hon hread, fun hb hend => hb ▸ exec_laneDrop_atEnd hon hread hend⟩
  · exact fun c => lcmdUndefined_completes hon

end Sys2Proof.Machine
end

section
/-! What goes along with a shadow batch (R238): the registers of SHD and the batches that run, beside reads of the stack, rows
that enter slots, aborted steps, departures and a halt. -/

namespace Sys2Proof.Machine

/-! ## What is kept -/

/-- The registers of SHD are kept, and the partitions run the batches they ran. -/
structure BatchesKept (s t : State) : Prop where
  regs : ∀ a, 0x110000 ≤ a → a < 0x110040 → t.reg a = s.reg a
  running : t.shd.running = s.shd.running

namespace BatchesKept

theorem refl (s : State) : BatchesKept s s := ⟨fun _ _ _ => rfl, rfl⟩

theorem trans {s t u : State} (h : BatchesKept s t) (k : BatchesKept t u) : BatchesKept s u :=
  ⟨fun a h1 h2 => (k.regs a h1 h2).trans (h.regs a h1 h2), k.running.trans h.running⟩

theorem foldl {α : Type} (f : State → α → State) (h : ∀ s a, BatchesKept s (f s a)) (l : List α) (s : State) :
    BatchesKept s (l.foldl f s) := by
  induction l generalizing s with
  | nil => exact .refl s
  | cons a l ih => exact (h s a).trans (ih _)

theorem ite {s t u : State} (c : Prop) [Decidable c] (ht : BatchesKept s t) (hu : BatchesKept s u) :
    BatchesKept s (if c then t else u) := by
  split
  · exact ht
  · exact hu

/-- Changes outside the registers and the batches. -/
theorem of_same {s t : State} (hr : t.regs = s.regs) (hd : t.shd = s.shd) : BatchesKept s t :=
  ⟨fun a _ _ => State.reg_congr hr a, by rw [hd]⟩

theorem setReg (s : State) {a : Nat} (v : Word) (h : a < 0x110000 ∨ 0x110040 ≤ a) : BatchesKept s (s.setReg a v) :=
  ⟨fun _ _ _ => s.reg_setReg_other v (by omega), rfl⟩

theorem accAdd (s : State) {a : Nat → Nat} {x : Nat} (n : Nat) (h : a x < 0x110000) : BatchesKept s (s.accAdd a x n) := by
  unfold State.accAdd
  exact .ite _ (.refl s) (.setReg s _ (.inl h))

theorem chargeHbm (s : State) (x n : Nat) : BatchesKept s (s.chargeHbm x n) := .accAdd s n (by unfold aAccHbm; omega)

theorem chargeStk (s : State) (x n : Nat) : BatchesKept s (s.chargeStk x n) := .accAdd s n (by unfold aAccStk; omega)

theorem modStep (s : State) (x : Nat) (step : Word) (f : Step → Step) : BatchesKept s (s.modStep x step f) := .of_same rfl rfl

theorem setSlot (s : State) (n : Nat) (p : Slot) : BatchesKept s (s.setSlot n p) := .of_same rfl rfl

theorem setMgt (s : State) (m : Mgt) : BatchesKept s { s with mgt := m } := .of_same rfl rfl

theorem noteRetry (s : State) (x : Nat) (step : Word) (n : Nat) : BatchesKept s (s.noteRetry x step n) := by
  unfold State.noteRetry
  exact .ite _ (.refl s) (.modStep s _ _ _)

end BatchesKept

theorem AttentionOnly.batches {s t : State} (h : AttentionOnly s t) : BatchesKept s t := by
  obtain ⟨_, _, _, rfl, hr⟩ := h
  exact ⟨fun a _ _ => hr a (by omega), rfl⟩

theorem PoolsOnly.batches {s t : State} (h : PoolsOnly s t) : BatchesKept s t := by
  obtain ⟨⟨_, _, _, _, _, _, rfl⟩, hr, -⟩ := h
  exact ⟨fun a _ _ => hr a (by omega), rfl⟩

theorem CountOnly.batches {s t : State} (h : CountOnly s t) : BatchesKept s t := by
  obtain ⟨_, _, h⟩ := h
  exact .trans (.setMgt s _) h.batches

/-- What the end of a step keeps, keeps SHD too, where it leaves the running batches alone. -/
theorem EndKeeps.batches {s t : State} (h : EndKeeps s t) (hd : t.shd.running = s.shd.running) : BatchesKept s t :=
  ⟨fun a _ _ => h.regs a (by unfold EndKept; omega), hd⟩

theorem BatchesKept.errBit (s : State) {a : Nat} (n c : Nat) (h : a < 0x110000 ∨ 0x110040 ≤ a) :
    BatchesKept s (s.errBit a n c) := (BatchesKept.setReg s _ h).trans (State.raise_only _ _).batches

/-! ## Aborted steps (R303, R304, R543) -/

theorem State.voidAll_shd (s : State) (f : DPkt → Bool) : (s.voidAll f).shd = s.shd := by
  refine foldl_keeps State.shd (fun s n => ?_) _ s
  unfold State.voidOn
  dsimp only
  split <;> rfl

theorem State.headsGone_shd (s : State) (t : Step) : (s.headsGone t).shd = s.shd := by
  refine foldl_keeps State.shd (fun s _ => foldl_keeps State.shd (fun s _ => ?_) _ s) _ s
  dsimp only
  split <;> rfl

/-- A batch that runs goes on, though its step is stopped. -/
theorem State.stopStep_batches (s : State) (t : Step) (endc : Nat) : BatchesKept s (s.stopStep t endc) := by
  have hvoid := (s.voidAll_endKeeps fun p => p.ctx == t.desc.ctx && p.step == t.desc.step).batches
    (congrArg Shd.running (s.voidAll_shd _))
  have hheads (u : State) : BatchesKept u (u.headsGone t) :=
    (u.headsGone_endKeeps t).batches (congrArg Shd.running (u.headsGone_shd t))
  have hrest (u : State) (c : Car) (l : Col) (d : Tab (List ShadowBatch)) (x : Nat) (k : Ctx) (f : Step → Step) : BatchesKept u
      ((({ u with car := c, col := l, shd := { u.shd with formed := d } } : State).setCtx x k).modStep t.desc.ctx t.desc.step f) :=
    ⟨fun _ _ _ => rfl, rfl⟩
  exact ((hvoid.trans (hheads _)).trans (hrest _ _ _ _ _ _ _)).trans (.setReg _ _ (by decide))

theorem State.freeAll_shd (s : State) (hs : List Nat) : (s.freeAll hs).shd = s.shd := by
  obtain ⟨⟨_, _, _, _, _, _, h⟩, -, -⟩ := s.freeAll_only hs
  rw [h]

theorem State.undoStep_shd (s : State) (t : Step) : (s.undoStep t).shd = s.shd := by
  unfold State.undoStep
  split
  · rfl
  · dsimp only
    refine (foldl_keeps State.shd ?_ _ _).trans (foldl_keeps State.shd ?_ _ s)
    · exact fun _ _ => rfl
    · exact fun u e => u.freeAll_shd e.2

theorem State.dropStep_batches (s : State) (t : Step) (endc : Nat) : BatchesKept s (s.dropStep t endc) :=
  (((s.undoStep_endKeeps t).batches (congrArg Shd.running (s.undoStep_shd t))).trans
    (State.stopStep_batches _ t endc)).trans (.modStep _ _ _ _)

theorem State.recordToFlash_shd (s : State) (b : Bytes) (mismatch : Bool) : (s.recordToFlash b mismatch).shd = s.shd := by
  unfold State.recordToFlash State.queueFlash
  dsimp only
  split
  · next h =>
    split at h
    · cases h
    · cases h
      rfl
  · simp

theorem State.lsFill_shd (s : State) (i stage layer lane lo hi : Nat) :
    (s.lsFill i stage layer lane lo hi).shd = s.shd := by
  have hform (u : State) (x : Nat) (t : Step) (ws : List Word) (c : Word) : (u.formRecord x t ws c).2.shd = u.shd := by
    obtain ⟨way, he⟩ := u.formRecord_only x t ws c
    rw [he]
    rfl
  unfold State.lsFill
  dsimp only
  exact (State.errBit_shd _ _ _ _).trans ((State.recordToFlash_shd _ _ _).trans ((hform _ _ _ _ _).trans
    ((State.setReg_shd _ _ _).trans (State.setReg_shd _ _ _))))

theorem State.setStep_shd (s : State) (t : Step) : (s.setStep t).shd = s.shd := rfl

theorem State.lsMark_shd (s : State) (i : Nat) : (s.lsMark i).shd = s.shd := by
  unfold State.lsMark
  dsimp only
  split
  · rw [State.setStep_shd, State.setF_shd]
  · rw [State.setF_shd]

theorem State.lsSend_shd (s : State) (x : Nat) (step : Word) (layer kind stage first count : Nat) (body : Bytes) :
    (s.lsSend x step layer kind stage first count body).shd = s.shd := by
  unfold State.lsSend
  dsimp only
  obtain ⟨_, _, he, -⟩ := s.sendKept_only _
  rw [he]

theorem State.lsStop_shd (s : State) (i stage : Nat) (tell : Bool) : (s.lsStop i stage tell).shd = s.shd := by
  unfold State.lsStop State.lsFreeze
  split
  · rfl
  · dsimp only
    have hfill := ((s.lsMark i).lsFill_shd i stage (s.layerNow (s.f (aWayLsCfg i) 11 0)) 0xFF 0 0x3FFFFF).trans (s.lsMark_shd i)
    split
    · exact (State.lsSend_shd _ _ _ _ _ _ _ _ _).trans hfill
    · exact hfill

theorem State.lsAbort_shd (s : State) (x : Nat) : (s.lsAbort x).shd = s.shd := by
  unfold State.lsAbort
  split
  · exact s.lsStop_shd _ _ _
  · rfl

theorem State.abortStep_batches (s : State) (t : Step) (endc : Nat) : BatchesKept s (s.abortStep t endc) := by
  unfold State.abortStep
  exact .ite _ (.refl s) (((BatchesKept.foldl _ (fun s u => s.dropStep_batches u 0x23) _ s).trans
    (State.stopStep_batches _ t endc)).trans
      ((State.lsAbort_effect _ _).1.batches (congrArg Shd.running (State.lsAbort_shd _ _))))

theorem State.abortBound_batches (s : State) (f : Slot → Bool) (endc : Nat) : BatchesKept s (s.abortBound f endc) := by
  refine .foldl _ (fun s t => ?_) _ s
  split
  · exact s.abortStep_batches _ endc
  · exact .refl s

/-! ## Departures and the engine halt (R599, R601, R605) -/

theorem State.setIsl_batches (s : State) (i v : Nat) : BatchesKept s (s.setIsl i v) := by
  unfold State.setIsl
  split
  · next h =>
    have hi : i < 128 := of_decide_eq_true h
    exact .setReg s _ (.inl (by unfold aLanCtrl; omega))
  · exact .ite _ (.setReg s _ (by decide)) (.ite _ (.setReg s _ (by decide)) (.ite _ (.setReg s _ (by decide)) (.setMgt s _)))

theorem State.retire_batches (s : State) (i : Nat) (attention : Bool) : BatchesKept s (s.retire i attention) :=
  ((s.setIsl_batches i 2).trans (.setMgt _ _)).trans
    (.ite _ (State.raiseAt_only _ _ _).batches (State.noteFault_only _ _ _ _).batches)

theorem State.depart_batches (s : State) (i : Nat) (software : Bool) : BatchesKept s (s.depart i software) := by
  have hcount (u : State) : BatchesKept u (u.countDeparture i) :=
    (BatchesKept.setMgt u _).trans (.ite _ (State.retire_batches _ _ _) (.refl _))
  exact ((BatchesKept.setMgt s _).trans (.ite _ (.refl _) (State.setIsl_batches _ _ _))).trans (.ite _ (.refl _) (hcount _))

theorem State.writeCompletion_batches (s : State) (t : Step) (endc : Nat) : BatchesKept s (s.writeCompletion t endc) := by
  have hmiss : BatchesKept s (s.noteMiss t) :=
    .ite _ ((BatchesKept.setReg s _ (by decide)).trans (.errBit _ _ _ (by decide))) (.refl s)
  have hrec (u : State) (a : Nat) (bs : Bytes) (x n : Nat) (r : Rgm) :
      BatchesKept u { (u.hbmWrite a bs).chargeHbm x n with rgm := r } :=
    ((BatchesKept.of_same rfl rfl : BatchesKept u (u.hbmWrite a bs)).trans (.chargeHbm _ _ _)).trans (.of_same rfl rfl)
  have hcount (u : State) :
      BatchesKept u (if endc ≤ 1 then (u.bump aRgmCntStep).accAdd aAccSteps (t.desc.ctx % 4096) 1 else u) :=
    .ite _ ((BatchesKept.setReg u _ (by decide)).trans (.accAdd _ _ (by unfold aAccSteps; omega))) (.refl u)
  have hlast (u : State) (c : Ctx) : BatchesKept u (if endc ≤ 1 then u.setCtx t.desc.ctx c else u) :=
    .ite _ (.of_same rfl rfl) (.refl u)
  exact ((((hmiss.trans (hrec _ _ _ _ _ _)).trans (hcount _)).trans (hlast _ _)).trans (State.event_only _ _ _).batches)

theorem State.halt_batches (s : State) : BatchesKept s s.halt := by
  have hstop (u : State) (w : Pwr) : BatchesKept u { u with pwr := w } := .of_same rfl rfl
  unfold State.halt
  exact .ite _ (.refl s) ((((hstop s _).trans (.foldl _ (fun s t => s.writeCompletion_batches t 0x34) _ _)).trans
    (.setReg _ _ (by decide))).trans (State.raise_only _ _).batches)

/-- A fault of an island that is no lane and no adder. -/
theorem State.islandFault_batches (s : State) {i : Nat} (h : 248 ≤ i) : BatchesKept s (s.islandFault i) := by
  have hlane : islLane i = false := by simp [islLane]; omega
  have hadder : islAdder i = false := by simp [islAdder]; omega
  have hloss : BatchesKept s (s.islandLoss i) := by
    simp only [State.islandLoss, hlane, hadder, Bool.false_eq_true, if_false]
    exact .ite _ (s.abortBound_batches _ _) (.refl s)
  exact .ite _ s.halt_batches (hloss.trans (State.depart_batches _ _ _))

theorem State.noteUe_batches (s : State) {i : Nat} (h : 248 ≤ i) : BatchesKept s (s.noteUe i) :=
  (BatchesKept.setMgt s _).trans (.ite _ (State.islandFault_batches _ h) (.refl _))

/-! ## Reads of the stack (R325, R326, R603) -/

theorem State.stackCe_batches (s : State) (granule : Nat) : BatchesKept s (s.stackCe granule) := by
  have hnominate (u : State) : BatchesKept u u.nominate := by
    unfold State.nominate
    refine .ite _ (.refl u) ?_
    split
    · exact .refl u
    · exact ((BatchesKept.setMgt u _).trans (.setReg _ _ (by decide))).trans (State.raise_only _ _).batches
  exact (((BatchesKept.setReg s _ (by decide)).trans (State.noteCe_only _ _).batches).trans (.setMgt _ _)).trans (hnominate _)

theorem State.stackUe_batches (s : State) (granule : Nat) : BatchesKept s (s.stackUe granule) := by
  have hquar (u : State) (a : Nat) : BatchesKept u (u.quarantine a) := by
    unfold State.quarantine
    split
    · exact .refl u
    · exact (PoolsOnly.setEntry u _ _ _).batches
  have hnote (u : State) : BatchesKept u u.noteStackUe :=
    (BatchesKept.setReg u _ (by decide)).trans (.ite _ (.refl _) (.errBit _ _ _ (by decide)))
  have hslot (u : State) (o : Option Nat) : BatchesKept u (o.elim u u.retireSlot) := by
    cases o
    · exact .refl u
    · exact .of_same rfl rfl
  have hmark : BatchesKept s (s.poisonGranule granule) := .of_same rfl rfl
  unfold State.stackUe
  exact .ite _ (.refl s) (((hmark.trans (hquar _ _)).trans (hnote _)).trans (hslot _ _))

theorem BatchesKept.stkWrite (s : State) (a : Nat) (bs : Bytes) : BatchesKept s (s.stkWrite a bs) :=
  .of_same (State.stkWrite_regs _ _ _) rfl

theorem State.readError_batches (s : State) (granule : Nat) (finding : EccFinding) :
    BatchesKept s (s.readError granule finding) := by
  unfold State.readError
  refine .ite _ (.refl s) ?_
  cases finding with
  | clean => exact .refl s
  | correctable => exact s.stackCe_batches granule
  | uncorrectable => exact s.stackUe_batches granule
  | unnoticed d => exact .stkWrite s _ _
  | miscorrected d => exact (s.stackCe_batches granule).trans (.stkWrite _ _ _)

theorem State.stepReads_batches (s : State) (x : Nat) (step : Word) (mine : Nat → Bool) (reads : EccReads) :
    BatchesKept s (s.stepReads x step mine reads) := by
  refine .foldl _ (fun s r => .ite _ (.refl s) ((s.readError_batches r.1 r.2).trans ?_)) reads s
  split
  · exact .noteRetry _ _ _ _
  · exact .noteRetry _ _ _ _
  · exact .refl _

/-! ## Rows that enter slots (R200 to R205, R213 to R216) -/

theorem State.residueRetry_batches (s : State) (p : Slot) (slice n : Nat) : BatchesKept s (s.residueRetry p slice n) := by
  unfold State.residueRetry
  exact .ite _ (.refl s) ((((BatchesKept.setReg s _ (by decide)).trans (.setReg _ _ (by decide))).trans
    (State.noteCes_only _ _ _).batches).trans (.noteRetry _ _ _ _))

/-- A fault of a line that no lane has carried. -/
theorem State.lineFault_batches (s : State) (n : Nat) (p : Slot) (slice : Nat) (f : LineFault) :
    BatchesKept s (s.lineFault none n p slice f) := by
  have hdown (u : State) : BatchesKept u (u.sliceDown p slice) :=
    ((u.abortBound_batches _ _).trans (State.depart_batches _ _ _)).trans (.errBit _ _ _ (by decide))
  cases f with
  | residue k => exact .ite _ ((s.residueRetry_batches p slice 2).trans (hdown _)) (s.residueRetry_batches p slice k)
  | acc k e => exact .refl s
  | sliceCe => exact (s.noteCe_only _).batches.trans (.noteRetry _ _ _ _)
  | laneCe => exact .refl s
  | tallyUe =>
    exact ((s.raiseAt_only _ _).batches.trans (State.abortBound_batches _ _ _)).trans
      (State.noteUe_batches _ (Nat.le_add_right 248 slice))
  | queueUe => exact .refl s

theorem State.overrun_batches (s : State) (p : Slot) : BatchesKept s (s.overrun p) := by
  have herr : BatchesKept s (s.errBit aCarErr 0 cCarOverrun) := .errBit s _ _ (by decide)
  unfold State.overrun
  dsimp only
  cases (s.errBit aCarErr 0 cCarOverrun).stepOf p.ctx p.step with
  | none => exact herr
  | some t => exact herr.trans (State.abortStep_batches _ t 0x32)

theorem State.segIn_batches (s : State) (n i : Nat) (data : Option (List Int)) (finds : List (Nat × EccFinding)) :
    BatchesKept s (s.segIn n i data finds) := by
  unfold State.segIn
  split
  · exact .refl s
  · split
    · exact .refl s
    · exact (((BatchesKept.ite _ (s.stepReads_batches _ _ _ _) (.refl s)).trans (.ite _ (.stkWrite _ _ _) (.refl _))).trans
        (.setSlot _ _ _)).trans (.chargeStk _ _ _)

theorem State.flagTerms_batches (s : State) (n : Nat) (ts : Terms) : BatchesKept s (s.flagTerms n ts) := by
  have hovf (u : State) (x : Nat) (step : Word) : BatchesKept u (u.noteOvf x step) :=
    ((BatchesKept.setReg u _ (by decide)).trans (.modStep _ _ _ _)).trans
      (.ite _ (State.raise_only _ _).batches (.refl _))
  unfold State.flagTerms
  split
  · exact .refl s
  · exact (BatchesKept.setSlot s _ _).trans (.ite _ (hovf _ _ _) (.refl _))

theorem State.lineIn_batches (s : State) (back : Bool) (n : Nat) (tag : Slot) (ofs : Nat) (ts : Terms) (fs : List LineFault) :
    BatchesKept s (s.lineIn none back n tag ofs ts fs) := by
  unfold State.lineIn
  split
  · exact .refl s
  · next t ht =>
    have hfaults : BatchesKept s (fs.foldl (fun s f => s.lineFault none n tag (t.sliceAt n ofs) f) s) :=
      .foldl _ (fun s f => s.lineFault_batches n tag _ f) fs s
    dsimp only
    generalize fs.foldl (fun s f => s.lineFault none n tag (t.sliceAt n ofs) f) s = m at hfaults ⊢
    split
    · exact hfaults
    · have hflags : BatchesKept m ((if back then m.bump aCarCntLine else m).flagTerms n ts) :=
        (BatchesKept.ite _ (.setReg m _ (by decide)) (.refl m)).trans (State.flagTerms_batches _ n ts)
      exact hfaults.trans (.ite _ (.refl m) (.ite _ (m.overrun_batches _)
        (hflags.trans (.foldl _ (fun s _ => s.segIn_batches _ _ _ _) _ _))))

theorem State.rowIn_batches (s : State) (n : Nat) (p : Slot) (ps : List Num) (faults : LineFaults) :
    BatchesKept s (s.rowIn n p ps faults) := by
  have htook (u : State) : BatchesKept u (u.tookIn n) := by
    unfold State.tookIn
    split
    · exact .refl u
    · exact (BatchesKept.modStep u _ _ _).trans (.ite _ (.modStep _ _ _ _) (.refl _))
  exact .ite _ (s.overrun_batches p)
    ((BatchesKept.foldl _ (fun s _ => s.lineIn_batches _ _ _ _ _ _) _ s).trans (htook _))

end Sys2Proof.Machine
end

section
/-! Shadow batches form (R237), run and end (R238), or run again after a cube has failed (R77). -/

namespace Sys2Proof.Machine

/-! ## Forming a batch (R237, R503) -/

/-- Array work that becomes ready changes no more than its context's virtual time (R503). -/
theorem State.readied_eq (s old : State) (x : Nat) :
    s.readied old x = s ∨ ∃ v, s.readied old x = s.setReg (aCtxVtime x) v := by
  unfold State.readied State.raiseVtime
  split
  · split
    · exact .inl rfl
    · dsimp only
      split
      · exact .inr ⟨_, rfl⟩
      · exact .inl rfl
  · exact .inl rfl

/-- Of what a batch's forming speaks of, work that becomes ready changes the virtual time at most. -/
theorem State.readied_effect (s old : State) (x : Nat) :
    (s.readied old x).shd = s.shd ∧ (s.readied old x).rgm = s.rgm ∧ SameRegsBut [aCtxVtime x] s (s.readied old x) ∧
      SameMemory s (s.readied old x) := by
  obtain he | ⟨v, he⟩ := s.readied_eq old x
  · rw [he]
    exact ⟨rfl, rfl, fun _ _ => rfl, rfl, rfl, rfl, rfl, rfl⟩
  · rw [he]
    exact ⟨rfl, rfl, fun a ha => s.reg_setReg_other v (List.ne_of_not_mem_cons ha), rfl, rfl, rfl, rfl, rfl⟩

/-- What a formed batch leaves: it stands last among its partition's, and its choices are off their queue. -/
def State.BatchFormed (s : State) (x e : Nat) (t : Step) (g : Group) (q : List ShadowWait) (u : State) : Prop :=
  (∃ b : ShadowBatch, tabGet [] u.shd.formed t.part = tabGet [] s.shd.formed t.part ++ [b] ∧ b.ctx = x ∧ b.expert = e ∧
    b.layer = g.layer ∧ b.toks = q.take 4096) ∧
  StepHas u x t.desc.step (fun v => ∃ h, v.group = some h ∧ tabGet [] h.shadowQ e = q.drop 4096) ∧
  SameRegsBut [aCtxVtime x] s u ∧ SameMemory s u

section Forming

variable {s : State} {x e : Nat} {t : Step} {g : Group} {w : ShadowWait} {rest : List ShadowWait}

theorem State.formBatch_forms (ht : s.worker x = some t) (hg : t.group = some g) :
    s.BatchFormed x e t g (tabGet [] g.shadowQ e) (s.formBatch t g e) := by
  obtain ⟨hmem, hx, -⟩ := State.worker_some ht
  subst hx
  have hqueue : StepHas (s.modGroup t.desc.ctx t.desc.step g.layer (fun h =>
      { h with shadowQ := tabSet [] h.shadowQ e ((tabGet [] g.shadowQ e).drop 4096) })) t.desc.ctx t.desc.step
        (Step.GroupHas fun h => tabGet [] h.shadowQ e = (tabGet [] g.shadowQ e).drop 4096) :=
    (stepHas_of_mem hmem rfl ⟨g, hg, rfl⟩ : StepHas s _ _ (Step.GroupHas (· = g))).modGroup
      (fun _ h => h ▸ rfl) (fun _ _ => tabGet_tabSet_same [] _ e _)
  unfold State.formBatch
  dsimp only
  generalize hm : State.modGroup s _ _ _ _ = m at hqueue ⊢
  obtain ⟨hshd, hrgm, hregs, hmemory⟩ := State.readied_effect { m with shd := { m.shd with
    formed := tabSet [] m.shd.formed t.part (tabGet [] m.shd.formed t.part ++
      [{ ctx := t.desc.ctx, step := t.desc.step, layer := g.layer, expert := e, toks := (tabGet [] g.shadowQ e).take 4096 }]) } }
    s t.desc.ctx
  refine ⟨⟨{ ctx := t.desc.ctx, step := t.desc.step, layer := g.layer, expert := e, toks := (tabGet [] g.shadowQ e).take 4096 },
    ?_, rfl, rfl, rfl, rfl⟩, ?_, ?_, ?_⟩
  · rw [hshd, tabGet_tabSet_same, ← hm]
    rfl
  · unfold StepHas
    rw [hrgm]
    exact hqueue
  · subst hm
    exact hregs
  · subst hm
    exact hmemory

theorem shadowBatchForm_completes (ht : s.worker x = some t) (hg : t.group = some g) (hq : tabGet [] g.shadowQ e = w :: rest)
    (hdue : s.f aShdCfg 12 0 ≤ (w :: rest).length ∨ g.allQueued e = true ∨ s.guarded t = true) :
    Completes (.shadowBatchForm x e) s (s.BatchFormed x e t g (w :: rest)) := by
  have hgo : (decide (s.f aShdCfg 12 0 ≤ (w :: rest).length) || g.allQueued e || s.guarded t) = true := by
    simpa [or_assoc] using hdue
  have hexec : exec (.shadowBatchForm x e) s = execShadowBatchForm x e s := rfl
  refine ⟨s.formBatch t g e, ?_, hq ▸ State.formBatch_forms ht hg⟩
  simp only [hexec, execShadowBatchForm, ht, hg, hq, hgo, List.isEmpty_cons, Bool.not_false, Bool.and_true, if_true]

theorem shadowWaitExpire_completes (ht : s.worker x = some t) (hg : t.group = some g)
    (hq : tabGet [] g.shadowQ e = w :: rest) (hdue : w.since + s.f aShdCfg 31 16 * 100 ≤ s.tclk) :
    Completes (.shadowWaitExpire x e) s (s.BatchFormed x e t g (w :: rest)) := by
  have hexec : exec (.shadowWaitExpire x e) s = execShadowWaitExpire x e s := rfl
  refine ⟨s.formBatch t g e, ?_, hq ▸ State.formBatch_forms ht hg⟩
  simp only [hexec, execShadowWaitExpire, ht, hg, hq, decide_eq_true hdue, if_true]

end Forming

/-! ## Running it (R238) -/

theorem shadowBatchRun_completes {s : State} {p : Nat} {b : ShadowBatch}
    (hb : nextBatch ((tabGet [] s.shd.formed p).filter (fun b => !s.parkDue b.ctx)) = some b) (hbusy : s.arrayBusy p = false)
    (hin : s.groupsIn p ≠ []) (hh : s.halted = false) : Completes (.shadowBatchRun p) s (fun u =>
      tabFind u.shd.running p = some b ∧ tabGet [] u.shd.formed p = (tabGet [] s.shd.formed p).erase b ∧
      SameRegsBut [] s u ∧ SameMemory s u) := by
  have hempty : (s.groupsIn p).isEmpty = false := by simpa using hin
  have hexec : exec (.shadowBatchRun p) s = execShadowBatchRun p s := rfl
  simp only [execShadowBatchRun, hb, hbusy, hempty, hh, Bool.or_self, Bool.false_eq_true, if_false] at hexec
  exact ⟨_, hexec, tabFind_tabPut_same _ p b, tabGet_tabSet_same [] _ p _, fun _ _ => rfl, rfl, rfl, rfl, rfl, rfl⟩

/-! ## Its end (R234, R235, R263, R589) -/

/-- The state in which a batch has ended and been counted, with none of its rows entered yet. -/
def State.batchCounted (s : State) (p : Nat) (b : ShadowBatch) : State :=
  (({ s with shd := { s.shd with running := tabErase s.shd.running p } } : State).bump aShdCntBatch).addCtr aShdCntToken
    b.toks.length

theorem State.shadowIn_batches (s : State) (b : ShadowBatch) (t : Step) (g : Group) (q : ShadowPos) (w : ShadowWait)
    (faults : LineFaults) : BatchesKept s (s.shadowIn b t g q w faults) := by
  unfold State.shadowIn
  split
  · exact .refl s
  · exact .ite _ (.refl s) ((BatchesKept.setSlot s _ _).trans (State.rowIn_batches _ _ _ _ _))

theorem State.arrayRetry_batches (s : State) (x : Nat) (step : Word) (cube n : Nat) :
    BatchesKept s (s.arrayRetry x step cube n) := by
  unfold State.arrayRetry
  exact .ite _ (.refl s) (((BatchesKept.setReg s _ (by decide)).trans (State.noteCes_only _ _ _).batches).trans
    (.noteRetry _ _ _ _))

theorem State.chargeStep_batches (s : State) (t : Step) (prior cycles : Nat) : BatchesKept s (s.chargeStep t prior cycles) :=
  ((BatchesKept.accAdd s _ (by unfold aAccCycles; omega)).trans
    (.setReg _ _ (.inl (by unfold aCtxVtime; omega)))).trans (.modStep _ _ _ _)

/-- The number of failures that SCORE_TILE_DONE's operand gives a cube of the partition's groups. -/
theorem failures_eq_three_iff {l : List Nat} {cubes : Nat} :
    ((if l.contains (cubes / 4 % 128 / 4) then cubes % 4 else 0) == 3) = true ↔
      cubes % 4 = 3 ∧ l.contains (cubes / 4 % 128 / 4) = true := by
  rw [beq_iff_eq]
  split
  · next h => simp only [h, and_true]
  · next h => simp only [h, and_false, iff_false, Bool.false_eq_true]; decide

/-- A batch that no cube fails is counted; what its rows then do keeps the counts and starts no batch. -/
theorem execShadowBatchDone_ends {s : State} {p cubes : Nat} {b : ShadowBatch} (reads : EccReads) (faults : List LineFaults)
    (hb : tabFind s.shd.running p = some b)
    (hout : ¬ (cubes % 4 = 3 ∧ (s.groupsIn p).contains (cubes / 4 % 128 / 4) = true)) :
    ∃ m u, BatchesKept s m ∧ execShadowBatchDone p cubes reads faults s = .next u ∧
      BatchesKept (m.batchCounted p b) u := by
  have hn := Bool.eq_false_iff.2 (mt failures_eq_three_iff.1 hout)
  unfold execShadowBatchDone
  rw [hb]
  dsimp only
  rw [hn, if_neg Bool.false_ne_true]
  generalize (if (s.groupsIn p).contains (cubes / 4 % 128 / 4) = true then cubes % 4 else 0) = n
  refine ⟨s.arrayRetry b.ctx b.step (cubes / 4 % 128) n, ?_⟩
  have hm := s.arrayRetry_batches b.ctx b.step (cubes / 4 % 128) n
  generalize s.arrayRetry b.ctx b.step (cubes / 4 % 128) n = m at hm ⊢
  split
  · exact ⟨_, hm, rfl, .refl _⟩
  · next t g hstep =>
    split
    · exact ⟨_, hm, rfl, .refl _⟩
    · next q hq =>
      have hcharge (u : State) (c : Prop) [Decidable c] (k : Nat) :
          BatchesKept u (if c then u.chargeStk b.ctx k else u.chargeHbm b.ctx k) := .ite c (.chargeStk u _ k) (.chargeHbm u _ k)
      have hrows (u : State) : BatchesKept u
          (b.toks.zipIdx.foldl (fun s w => s.shadowIn b t g q w.1 (faults.getD w.2 [])) u) :=
        .foldl _ (fun s _ => s.shadowIn_batches _ _ _ _ _ _) _ u
      exact ⟨_, hm, rfl, (((((BatchesKept.chargeHbm (m.batchCounted p b) _ _).trans (hcharge _ _ _)).trans
        (State.chargeStep_batches _ t _ _)).trans (.setReg (a := aScaCntStep) _ _ (by decide))).trans
          (State.stepReads_batches _ _ _ _ _)).trans (hrows _)⟩

theorem shadowBatchDone_counts {s : State} {p cubes : Nat} {b : ShadowBatch} (reads : EccReads) (faults : List LineFaults)
    (hb : tabFind s.shd.running p = some b)
    (hout : ¬ (cubes % 4 = 3 ∧ (s.groupsIn p).contains (cubes / 4 % 128 / 4) = true)) :
    Completes (.shadowBatchDone p cubes reads faults) s (fun u =>
      tabFind u.shd.running p = none ∧ u.reg aShdCntBatch = s.reg aShdCntBatch + 1 ∧
      u.reg aShdCntToken = s.reg aShdCntToken + word b.toks.length) := by
  obtain ⟨m, u, hm, hexec, hu⟩ := execShadowBatchDone_ends reads faults hb hout
  refine ⟨u, hexec, ?_, ?_, ?_⟩
  · rw [hu.running]
    exact tabFind_tabErase_same m.shd.running p
  · rw [hu.regs aShdCntBatch (by decide) (by decide), ← hm.regs aShdCntBatch (by decide) (by decide)]
    exact (State.reg_addCtr_other _ _ (by decide)).trans (State.reg_bump_same _ _)
  · rw [hu.regs aShdCntToken (by decide) (by decide), ← hm.regs aShdCntToken (by decide) (by decide)]
    exact (State.reg_addCtr_same _ _ _).trans (congrArg (· + word b.toks.length) (State.reg_bump_other _ (by decide)))

/-! ## Another run of it (R77, R590) -/

/-- A cube's failure counts a rerun, and leaves the batch where it runs, or first among those that wait. -/
theorem State.batchRerun_effect (s : State) (p : Nat) (b : ShadowBatch) (cube : Nat) :
    ∃ m, Incidental ((s.cubeDown b.ctx b.step cube).bump aScaCntRerun) m ∧ BatchesKept s m ∧
      s.batchRerun p b cube = if (m.groupsIn p).isEmpty then
        { m with shd := { m.shd with
          running := tabErase m.shd.running p, formed := tabPut m.shd.formed p (b :: tabGet [] m.shd.formed p) } } else m := by
  have hspare (u : State) : BatchesKept u (u.spareOrRetire cube) := by
    unfold State.spareOrRetire
    exact .ite _ (.ite _ (.refl u) (u.retire_batches _ _)) ((BatchesKept.setReg u _ (by decide)).trans
      (.ite _ (.refl _) (.setMgt _ _)))
  have hdown : BatchesKept s (s.cubeDown b.ctx b.step cube) :=
    (((s.arrayRetry_batches _ _ _ _).trans (State.depart_batches _ _ _)).trans (State.raiseAt_only _ _ _).batches).trans
      (hspare _)
  have hcharge (u : State) (o : Option Step) : Incidental u (o.elim u (fun t => u.chargeStep t 0 96)) ∧
      BatchesKept u (o.elim u (fun t => u.chargeStep t 0 96)) := by
    cases o with
    | none => exact ⟨.refl u, .refl u⟩
    | some t => exact ⟨u.chargeStep_incidental t 0 96, u.chargeStep_batches t 0 96⟩
  exact ⟨_, (Incidental.noteRetry _ _ _ _).trans (hcharge _ _).1,
    ((hdown.trans (.setReg _ _ (by decide))).trans (.noteRetry _ _ _ _)).trans (hcharge _ _).2, rfl⟩

theorem shadowBatchDone_reruns {s : State} {p cubes : Nat} {b : ShadowBatch} (reads : EccReads) (faults : List LineFaults)
    (hb : tabFind s.shd.running p = some b)
    (hout : cubes % 4 = 3 ∧ (s.groupsIn p).contains (cubes / 4 % 128 / 4) = true) :
    Completes (.shadowBatchDone p cubes reads faults) s (fun u =>
      u.reg aScaCntRerun = s.reg aScaCntRerun + 1 ∧ u.reg aShdCntBatch = s.reg aShdCntBatch ∧
      (tabFind u.shd.running p = some b ∨ b ∈ tabGet [] u.shd.formed p)) := by
  have hexec : exec (.shadowBatchDone p cubes reads faults) s = .next (s.batchRerun p b (cubes / 4 % 128)) := by
    have h : exec (.shadowBatchDone p cubes reads faults) s = execShadowBatchDone p cubes reads faults s := rfl
    simp only [h, execShadowBatchDone, hb, failures_eq_three_iff.2 hout, if_true]
  obtain ⟨m, hinc, hkept, he⟩ := s.batchRerun_effect p b (cubes / 4 % 128)
  have hrerun : m.reg aScaCntRerun = s.reg aScaCntRerun + 1 := by
    rw [hinc.regs aScaCntRerun (by decide), State.reg_bump_same,
      (s.cubeDown_incidental b.ctx b.step (cubes / 4 % 128)).regs aScaCntRerun (by decide), State.reg_addCtr_other _ _ (by decide)]
  have hbatch := hkept.regs aShdCntBatch (by decide) (by decide)
  refine ⟨_, hexec, ?_⟩
  rw [he]
  split
  · exact ⟨hrerun, hbatch, .inr (tabGet_tabPut_same [] m.shd.formed p _ ▸ List.mem_cons_self)⟩
  · exact ⟨hrerun, hbatch, .inl (hkept.running ▸ hb)⟩

end Sys2Proof.Machine
end

section
/-! The deadline monitor's evaluation (R248 to R258): every step it evaluates gets its slack and level, and all else that an
evaluation does leaves the slacks, the levels and the deadlines. -/

namespace Sys2Proof.Machine

/-! ## What is kept -/

/-- What names a step, and what an evaluation sets in it. -/
def Step.rating (t : Step) : Desc × Option Int × Nat := (t.desc, t.slack, t.level)

/-- The steps keep their slack and level, and the monitor what it holds. -/
structure RatingsKept (s t : State) : Prop where
  ratings : t.rgm.steps.map Step.rating = s.rgm.steps.map Step.rating
  dlm : t.dlm = s.dlm

namespace RatingsKept

theorem refl (s : State) : RatingsKept s s := ⟨rfl, rfl⟩

theorem trans {s t u : State} (h : RatingsKept s t) (k : RatingsKept t u) : RatingsKept s u :=
  ⟨k.ratings.trans h.ratings, k.dlm.trans h.dlm⟩

theorem foldl {α : Type} (f : State → α → State) (h : ∀ s a, RatingsKept s (f s a)) (l : List α) (s : State) :
    RatingsKept s (l.foldl f s) := by
  induction l generalizing s with
  | nil => exact .refl s
  | cons a l ih => exact (h s a).trans (ih _)

theorem ite {s t u : State} (c : Prop) [Decidable c] (ht : RatingsKept s t) (hu : RatingsKept s u) :
    RatingsKept s (if c then t else u) := by
  split
  · exact ht
  · exact hu

/-- Changes outside the steps and the monitor. -/
theorem of_same {s t : State} (hm : t.rgm = s.rgm) (hd : t.dlm = s.dlm) : RatingsKept s t := ⟨by rw [hm], hd⟩

theorem modStep (s : State) (x : Nat) (step : Word) {f : Step → Step} (h : ∀ t, (f t).rating = t.rating) :
    RatingsKept s (s.modStep x step f) := by
  refine ⟨?_, rfl⟩
  simp only [State.modStep, List.map_map]
  refine List.map_congr_left fun t _ => ?_
  simp only [Function.comp_apply]
  split
  · exact h t
  · rfl

theorem modGroup (s : State) (x : Nat) (step : Word) (layer : Nat) (f : Group → Group) :
    RatingsKept s (s.modGroup x step layer f) := .modStep s x step fun _ => rfl

theorem setSlot (s : State) (n : Nat) (p : Slot) : RatingsKept s (s.setSlot n p) := .of_same rfl rfl

theorem names {s t : State} (h : RatingsKept s t) : SameNames s t := by
  have hd := congrArg (List.map (fun r : Desc × Option Int × Nat => r.1)) h.ratings
  rw [List.map_map, List.map_map] at hd
  exact hd

end RatingsKept

/-- What ratings tell of a step outlasts changes that keep them. -/
theorem StepHas.ratings {s t : State} {x : Nat} {step : Word} {P : Step → Prop} (h : StepHas s x step P)
    (k : RatingsKept s t) (hq : ∀ w v, v.rating = w.rating → P w → P v) : StepHas t x step P := by
  obtain ⟨u, hu, hi, hp⟩ := h
  have hm : u.rating ∈ t.rgm.steps.map Step.rating := k.ratings ▸ List.mem_map_of_mem hu
  obtain ⟨v, hv, he⟩ := List.mem_map.1 hm
  have hd : v.desc = u.desc := congrArg Prod.fst he
  exact ⟨v, hv, by rwa [Step.is, hd], hq u v he hp⟩

/-! ## What a level does to dispatched work (R255 to R257) -/

theorem State.voidAll_ratings (s : State) (f : DPkt → Bool) : RatingsKept s (s.voidAll f) := by
  refine .of_same (s.voidAll_rgm f) (foldl_keeps State.dlm (fun s n => ?_) _ s)
  unfold State.voidOn
  dsimp only
  split <;> rfl

theorem State.timingChoice_ratings (s : State) (x : Nat) (step : Word) : RatingsKept s (s.timingChoice x step) :=
  (RatingsKept.of_same (State.accAdd_rgm s _ _ _) (State.accAdd_dlm s _ _ _)).trans (.modStep _ _ _ fun _ => rfl)

theorem State.moveLate_ratings (s : State) (x : Nat) (step : Word) (layer n : Nat) (p : Slot) (c : SlotChoice) :
    RatingsKept s (s.moveLate x step layer n p c) := by
  have hbump (u : State) : RatingsKept u (u.bump aShdCntLate) := .of_same rfl rfl
  exact ((((s.voidAll_ratings _).trans (.modGroup _ _ _ _ _)).trans (.setSlot _ _ _)).trans (hbump _)).trans
    (State.timingChoice_ratings _ _ _)

theorem State.moveAll_ratings (s : State) (t : Step) (g : Group) : RatingsKept s (s.moveAll t g) :=
  .foldl _ (fun s _ => .foldl _ (fun s _ => s.moveLate_ratings _ _ _ _ _ _) _ s) _ s

theorem State.writeFlag_ratings (s : State) (t : Step) (g : Group) (index : Nat) (f : FlagBits) :
    RatingsKept s (s.writeFlag t g index f) := by
  unfold State.writeFlag
  split
  · exact .refl s
  · exact .of_same (State.chargeHbm_rgm _ _ _) (State.chargeHbm_dlm _ _ _)

theorem State.forceExit_ratings (s : State) (t : Step) (g : Group) (n : Nat) (p : Slot) :
    RatingsKept s (s.forceExit t g n p) := by
  have hslots (u : State) (c : Car) : RatingsKept u { u with car := c } := .of_same rfl rfl
  exact ((((s.voidAll_ratings _).trans (hslots _ _)).trans (State.writeFlag_ratings _ t g p.index _)).trans
    (.modGroup _ _ _ _ _)).trans (.modStep _ _ _ fun _ => rfl)

theorem State.forceAll_ratings (s : State) (t : Step) (g : Group) : RatingsKept s (s.forceAll t g) :=
  .foldl _ (fun s _ => s.forceExit_ratings _ _ _ _) _ s

/-! ## One step's evaluation (R248, R249) -/

/-- A step with a slack and a level. -/
def Step.rate (slack : Int) (level : Nat) (t : Step) : Step := { t with slack := some slack, level := level }

/-- A step has a slack and a level. -/
def Step.Rated (slack : Int) (level : Nat) (t : Step) : Prop := t.slack = some slack ∧ t.level = level

theorem Step.Rated.of_rating {slack : Int} {level : Nat} (w v : Step) (he : v.rating = w.rating) (h : w.Rated slack level) :
    v.Rated slack level := by
  simp only [Step.rating, Prod.mk.injEq] at he
  obtain ⟨-, hslack, hlevel⟩ := he
  exact ⟨hslack.trans h.1, hlevel.trans h.2⟩

/-- The level of a step after an evaluation with a slack. -/
def Step.levelAt (t : Step) (slack : Int) : Nat := max t.level (levelFor t.thr.toNat slack)

/-- Of the steps, an evaluation rates those of its name, and no more. -/
theorem State.evalStep_ratings (s : State) (t : Step) (now : Nat) (d : Int) :
    RatingsKept (s.modStep t.desc.ctx t.desc.step (Step.rate (t.slackAt now d) (t.levelAt (t.slackAt now d))))
      (s.evalStep t now d) := by
  have hrise (u : State) (c k : Prop) [Decidable c] [Decidable k] : RatingsKept u (if c then u else
      let v := (u.bump aDlmCntEsc).timingChoice t.desc.ctx t.desc.step
      if k then v.raise cDlmEscalate else v) := by
    have hbump : RatingsKept u (u.bump aDlmCntEsc) := .of_same rfl rfl
    exact .ite _ (.refl u) ((hbump.trans (State.timingChoice_ratings _ _ _)).trans
      (.ite _ (.of_same (State.raise_rgm _ _) (State.raise_dlm _ _)) (.refl _)))
  unfold State.evalStep
  dsimp only
  split
  · exact hrise _ _ _
  · next g hg =>
    exact (hrise _ _ _).trans ((RatingsKept.ite _ (State.forceAll_ratings _ t g) (.refl _)).trans
      (.ite _ (State.moveAll_ratings _ t g) (.refl _)))

/-- The evaluation of a step, where it has a deadline. -/
def State.evalIn (now : Nat) (s : State) (t : Step) : State :=
  match s.deadline t with
  | some d => s.evalStep t now d
  | none => s

theorem State.evalIn_some {s : State} {t : Step} {d : Int} (now : Nat) (h : s.deadline t = some d) :
    s.evalIn now t = s.evalStep t now d := by rw [State.evalIn, h]

theorem State.evalIn_names (s : State) (now : Nat) (t : Step) : SameNames s (s.evalIn now t) := by
  unfold State.evalIn
  split
  · exact (SameNames.modStep s _ _ (f := Step.rate _ _) fun _ => rfl).trans (s.evalStep_ratings _ _ _).names
  · exact .refl s

theorem State.evalIn_dlm (s : State) (now : Nat) (t : Step) : (s.evalIn now t).dlm = s.dlm := by
  unfold State.evalIn
  split
  · exact (s.evalStep_ratings _ _ _).dlm
  · rfl

theorem State.deadline_congr {s t : State} (h : t.dlm = s.dlm) (u : Step) : t.deadline u = s.deadline u := by
  unfold State.deadline
  rw [h]

/-- A change of the steps of one name leaves those of another. -/
theorem StepHas.modStep_other {s : State} {x y : Nat} {step other : Word} {P : Step → Prop} {f : Step → Step}
    (h : StepHas s x step P) (hne : (y, other) ≠ (x, step)) : StepHas (s.modStep y other f) x step P := by
  obtain ⟨u, hu, hi, hp⟩ := h
  have hnot : ¬ u.is y other = true := fun hy => by
    obtain ⟨rfl, rfl⟩ := Step.is_iff.1 hy
    obtain ⟨rfl, rfl⟩ := Step.is_iff.1 hi
    exact hne rfl
  exact ⟨u, List.mem_map.2 ⟨u, hu, if_neg hnot⟩, hi, hp⟩

/-! ## All of them (R248, R252) -/

/-- The name of a step. -/
def Step.name (t : Step) : Nat × Word := (t.desc.ctx, t.desc.step)

theorem State.evalIn_rates {s : State} {t : Step} {d : Int} (now : Nat) (hd : s.deadline t = some d)
    (hw : ∃ w ∈ s.rgm.steps, w.is t.desc.ctx t.desc.step = true) :
    StepHas (s.evalIn now t) t.desc.ctx t.desc.step (Step.Rated (t.slackAt now d) (t.levelAt (t.slackAt now d))) := by
  rw [State.evalIn_some now hd]
  obtain ⟨w, hw, hi⟩ := hw
  have hset (slack : Int) (level : Nat) : StepHas (s.modStep t.desc.ctx t.desc.step (Step.rate slack level)) t.desc.ctx
      t.desc.step (Step.Rated slack level) :=
    StepHas.modStep (P := fun _ => True) ⟨w, hw, hi, trivial⟩ (fun _ => rfl) fun _ _ => ⟨rfl, rfl⟩
  exact (hset _ _).ratings (s.evalStep_ratings t now d) Step.Rated.of_rating

/-- Evaluations of other steps leave a step's slack and level. -/
theorem State.evals_keep_rated {now level x : Nat} {step : Word} {slack : Int} (l : List Step) (s : State)
    (hl : (x, step) ∉ l.map Step.name) (h : StepHas s x step (Step.Rated slack level)) :
    StepHas (l.foldl (State.evalIn now) s) x step (Step.Rated slack level) := by
  induction l generalizing s with
  | nil => exact h
  | cons a l ih =>
    rw [List.map_cons, List.mem_cons, not_or] at hl
    obtain ⟨hne, hl⟩ := hl
    refine ih _ hl ?_
    unfold State.evalIn
    split
    · exact (h.modStep_other (Ne.symm hne)).ratings (s.evalStep_ratings _ _ _) Step.Rated.of_rating
    · exact h

/-- Evaluations of steps of different names rate each of them that has a deadline. -/
theorem State.evals_rate {now : Nat} {t : Step} {d : Int} (l : List Step) (s : State) (hn : (l.map Step.name).Nodup)
    (ht : t ∈ l) (hd : s.deadline t = some d) (hw : ∃ w ∈ s.rgm.steps, w.is t.desc.ctx t.desc.step = true) :
    StepHas (l.foldl (State.evalIn now) s) t.desc.ctx t.desc.step
      (Step.Rated (t.slackAt now d) (t.levelAt (t.slackAt now d))) := by
  induction l generalizing s with
  | nil => cases ht
  | cons a l ih =>
    rw [List.map_cons, List.nodup_cons] at hn
    obtain ⟨hnew, hn⟩ := hn
    obtain rfl | ht := List.mem_cons.1 ht
    · exact State.evals_keep_rated l _ hnew (State.evalIn_rates now hd hw)
    · exact ih _ hn ht ((State.deadline_congr (s.evalIn_dlm now a) t).trans hd) ((s.evalIn_names now a).listed hw)

/-- The steps that an evaluation takes up: admitted steps of Serve contexts that are not being aborted. -/
def State.evaluated (s : State) : List Step :=
  s.rgm.steps.filter (fun t => t.phase != .queued && t.abort == 0 && s.profile t.desc.ctx == 1)

theorem execDeadlineEval_evaluates {s : State} (hen : s.flag aDlmCtrl 0 = true) (hh : s.halted = false)
    (hnow : s.dlm.lastEval < s.tb / 2000 * 2000) :
    execDeadlineEval s = .next (s.evaluated.foldl (State.evalIn (s.tb / 2000 * 2000))
      { s with dlm := { s.dlm with lastEval := s.tb / 2000 * 2000 } }) := by
  simp only [execDeadlineEval, hen, hh, decide_eq_false (Nat.not_le.2 hnow), Bool.not_true, Bool.or_self, Bool.false_eq_true,
    if_false]
  rfl

theorem deadlineEval_completes {s : State} (hen : s.flag aDlmCtrl 0 = true) (hh : s.halted = false)
    (hnow : s.dlm.lastEval < s.tb / 2000 * 2000) (hn : (s.rgm.steps.map (fun t => (t.desc.ctx, t.desc.step))).Nodup) :
    Completes .deadlineEval s (fun u => u.dlm.lastEval = s.tb / 2000 * 2000 ∧
      ∀ t ∈ s.rgm.steps, t.phase ≠ .queued → t.abort = 0 → s.profile t.desc.ctx = 1 → ∀ d, s.deadline t = some d →
        StepHas u t.desc.ctx t.desc.step
          (Step.Rated (t.slackAt (s.tb / 2000 * 2000) d) (t.levelAt (t.slackAt (s.tb / 2000 * 2000) d)))) := by
  refine ⟨_, execDeadlineEval_evaluates hen hh hnow, ?_, fun t ht hp ha hs d hd => ?_⟩
  · rw [foldl_keeps State.dlm fun s t => s.evalIn_dlm _ t]
  · have hmem : t ∈ s.evaluated := List.mem_filter.2 ⟨ht, by simp [hp, ha, hs]⟩
    have hnames : (s.evaluated.map Step.name).Nodup := hn.sublist (List.filter_sublist.map Step.name)
    exact State.evals_rate s.evaluated _ hnames hmem hd ⟨t, ht, t.is_self⟩

end Sys2Proof.Machine
end

section
/-! Codec status words and silent streams (R242 to R247); then the obligation of shadows and deadlines. -/

namespace Sys2Proof.Machine

/-! ## Codec status words (R242 to R245) -/

theorem mem_holdDeadline (l : List SliceDl) (d : SliceDl) : d ∈ holdDeadline l d :=
  List.mem_append_right _ (List.mem_singleton_self d)

section Words

variable {s : State} {w : Word}

theorem codecStatusWord_completes_held (hh : s.halted = false) (hv : fld w.toNat 31 29 = 0)
    (hm : bitAt w.toNat 28 = s.flag aDlmCtrl 1) : Completes (.codecStatusWord w) s (fun u =>
      u.reg aDlmCntWord = s.reg aDlmCntWord + 1 ∧ tabFind u.dlm.last (fld w.toNat 11 0) = some s.tb ∧
      (∃ d ∈ u.dlm.held, d.stream = fld w.toNat 11 0 ∧ d.slice = fld w.toNat 27 12 ∧
        d.deadline = (s.tb : Int) + fld w.toNat 55 32 * 1000 - s.f aDlmCtrl 63 48 * 1000) ∧
      SameRegsBut [aDlmCntWord] s u ∧ SameMemory s u) := by
  have hexec : exec (.codecStatusWord w) s = execCodecStatusWord w s := rfl
  simp only [execCodecStatusWord, hh, hv, hm, bne_self_eq_false, Bool.or_self, Bool.false_eq_true, if_false] at hexec
  exact ⟨_, hexec, State.reg_bump_same _ _, tabFind_tabPut_same _ _ _, ⟨_, mem_holdDeadline _ _, rfl, rfl, rfl⟩,
    fun a ha => State.reg_bump_other _ (List.ne_of_not_mem_cons ha), rfl, rfl, rfl, rfl, rfl⟩

theorem codecStatusWord_completes_discarded (hh : s.halted = false)
    (hv : fld w.toNat 31 29 ≠ 0 ∨ bitAt w.toNat 28 ≠ s.flag aDlmCtrl 1) : Completes (.codecStatusWord w) s (fun u =>
      u.flag aDlmErr 0 = true ∧ u.dlm = s.dlm ∧ SameMemory s u) := by
  have hbad : (fld w.toNat 31 29 != 0 || bitAt w.toNat 28 != s.flag aDlmCtrl 1) = true := by simpa using hv
  have hexec : exec (.codecStatusWord w) s = execCodecStatusWord w s := rfl
  simp only [execCodecStatusWord, hh, hbad, Bool.false_eq_true, if_false, if_true] at hexec
  exact ⟨_, hexec, s.flag_errBit 0 _ (by decide) (by decide), s.errBit_dlm _ _ _, by simp [SameMemory]⟩

end Words

/-! ## Silent streams (R247) -/

theorem mem_setInsert_self (l : List Nat) (i : Nat) : i ∈ setInsert l i := by
  induction l with
  | nil => exact List.mem_singleton_self i
  | cons j l ih =>
    unfold setInsert
    split
    · exact List.mem_cons_of_mem j ih
    · split
      · next h => exact beq_iff_eq.1 h ▸ List.mem_cons_self
      · exact List.mem_cons_self

theorem codecSilence_completes {s : State} {c : Nat} (hh : s.halted = false) (hc : c ≠ 0xFFFF) (hnew : c ∉ s.dlm.silent)
    (hfeeds : s.rgm.steps.any (fun t => t.phase != .queued && t.seqs.any (fun e => e.2.stream == c)) = true)
    (hlong : tabGet 0 s.dlm.last c + s.f aDlmCtrl 47 32 * 1000 ≤ s.tb) : Completes (.codecSilence c) s (fun u =>
      c ∈ u.dlm.silent ∧ u.flag aDlmErr 1 = true ∧ SameMemory s u) := by
  have hexec : exec (.codecSilence c) s = execCodecSilence c s := rfl
  simp only [execCodecSilence, hh, beq_false_of_ne hc, hfeeds, List.contains_eq_mem, decide_eq_false hnew,
    decide_eq_false (Nat.not_lt.2 hlong), Bool.not_true, Bool.or_self, Bool.false_eq_true, if_false] at hexec
  refine ⟨_, hexec, ?_, State.flag_errBit _ 1 _ (by decide) (by decide), by simp [SameMemory]⟩
  rw [State.errBit_dlm]
  exact mem_setInsert_self _ c

/-! ## The obligation -/

/-- Settles O54: the end of a batch is counted before its rows enter, and what enters leaves the counts; evaluations of other
steps leave a step's slack and level. -/
theorem shadowsAndDeadlines : Obligations.ShadowsAndDeadlines := by
  intro s
  refine ⟨fun x e t g w rest ht hg hq => ⟨shadowBatchForm_completes ht hg hq, shadowWaitExpire_completes ht hg hq⟩,
    fun p b => shadowBatchRun_completes, fun p b cubes reads faults hb => ⟨?_, ?_⟩, fun w hh => ⟨?_, ?_⟩,
    fun c => codecSilence_completes, deadlineEval_completes⟩
  · exact shadowBatchDone_counts reads faults hb
  · exact shadowBatchDone_reruns reads faults hb
  · exact codecStatusWord_completes_held hh
  · exact codecStatusWord_completes_discarded hh

end Sys2Proof.Machine
end

section
/-! Doorbells (R287 to R290, R736): the step that an accepted one queues, and what a refused one shows. -/

namespace Sys2Proof.Machine

/-! ## What leaves the port answering -/

/-- A register outside PWR leaves whether anything answers. -/
theorem State.dark_of_setReg (s : State) {a : Nat} (v : Word) (h : a < 0x3000 ∨ 0x4000 ≤ a) :
    (s.setReg a v).dark = s.dark :=
  State.dark_setReg s v (by unfold aPwrState; omega) (by unfold aPwrBoot; omega)

/-! ## Refusals (R289, R308) -/

/-- A refused doorbell shows its code, is counted, and changes nothing else. -/
theorem State.refuseDb_effect (s : State) (p : Nat) {code : Nat} (hc : code < 256) (hd : s.dark = false) :
    (s.refuseDb p code).rgm = s.rgm ∧ (s.refuseDb p code).f (aDbStat p) 15 8 = code ∧
      (s.refuseDb p code).reg aRgmCntRefuse = s.reg aRgmCntRefuse + 1 ∧
      SameRegsBut [aDbStat p, aRgmCntRefuse] s (s.refuseDb p code) ∧ SameMemory s (s.refuseDb p code) ∧
      (s.refuseDb p code).outcome = 2 := by
  have hne : aDbStat p ≠ aRgmCntRefuse := by unfold aDbStat aRgmCntRefuse; omega
  have hdark : ((s.setF (aDbStat p) 15 8 code).bump aRgmCntRefuse).dark = false :=
    (State.dark_of_setReg _ _ (by decide)).trans ((s.dark_of_setReg _ (by unfold aDbStat; omega)).trans hd)
  unfold State.refuseDb
  refine ⟨by simp, ?_, ?_, fun a ha => ?_, by simp [SameMemory], State.outcome_refuse _ hdark⟩
  · rw [State.f_refuse, State.f_congr (State.reg_bump_other _ hne), s.f_setF_same _ 15 8 _ (by decide) (by decide)]
    exact Nat.mod_eq_of_lt hc
  · rw [State.reg_refuse, State.reg_bump_same, s.reg_setF_other _ _ _ hne.symm]
  · simp only [List.mem_cons, List.not_mem_nil, or_false, not_or] at ha
    rw [State.reg_refuse, State.reg_bump_other _ ha.2, s.reg_setF_other _ _ _ ha.1]

/-! ## Acceptance -/

/-- What an accepted doorbell leaves: its step behind all others, and the bytes of the descriptor charged. -/
def State.Queued (s : State) (p : Nat) (d : Desc) (q : Program) (n : Nat) (t : State) : Prop :=
  t.rgm.steps = s.rgm.steps ++ [newStep p d q] ∧ t.outcome = 0 ∧ SameMemory s t ∧
    t.reg (aAccHbm d.ctx) = s.reg (aAccHbm d.ctx) + BitVec.ofNat 64 n ∧ SameRegsBut [aAccHbm d.ctx] s t

/-- No rule refuses a doorbell of a partition with a descriptor under a program (R289, R308). -/
structure State.Rings (s : State) (p : Nat) (d : Desc) (q : Program) : Prop where
  room : (s.rgm.steps.filter (fun t => t.part == p)).length < 16
  newest : s.newest d.prog = some q
  addrs : q.addrsOk d.bases = true
  part : s.ctxPart d.ctx = p
  state : s.ctxState d.ctx ∉ [0, 6, 7]
  allows : q.allows (s.profile d.ctx) = true
  prog : d.prog = s.f (aCtxCfg d.ctx) 15 8
  fresh : s.stepOf d.ctx d.step = none

/-- A doorbell that no rule refuses queues its step. -/
theorem State.ring_queues {s : State} {p n : Nat} {d : Desc} {q : Program} (h : s.Rings p d q) (hx : d.ctx < 4096)
    (hd : s.dark = false) : s.Queued p d q n (s.ring_ p d true n) := by
  have hstate : [0, 6, 7].contains (s.ctxState d.ctx) = false := by simpa using h.state
  have hheld : s.ctxState d.ctx ≠ 0 := fun h0 => h.state (by simp [h0])
  have hring : s.ring_ p d true n =
      (({ s with rgm := { s.rgm with steps := s.rgm.steps ++ [newStep p d q] } } : State).addCtr (aAccHbm d.ctx) n).done := by
    have hcharge : ({ s with rgm := { s.rgm with steps := s.rgm.steps ++ [newStep p d q] } } : State).ctxState d.ctx ≠ 0 := hheld
    simp only [State.ring_, h.newest, h.addrs, h.part, hstate, h.allows, ← h.prog, h.fresh, Nat.not_le.2 h.room, Option.elim,
      State.chargeHbm, State.accAdd, Nat.mod_eq_of_lt hx, beq_false_of_ne hcharge]
    simp
  have hdark : (({ s with rgm := { s.rgm with steps := s.rgm.steps ++ [newStep p d q] } } : State).addCtr (aAccHbm d.ctx) n).dark
      = false := (State.dark_of_setReg _ _ (by unfold aAccHbm; omega)).trans hd
  rw [hring]
  refine ⟨by simp, State.outcome_done _ hdark, by simp [SameMemory], ?_, fun a ha => ?_⟩
  · rw [State.reg_done, State.reg_addCtr_same]
    rfl
  · rw [State.reg_done, State.reg_addCtr_other _ _ (List.ne_of_not_mem_cons ha)]
    rfl

theorem State.ringV2_eq {s : State} {p a : Nat} {d : Desc} (hdesc : descV2 a (s.hbmRead a 128) = (d, true))
    (hp : s.hbmPoisoned a 128 = false) : s.ringV2 p a = s.ring_ p d true 128 := by
  simp only [State.ringV2, hdesc, hp, Bool.not_false, Bool.and_self]

theorem State.ringV1_eq {s : State} {p a : Nat} {d : Desc} (hdesc : descV1 a (s.hbmRead a 64) = (d, true))
    (hp : s.hbmPoisoned a 64 = false) : s.ringV1 p a = s.ring_ p d true 64 := by
  simp only [State.ringV1, hdesc, hp, Bool.not_false, Bool.and_self]

theorem descV2_ctx_lt {a : Nat} {b : Bytes} {d : Desc} {ok : Bool} (h : descV2 a b = (d, ok)) : d.ctx < 4096 :=
  (congrArg (·.1.ctx) h).symm.trans_lt (Nat.mod_lt _ (by decide))

theorem descV1_ctx_lt {a : Nat} {b : Bytes} {d : Desc} {ok : Bool} (h : descV1 a b = (d, ok)) : d.ctx < 4096 :=
  (congrArg (·.1.ctx) h).symm.trans_lt (Nat.mod_lt _ (by decide))

section Shared

variable {s : State} {p a : Nat}

/-- A shared address takes the version of the descriptor (R736). -/
theorem State.ringShared_v2 (h : s.hbmNat a 1 = 2) (hp : s.hbmPoisoned a 1 = false) (k : Nat) :
    s.ringShared k a = s.ringV2 (32 + k) a := by
  simp [State.ringShared, h, hp]

theorem State.ringShared_v1 (h : s.hbmNat a 1 = 1) (hp : s.hbmPoisoned a 1 = false) (k : Nat) :
    s.ringShared k a = s.ringV1 (2 * k) a := by
  simp [State.ringShared, h, hp]

variable (v : Word) (hp : p < 64) (hs : s.tenantShut = false)

include hp hs

/-- DB_RING below partition 32, or above with a descriptor of version 2. -/
theorem exec_dbRing (h : p < 32 ∨ s.hbmNat (fld v.toNat 47 0) 1 = 2 ∧ s.hbmPoisoned (fld v.toNat 47 0) 1 = false) :
    exec (.dbRing p v) s = .next (s.ringV2 p (fld v.toNat 47 0)) := by
  have hexec : exec (.dbRing p v) s = execDbRing p v s := rfl
  rw [hexec, execDbRing]
  simp only [hs, Nat.not_le.2 hp, if_false, Bool.false_eq_true]
  by_cases h32 : p < 32
  · rw [if_neg (Nat.not_le.2 h32)]
  · obtain ⟨hver, hpois⟩ := h.resolve_left h32
    rw [if_pos (Nat.not_lt.1 h32), State.ringShared_v2 hver hpois, Nat.add_sub_cancel' (Nat.not_lt.1 h32)]

/-- DB1_RING by its second address, or of an odd partition. -/
theorem exec_db1Ring_own {viaAlias : Bool} (h : viaAlias = true ∨ p % 2 = 1) :
    exec (.db1Ring p v viaAlias) s = .next (s.ringV1 p (fld v.toNat 47 0)) := by
  have hexec : exec (.db1Ring p v viaAlias) s = execDb1Ring p v viaAlias s := rfl
  have hown : (!viaAlias && p % 2 == 0) = false := by
    obtain rfl | h := h
    · rfl
    · simp [h]
  rw [hexec, execDb1Ring]
  simp only [hs, Nat.not_le.2 hp, hown, if_false, Bool.false_eq_true]

/-- DB1_RING of an even partition with a descriptor of version 1. -/
theorem exec_db1Ring_shared (h : p % 2 = 0) (hver : s.hbmNat (fld v.toNat 47 0) 1 = 1)
    (hpois : s.hbmPoisoned (fld v.toNat 47 0) 1 = false) :
    exec (.db1Ring p v false) s = .next (s.ringV1 p (fld v.toNat 47 0)) := by
  have hexec : exec (.db1Ring p v false) s = execDb1Ring p v false s := rfl
  rw [hexec, execDb1Ring]
  simp only [hs, Nat.not_le.2 hp, h, if_false, Bool.false_eq_true, Bool.not_false, BEq.rfl, Bool.and_self, if_true]
  rw [State.ringShared_v1 hver hpois, Nat.mul_div_cancel' (Nat.dvd_of_mod_eq_zero h)]

end Shared

/-! ## The obligations -/

/-- Settles O14: each of the doorbell's forms comes down to one queueing of the descriptor it reads. -/
theorem doorbellsQueueSteps : Obligations.DoorbellsQueueSteps := by
  intro s p v d q a hp hs hd hroom hnew haddr hpart hstate hallow hprog hfresh R
  have hrings : s.Rings p d q := ⟨hroom, hnew, haddr, hpart, hstate, hallow, hprog, hfresh⟩
  refine ⟨fun hdesc hpois hform => ?_, fun hdesc hpois => ?_⟩
  · have hx : d.ctx < 4096 := descV2_ctx_lt hdesc
    exact ⟨_, exec_dbRing v hp hs hform, State.ringV2_eq hdesc hpois ▸ State.ring_queues hrings hx hd⟩
  · have hx : d.ctx < 4096 := descV1_ctx_lt hdesc
    have hqueued : s.Queued p d q 64 (s.ringV1 p a) := State.ringV1_eq hdesc hpois ▸ State.ring_queues hrings hx hd
    exact ⟨⟨_, exec_db1Ring_own v hp hs (.inl rfl), hqueued⟩, fun hodd => ⟨_, exec_db1Ring_own v hp hs (.inr hodd), hqueued⟩,
      fun heven hver hpois1 => ⟨_, exec_db1Ring_shared v hp hs heven hver hpois1, hqueued⟩⟩

/-- Settles O15: the full queue is tested first, the descriptor next (R308). -/
theorem doorbellRefusals : Obligations.DoorbellRefusals := by
  intro s p v hp hs hd a full hbad
  have hcode : s.ringV2 p a = s.refuseDb p (if full then 0x10 else 0x11) := by
    unfold State.ringV2 State.ring_
    dsimp only
    cases hf : full with
    | true => rw [if_pos (by exact hf)]; rfl
    | false =>
      have hdesc : ((descV2 a (s.hbmRead a 128)).2 && !s.hbmPoisoned a 128) = false := by
        obtain h | h | h := hbad
        · simp [hf] at h
        · simp [h]
        · simp [h]
      rw [if_neg (by rw [show decide (16 ≤ _) = false from hf]; simp), if_pos (by simp [hdesc])]
      rfl
  obtain ⟨hrgm, hrest⟩ := s.refuseDb_effect p (code := if full then 0x10 else 0x11) (by split <;> decide) hd
  exact ⟨_, exec_dbRing v (by omega) hs (.inl hp), hcode ▸ ⟨congrArg Rgm.steps hrgm, hrest⟩⟩

end Sys2Proof.Machine
end

section
/-! DB_ABORT (R303): every step of the context ends, none other changes. -/

namespace Sys2Proof.Machine

/-- What names a step and says where it stands in its life: its name, its phase and its end code. -/
structure Step.Life where
  name : Nat × Word
  phase : StepPhase
  abort : Nat

def Step.life (u : Step) : Step.Life := { name := (u.desc.ctx, u.desc.step), phase := u.phase, abort := u.abort }

/-- The life of a step that ends with a code. -/
def Step.Life.ended (endc : Nat) (l : Step.Life) : Step.Life := { l with phase := .draining, abort := endc }

@[simp] theorem Step.Life.name_ended (endc : Nat) (l : Step.Life) : (l.ended endc).name = l.name := rfl

@[simp] theorem Step.Life.ended_ended (e endc : Nat) (l : Step.Life) : (l.ended e).ended endc = l.ended endc := rfl

def State.lives (s : State) : List Step.Life := s.rgm.steps.map Step.life

theorem Step.is_iff_life_name {u : Step} {x : Nat} {step : Word} : u.is x step = true ↔ u.life.name = (x, step) := by
  simp [Step.is, Step.life]

/-- A change in place that ends a step ends every life of its name. -/
theorem State.lives_modStep (s : State) (x : Nat) (step : Word) {f : Step → Step} {g : Step.Life → Step.Life}
    (hf : ∀ u, (f u).life = g u.life) :
    (s.modStep x step f).lives = s.lives.map fun l => if l.name = (x, step) then g l else l := by
  simp only [State.lives, State.modStep, List.map_map]
  refine List.map_congr_left fun u _ => ?_
  simp only [Function.comp_apply]
  split
  · next h => rw [if_pos (Step.is_iff_life_name.1 h), hf]
  · next h => rw [if_neg (fun hn => h (Step.is_iff_life_name.2 hn))]

theorem State.lives_congr {s t : State} (h : t.rgm.steps = s.rgm.steps) : t.lives = s.lives := by
  rw [State.lives, State.lives, h]

/-- Stopping a step ends it (R303). -/
theorem State.lives_stopStep (s : State) (t : Step) (endc : Nat) :
    (s.stopStep t endc).lives = s.lives.map fun l => if l.name = t.life.name then l.ended endc else l :=
  (State.lives_congr (s.stopStep_steps t endc)).trans (s.lives_modStep _ _ fun _ => rfl)

/-- Dropping a step ends it (R304). -/
theorem State.lives_dropStep (s : State) (t : Step) (endc : Nat) :
    (s.dropStep t endc).lives = s.lives.map fun l => if l.name = t.life.name then l.ended endc else l := by
  have hrest (u : State) (f : Step → Step) (hf : ∀ w, (f w).life = w.life) :
      (u.modStep t.desc.ctx t.desc.step f).lives = u.lives := by
    rw [u.lives_modStep _ _ (g := id) hf]
    simp
  have hdrop : (s.dropStep t endc).lives = ((s.undoStep t).stopStep t endc).lives := hrest _ _ fun _ => rfl
  rw [hdrop, State.lives_stopStep, State.lives_congr (s.undoStep_steps t)]

/-- No two steps bear one name. -/
def State.NamesApart (s : State) : Prop := (s.lives.map (·.name)).Nodup

/-- Where names are apart, the freeze of the running step ends none. -/
theorem State.lives_lsAbort {s : State} (h : s.NamesApart) (x : Nat) : (s.lsAbort x).lives = s.lives := by
  obtain he | ⟨u, hu, he⟩ := (s.lsAbort_effect x).2
  · rw [State.lives, he, State.lives]
  · rw [State.lives, he, State.lives, State.setStep, List.map_map]
    refine List.map_congr_left fun w hw => ?_
    simp only [Function.comp_apply]
    split
    · next hname =>
      have hsame : w.life.name = u.life.name := Step.is_iff_life_name.1 hname
      have hwu : w = u := by
        unfold State.NamesApart State.lives at h
        rw [List.map_map] at h
        exact List.inj_on_of_nodup_map h hw (State.running_some hu).1 hsame
      rw [hwu]
      rfl
    · rfl

/-- Ending lives keeps names. -/
theorem map_name_ended (l : List Step.Life) (p : Step.Life → Prop) [DecidablePred p] (endc : Nat) :
    (l.map fun a => if p a then a.ended endc else a).map (·.name) = l.map (·.name) := by
  rw [List.map_map]
  refine List.map_congr_left fun a _ => ?_
  simp only [Function.comp_apply]
  split <;> rfl

/-- Lives that end one after another by name are those whose names are among them. -/
theorem lives_foldl {f : State → Step → State} {endc : Nat}
    (hf : ∀ s : State, s.NamesApart → ∀ t, (f s t).lives = s.lives.map fun l => if l.name = t.life.name then l.ended endc else l)
    (ts : List Step) (s : State) (h : s.NamesApart) :
    (ts.foldl f s).lives = s.lives.map fun l => if l.name ∈ ts.map (·.life.name) then l.ended endc else l := by
  induction ts generalizing s with
  | nil => simp
  | cons t ts ih =>
    have hnext : (f s t).NamesApart := by
      rw [State.NamesApart, hf s h t, map_name_ended]
      exact h
    rw [List.foldl_cons, ih _ hnext, hf s h t, List.map_map]
    refine List.map_congr_left fun l _ => ?_
    simp only [Function.comp_apply, List.map_cons, List.mem_cons]
    by_cases ht : l.name = t.life.name
    · simp [ht]
    · simp [ht]

/-! ## The doorbell -/

/-- The steps that the doorbell names and that have no end code. -/
def State.toAbort (s : State) (p x : Nat) : List Step :=
  s.rgm.steps.filter (fun t => t.part == p && t.desc.ctx == x && t.abort == 0)

/-- Those of them that have not started. -/
def State.toDrop (s : State) (p x : Nat) : List Step :=
  ((s.toAbort p x).filter (fun t => t.phase == .queued || t.phase == .admitted)).reverse

/-- Those of them that have. -/
def State.toStop (s : State) (p x : Nat) : List Step :=
  (s.toAbort p x).filter (fun t => t.phase == .running || t.phase == .draining)

theorem State.mem_toDrop {s : State} {p x : Nat} {u : Step} : u ∈ s.toDrop p x ↔ u ∈ s.rgm.steps ∧
    (u.part = p ∧ u.desc.ctx = x ∧ u.abort = 0) ∧ (u.phase = .queued ∨ u.phase = .admitted) := by
  simp only [State.toDrop, State.toAbort, List.mem_reverse, List.mem_filter, Bool.and_eq_true, Bool.or_eq_true, beq_iff_eq,
    and_assoc]

theorem State.mem_toStop {s : State} {p x : Nat} {u : Step} : u ∈ s.toStop p x ↔ u ∈ s.rgm.steps ∧
    (u.part = p ∧ u.desc.ctx = x ∧ u.abort = 0) ∧ (u.phase = .running ∨ u.phase = .draining) := by
  simp only [State.toStop, State.toAbort, List.mem_filter, Bool.and_eq_true, Bool.or_eq_true, beq_iff_eq, and_assoc]

/-- The steps that have not started are dropped, and those that have are stopped (R303). -/
theorem exec_dbAbort {s : State} {p : Nat} (v : Word) (hp : p < 64) (hs : s.tenantShut = false) :
    exec (.dbAbort p v) s = .next ((s.toStop p (fld v.toNat 11 0)).foldl
      (fun u t => (u.stopStep t 0x30).lsAbort (fld v.toNat 11 0))
      ((s.toDrop p (fld v.toNat 11 0)).foldl (fun u t => u.dropStep t 0x24) s)).done := by
  have hexec : exec (.dbAbort p v) s = execDbAbort p v s := rfl
  rw [hexec, execDbAbort]
  simp only [hs, Nat.not_le.2 hp, if_false, Bool.false_eq_true, State.toDrop, State.toStop, State.toAbort]

/-- Where names are apart, a listed step's name is among those of the steps picked exactly if the step is. -/
theorem State.NamesApart.name_mem {s : State} (h : s.NamesApart) {u : Step} (hu : u ∈ s.rgm.steps) {l : List Step}
    (hl : ∀ w ∈ l, w ∈ s.rgm.steps) : u.life.name ∈ l.map (·.life.name) ↔ u ∈ l := by
  rw [State.NamesApart, State.lives, List.map_map] at h
  refine ⟨fun hm => ?_, fun hm => List.mem_map_of_mem hm⟩
  obtain ⟨w, hw, he⟩ := List.mem_map.1 hm
  exact List.inj_on_of_nodup_map h (hl w hw) hu he ▸ hw

theorem State.lives_stopStep_lsAbort (x : Nat) (s : State) (h : s.NamesApart) (t : Step) :
    ((s.stopStep t 0x30).lsAbort x).lives = s.lives.map fun l => if l.name = t.life.name then l.ended 0x30 else l := by
  have hstop : (s.stopStep t 0x30).NamesApart := by
    rw [State.NamesApart, State.lives_stopStep, map_name_ended]
    exact h
  rw [State.lives_lsAbort hstop, State.lives_stopStep]

/-- Steps dropped with one code and steps stopped with another: each life ends with the code of its list. -/
theorem State.lives_dropped_stopped {s : State} (h : s.NamesApart) (x : Nat) (early late : List Step) :
    (late.foldl (fun u t => (u.stopStep t 0x30).lsAbort x) (early.foldl (fun u t => u.dropStep t 0x24) s)).lives =
      s.lives.map fun l => if l.name ∈ late.map (·.life.name) then l.ended 0x30
        else if l.name ∈ early.map (·.life.name) then l.ended 0x24 else l := by
  have hdrop := lives_foldl (fun s _ t => s.lives_dropStep t 0x24) early s h
  have hapart : (early.foldl (fun u t => u.dropStep t 0x24) s).NamesApart := by
    rw [State.NamesApart, hdrop, map_name_ended]
    exact h
  rw [lives_foldl (State.lives_stopStep_lsAbort x) late _ hapart, hdrop, List.map_map]
  refine List.map_congr_left fun l _ => ?_
  by_cases hm : l.name ∈ early.map (·.life.name)
  · simp only [Function.comp_apply, if_pos hm, Step.Life.name_ended, Step.Life.ended_ended]
  · simp only [Function.comp_apply, if_neg hm]

/-- Settles O16: steps end by name, so where names are apart exactly those that the doorbell picks do. -/
theorem abortDoorbellEndsTheStep : Obligations.AbortDoorbellEndsTheStep := by
  intro s p v hp hs hd x hnames
  have hapart : s.NamesApart := by
    rw [State.NamesApart, State.lives, List.map_map]
    exact hnames
  have hkeep (ts us : List Step) : EndKeeps s (us.foldl (fun u t => (u.stopStep t 0x30).lsAbort x)
      (ts.foldl (fun u t => u.dropStep t 0x24) s)) :=
    (EndKeeps.foldl _ (fun u t => u.dropStep_endKeeps t _) ts s).trans
      (.foldl _ (fun u t => (u.stopStep_endKeeps t _).trans (State.lsAbort_effect _ _).1) us _)
  refine ⟨_, exec_dbAbort v hp hs, ?_, State.outcome_done _ ((hkeep _ _).dark.trans hd)⟩
  have hshow := congrArg (List.map fun l : Step.Life => (l.name.1, l.name.2, l.phase, l.abort))
    (State.lives_dropped_stopped hapart x (s.toDrop p x) (s.toStop p x))
  rw [State.lives, State.lives, List.map_map, List.map_map, List.map_map] at hshow
  rw [State.done_rgm]
  refine hshow.trans (List.map_congr_left fun u hu => ?_)
  simp only [Function.comp_apply, hapart.name_mem hu (fun _ hw => (State.mem_toDrop.1 hw).1),
    hapart.name_mem hu (fun _ hw => (State.mem_toStop.1 hw).1), State.mem_toDrop, State.mem_toStop, hu, true_and]
  by_cases hpick : u.part = p ∧ u.desc.ctx = x ∧ u.abort = 0
  · cases hphase : u.phase <;> simp [hpick, Step.Life.ended, Step.life]
  · simp only [hpick, false_and, if_false]
    rfl

end Sys2Proof.Machine
end

section
/-! Program loads (R270, R310, R667): a load starts, and its end stores a good image and refuses a bad one. -/

namespace Sys2Proof.Machine

/-- A load that starts: SLOT is the one written, GO and BUSY are set, and no other register changes (R310). -/
theorem State.pload_starts {s : State} {v : Word} (hs : s.portShut = false) (hd : s.dark = false)
    (hgo : bitAt v.toNat 8 = true) (hbusy : s.flag aRgmPloadCtrl 9 = false) :
    (s.pload v).f aRgmPloadCtrl 7 0 = fld v.toNat 7 0 ∧ (s.pload v).f aRgmPloadCtrl 9 8 = 3 ∧ (s.pload v).outcome = 0 ∧
      SameRegsBut [aRgmPloadCtrl] s (s.pload v) ∧ SameMemory s (s.pload v) ∧ (s.pload v).rgm = s.rgm := by
  have hstart : s.pload v =
      ((s.setReg aRgmPloadCtrl (mergeMask (s.reg aRgmPloadCtrl) v (fm 7 0))).setF aRgmPloadCtrl 9 8 3).done := by
    simp only [State.pload, hs, hgo, hbusy, Bool.not_true, Bool.false_eq_true, if_false]
  have hdark : ((s.setReg aRgmPloadCtrl (mergeMask (s.reg aRgmPloadCtrl) v (fm 7 0))).setF aRgmPloadCtrl 9 8 3).dark = false :=
    (State.dark_of_setReg _ _ (by decide)).trans ((s.dark_of_setReg _ (by decide)).trans hd)
  have hmask : ∀ i < 8, 0 ≤ i → (fm 7 0).testBit i = true := by decide
  rw [hstart]
  refine ⟨?_, ?_, State.outcome_done _ hdark, fun a ha => ?_, by simp [SameMemory], by simp⟩
  · rw [State.f_done, State.f_setF_apart _ _ _ (by decide) (by decide) (by decide) (by decide), State.f, State.regN,
      State.reg_setReg_same, fld_mergeMask _ _ (by decide) (by decide) hmask]
  · rw [State.f_done, State.f_setF_same _ _ _ _ _ (by decide) (by decide)]
    rfl
  · have hne := List.ne_of_not_mem_cons ha
    rw [State.reg_done, State.reg_setF_other _ _ _ _ hne, State.reg_setReg_other _ _ hne]

/-- The end of a load clears BUSY and GO and shows its RESULT and ERROP (R310). -/
theorem State.ploadEnd_shows (s : State) (result errop : Nat) :
    (s.ploadEnd result errop).f aRgmPloadCtrl 9 8 = 0 ∧ (s.ploadEnd result errop).f aRgmPloadCtrl 11 10 = result % 4 ∧
      (s.ploadEnd result errop).f aRgmPloadCtrl 31 16 = errop % 65536 := by
  unfold State.ploadEnd
  refine ⟨?_, ?_, ?_⟩
  · rw [State.f_setF_apart _ _ _ (by decide) (by decide) (by decide) (by decide),
      State.f_setF_apart _ _ _ (by decide) (by decide) (by decide) (by decide),
      State.f_setF_same _ _ _ _ _ (by decide) (by decide), Nat.zero_mod]
  · rw [State.f_setF_apart _ _ _ (by decide) (by decide) (by decide) (by decide),
      State.f_setF_same _ _ _ _ _ (by decide) (by decide)]
    rfl
  · rw [State.f_setF_same _ _ _ _ _ (by decide) (by decide)]
    rfl

theorem State.ploadEnd_rgm (s : State) (result errop : Nat) : (s.ploadEnd result errop).rgm = s.rgm := by
  simp [State.ploadEnd]

/-- The image that a load reads, by its own header (R268, R310). -/
def State.loadedImage (s : State) : Bytes := s.hbmRead (s.f aRgmPloadAddr 47 0) (imageLen (s.hbmRead (s.f aRgmPloadAddr 47 0) 64))

/-- The image or its trailer is poisoned, or a signature that is asked for fails (R667, R762). -/
def State.imageBad (s : State) : Bool :=
  s.hbmPoisoned (s.f aRgmPloadAddr 47 0)
      (imageLen (s.hbmRead (s.f aRgmPloadAddr 47 0) 64) + (if s.flag aSecStat 4 then 256 else 0)) ||
    (s.flag aSecStat 4 && !s.signedOk s.loadedImage
      (s.hbmRead (s.f aRgmPloadAddr 47 0 + imageLen (s.hbmRead (s.f aRgmPloadAddr 47 0) 64)) 256))

/-- How a load ends: on a bad image at once, and otherwise as the check of the image and the store decide (R270). -/
theorem exec_programLoadDone {s : State} (hbusy : s.flag aRgmPloadCtrl 9 = true) :
    exec .programLoadDone s = .next (if s.imageBad then s.ploadEnd 2 0xFFFF
      else (s.loadImage (s.f aRgmPloadCtrl 7 0) s.loadedImage).elim (·.ploadEnd 0 0) (s.ploadEnd 2)) := by
  have hexec : exec .programLoadDone s = execProgramLoadDone s := rfl
  rw [hexec, execProgramLoadDone, hbusy, Bool.not_true, if_neg Bool.false_ne_true]
  by_cases hbad : s.imageBad = true
  · exact (if_pos hbad).trans (by rw [if_pos hbad])
  · refine (if_neg hbad).trans ?_
    rw [if_neg hbad, State.loadedImage]
    cases s.loadImage _ _ <;> rfl

/-- Settles O17: the start and the three ends of a load, by what the image and its check give. -/
theorem programLoadsStoreTheImage : Obligations.ProgramLoadsStoreTheImage := by
  intro s v
  constructor
  · exact fun hs hd hgo hidle => ⟨_, rfl, State.pload_starts hs hd hgo hidle⟩
  intro hbusy a n img signed bad E
  have hend (u : State) (r e : Nat) (hr : r < 4) : E r e (u.ploadEnd r e) := by
    obtain ⟨hclear, hresult, herrop⟩ := u.ploadEnd_shows r e
    exact ⟨hclear, hresult.trans (Nat.mod_eq_of_lt hr), herrop⟩
  have hexec := exec_programLoadDone hbusy
  refine ⟨fun hbad => ?_, fun e hgood hload => ?_, fun u hgood hload => ?_⟩
  · rw [show s.imageBad = true from hbad, if_pos rfl] at hexec
    exact ⟨_, hexec, hend s 2 _ (by decide), s.ploadEnd_rgm _ _⟩
  · rw [show s.imageBad = false from hgood, if_neg Bool.false_ne_true, show s.loadImage _ s.loadedImage = _ from hload] at hexec
    exact ⟨_, hexec, hend s 2 e (by decide), s.ploadEnd_rgm _ _⟩
  · rw [show s.imageBad = false from hgood, if_neg Bool.false_ne_true, show s.loadImage _ s.loadedImage = _ from hload] at hexec
    exact ⟨_, hexec, hend u 0 0 (by decide), u.ploadEnd_rgm _ _⟩

end Sys2Proof.Machine
end

section
/-! The ops of a route program outside its layer groups (R279, R280, R282, R285, R286): a step that waits at its op, and one
that goes on to the next. -/

namespace Sys2Proof.Machine

/-! ## Frames -/

theorem SameMemory.refl (s : State) : SameMemory s s := ⟨rfl, rfl, rfl, rfl, rfl⟩

theorem SameMemory.trans {s t u : State} (h : SameMemory s t) (k : SameMemory t u) : SameMemory s u := by
  obtain ⟨h1, h2, h3, h4, h5⟩ := h
  obtain ⟨k1, k2, k3, k4, k5⟩ := k
  exact ⟨k1.trans h1, k2.trans h2, k3.trans h3, k4.trans h4, k5.trans h5⟩

theorem SameRegsBut.trans {l : List Nat} {s t u : State} (h : SameRegsBut l s t) (k : SameRegsBut l t u) : SameRegsBut l s u :=
  fun a ha => (k a ha).trans (h a ha)

theorem SameRegsBut.mono {l m : List Nat} {s t : State} (h : SameRegsBut l s t) (hl : l ⊆ m) : SameRegsBut m s t :=
  fun a ha => h a fun hm => ha (hl hm)

/-! ## The step that runs -/

/-- What a runner is: a listed step of the context, in its running phase. -/
theorem State.runner_some {s : State} {x : Nat} {t : Step} (h : s.runner x = some t) :
    t ∈ s.rgm.steps ∧ t.desc.ctx = x ∧ t.phase = .running := by
  obtain ⟨hr, -⟩ := Option.filter_eq_some_iff.1 h
  have hp := List.find?_some hr
  simp only [Bool.and_eq_true, beq_iff_eq] at hp
  exact ⟨(State.running_some hr).1, hp⟩

/-- A runner is listed as itself. -/
theorem State.stepHas_runner {s : State} {x : Nat} {t : Step} (h : s.runner x = some t) :
    StepHas s x t.desc.step (· = t) :=
  stepHas_of_mem (State.runner_some h).1 (State.runner_some h).2.1 rfl

/-- An op that the runner stands at, unissued and outside a group, is performed. -/
theorem State.atOp_performs {s : State} {x n : Nat} {t : Step} {o : RouteOp} (k : Step → RouteOp → State)
    (ht : s.runner x = some t) (ho : t.opNow = some o) (hw : t.waiting = false) (hg : t.group = none) (hop : o.opcode = n) :
    s.atOp x (·.opcode == n) k = k t o := by
  simp [State.atOp, ht, ho, hw, hg, hop]

/-! ## Going on to the next op (R279, R282) -/

/-- What the end of op i, as the step t stands, sets in the step listed. -/
def Step.wentOn (t : Step) (i : Nat) (u : Step) : Step :=
  { u with
    op := (nextOp t.prog.ops t.iters i).1, iters := (nextOp t.prog.ops t.iters i).2, waiting := false, backRows := 0
    phase := if t.prog.ops.length ≤ (nextOp t.prog.ops t.iters i).1 then .draining else u.phase }

/-- The end of an op changes its step, its context's own state, and of the registers the context's virtual time. -/
theorem State.finishOp_eq (s : State) (t : Step) (i : Nat) :
    (∃ regs ctxs, s.finishOp t i =
      { s.modStep t.desc.ctx t.desc.step (t.wentOn i) with regs := regs, ctxs := ctxs }) ∧
    SameRegsBut [aCtxVtime t.desc.ctx] s (s.finishOp t i) := by
  have hmod (u : State) : (u.modStep t.desc.ctx t.desc.step fun u => { u with
      op := (nextOp t.prog.ops t.iters i).1, iters := (nextOp t.prog.ops t.iters i).2, waiting := false, backRows := 0
      phase := if decide (t.prog.ops.length ≤ (nextOp t.prog.ops t.iters i).1) then .draining else u.phase }) =
      u.modStep t.desc.ctx t.desc.step (t.wentOn i) := by
    simp only [decide_eq_true_eq]
    rfl
  unfold State.finishOp
  dsimp only
  rw [hmod]
  generalize ({ s.ctx t.desc.ctx with live := _, parkCut := _ } : Ctx) = c
  obtain he | ⟨v, he⟩ := ((s.setCtx t.desc.ctx c).modStep t.desc.ctx t.desc.step (t.wentOn i)).readied_eq s t.desc.ctx
  · rw [he]
    exact ⟨⟨_, _, rfl⟩, fun _ _ => rfl⟩
  · rw [he]
    exact ⟨⟨_, _, rfl⟩, fun a ha => State.reg_setReg_other _ v (List.ne_of_not_mem_cons ha)⟩

section FinishOp

variable (s : State) (t : Step) (i : Nat)

theorem State.finishOp_sameRegs : SameRegsBut [aCtxVtime t.desc.ctx] s (s.finishOp t i) := (s.finishOp_eq t i).2

theorem State.finishOp_sameMemory : SameMemory s (s.finishOp t i) := by
  obtain ⟨⟨_, _, he⟩, -⟩ := s.finishOp_eq t i
  rw [he]
  exact ⟨rfl, rfl, rfl, rfl, rfl⟩

theorem State.finishOp_steps : (s.finishOp t i).rgm.steps = (s.modStep t.desc.ctx t.desc.step (t.wentOn i)).rgm.steps := by
  obtain ⟨⟨_, _, he⟩, -⟩ := s.finishOp_eq t i
  rw [he]

@[simp] theorem State.finishOp_fab : (s.finishOp t i).fab = s.fab := by
  obtain ⟨⟨_, _, he⟩, -⟩ := s.finishOp_eq t i
  rw [he]
  rfl

@[simp] theorem State.finishOp_way : (s.finishOp t i).way = s.way := by
  obtain ⟨⟨_, _, he⟩, -⟩ := s.finishOp_eq t i
  rw [he]
  rfl

@[simp] theorem State.finishOp_col : (s.finishOp t i).col = s.col := by
  obtain ⟨⟨_, _, he⟩, -⟩ := s.finishOp_eq t i
  rw [he]
  rfl

end FinishOp

/-- A step whose op ends has gone on. -/
theorem StepHas.finishOp {s : State} {t : Step} {x i : Nat} {P Q : Step → Prop} (h : StepHas s x t.desc.step P)
    (hx : t.desc.ctx = x) (hq : ∀ u, P u → Q (t.wentOn i u)) : StepHas (s.finishOp t i) x t.desc.step Q := by
  subst hx
  rw [StepHas, State.finishOp_steps]
  exact h.modStep (fun _ => rfl) hq

/-- A step stands at the op behind the one that t stands at, and does not wait. -/
def Step.AtNext (t u : Step) : Prop :=
  u.op = (nextOp t.prog.ops t.iters t.op).1 ∧ u.iters = (nextOp t.prog.ops t.iters t.op).2 ∧ u.waiting = false

/-- It stands there running, or drains where the program has no such op. -/
def Step.AtNextOrDrained (t u : Step) : Prop :=
  u.op = (nextOp t.prog.ops t.iters t.op).1 ∧ u.iters = (nextOp t.prog.ops t.iters t.op).2 ∧ u.waiting = false ∧
    u.phase = (if t.prog.ops.length ≤ (nextOp t.prog.ops t.iters t.op).1 then .draining else .running)

section GoesOn

variable {s s1 : State} {x : Nat} {t : Step} (ht : s.runner x = some t)

include ht

/-- The runner's op ends, after work that leaves the steps: the step stands at the next op, or drains behind the last. -/
theorem State.finishOp_goesOnOrDrains (hrgm : s1.rgm = s.rgm) :
    StepHas (s1.finishOp t t.op) x t.desc.step t.AtNextOrDrained := by
  obtain ⟨hmem, hx, hphase⟩ := State.runner_some ht
  have hlisted : StepHas s1 x t.desc.step (· = t) := stepHas_of_mem (hrgm ▸ hmem) hx rfl
  refine hlisted.finishOp hx ?_
  rintro u rfl
  exact ⟨rfl, rfl, rfl, by rw [Step.wentOn, hphase]⟩

theorem State.finishOp_goesOn (hrgm : s1.rgm = s.rgm) : StepHas (s1.finishOp t t.op) x t.desc.step t.AtNext :=
  (State.finishOp_goesOnOrDrains ht hrgm).mono fun _ ⟨hop, hiters, hwait, _⟩ => ⟨hop, hiters, hwait⟩

end GoesOn

/-! ## OP_AWAIT and OP_FENCE -/

section Ops

variable {s : State} {x : Nat} {t : Step} {o : RouteOp} (ht : s.runner x = some t) (ho : t.opNow = some o)

include ht ho

/-- An op that waits is issued: the step stands at it and waits. -/
theorem waitingOp_completes {c : Instr} {n : Nat}
    (hexec : exec c s = .next (s.atOp x (·.opcode == n) (fun t _ => s.setStep { t with waiting := true })))
    (hw : t.waiting = false) (hg : t.group = none) (hop : o.opcode = n) :
    Completes c s (fun r => StepHas r x t.desc.step (fun u => u.waiting = true ∧ u.op = t.op ∧ u.phase = .running) ∧
      SameRegsBut [] s r ∧ SameMemory s r) := by
  obtain ⟨hmem, hx, hphase⟩ := State.runner_some ht
  rw [State.atOp_performs _ ht ho hw hg hop] at hexec
  exact ⟨_, hexec, (State.stepHas_runner ht).setStep (Step.is_iff.2 ⟨hx, rfl⟩) ⟨rfl, rfl, hphase⟩, fun _ _ => rfl,
    rfl, rfl, rfl, rfl, rfl⟩

/-- AWAIT_MET on a counter that has arrived (R280). -/
theorem awaitMet_completes (hx : x < 4096) (hw : t.waiting = true) (hop : o.opcode = opAwait) (hmet : s.awaitHolds t o = true) :
    let c := aCtr ((opF o 31 16 + t.desc.ctrOfs) % 65536)
    Completes (.awaitMet x) s (fun r => (StepHas r x t.desc.step t.AtNextOrDrained ∧ SameMemory s r) ∧
      SameRegsBut [c, aCtxVtime x] s r ∧
      r.reg c = (if opF o 0 0 = 1 ∧ opF o 1 1 = 1 then s.reg c - word (opF o 63 32) else s.reg c)) := by
  intro c
  have hctx := (State.runner_some ht).2.1
  have hne : c ≠ aCtxVtime x := by unfold c aCtr aCtxVtime; omega
  have hexec : exec (.awaitMet x) s = .next ((if opF o 0 0 = 1 ∧ opF o 1 1 = 1 then
      s.setReg c (s.reg c - word (opF o 63 32)) else s).finishOp t t.op) := by
    have hrun : exec (.awaitMet x) s = execAwaitMet x s := rfl
    rw [hrun, execAwaitMet, ht]
    simp only [ho, hop, hw, hmet, BEq.rfl, Bool.and_self, if_true, Bool.and_eq_true, beq_iff_eq]
    rfl
  generalize hs1 : (if opF o 0 0 = 1 ∧ opF o 1 1 = 1 then s.setReg c (s.reg c - word (opF o 63 32)) else s) = s1 at hexec
  have hcounter : s1.rgm = s.rgm ∧ SameMemory s s1 ∧ SameRegsBut [c] s s1 ∧
      s1.reg c = (if opF o 0 0 = 1 ∧ opF o 1 1 = 1 then s.reg c - word (opF o 63 32) else s.reg c) := by
    subst hs1
    split
    · exact ⟨rfl, ⟨rfl, rfl, rfl, rfl, rfl⟩, fun a ha => s.reg_setReg_other _ (List.ne_of_not_mem_cons ha),
        s.reg_setReg_same c _⟩
    · exact ⟨rfl, .refl s, fun _ _ => rfl, rfl⟩
  obtain ⟨hrgm, hmem, hregs, hval⟩ := hcounter
  have hfinish := hctx ▸ s1.finishOp_sameRegs t t.op
  refine ⟨_, hexec, ⟨State.finishOp_goesOnOrDrains ht hrgm, hmem.trans (s1.finishOp_sameMemory t t.op)⟩, ?_, ?_⟩
  · exact (hregs.mono (by simp)).trans (hfinish.mono (by simp))
  · rw [hfinish c (by simpa using hne), hval]

/-- FENCE_DONE with no operation of the step outstanding (R279). -/
theorem fenceDone_completes (hw : t.waiting = true) (hop : o.opcode = opFence) (hnone : t.asyncs = []) :
    Completes (.fenceDone x) s (fun r => (StepHas r x t.desc.step t.AtNextOrDrained ∧ SameMemory s r) ∧
      SameRegsBut [aCtxVtime x] s r) := by
  have hexec : exec (.fenceDone x) s = .next (s.finishOp t t.op) := by
    have hrun : exec (.fenceDone x) s = execFenceDone x s := rfl
    rw [hrun, execFenceDone, ht]
    simp [ho, hop, hw, hnone]
  exact ⟨_, hexec, ⟨State.finishOp_goesOnOrDrains ht rfl, s.finishOp_sameMemory t t.op⟩,
    (State.runner_some ht).2.1 ▸ s.finishOp_sameRegs t t.op⟩

end Ops

/-! ## OP_EXIT, OP_MARK and OP_LOOP -/

/-- Bytes written one by one, each at its own place: every place holds its byte, and no other address changes. -/
theorem State.foldl_hbmWrite_byte (m : Nat) (f : Nat → Byte) (l : List Nat) (s : State) :
    (∀ i ∈ l, cellGet 0 (l.foldl (fun u i => u.hbmWrite (m + i) [f i]) s).hbm (m + i) = f i) ∧
    (∀ b, (∀ i ∈ l, b ≠ m + i) → cellGet 0 (l.foldl (fun u i => u.hbmWrite (m + i) [f i]) s).hbm b = cellGet 0 s.hbm b) := by
  induction l generalizing s with
  | nil => simp
  | cons j l ih =>
    obtain ⟨hin, hout⟩ := ih (s.hbmWrite (m + j) [f j])
    have hfirst (b : Nat) : cellGet 0 (s.hbmWrite (m + j) [f j]).hbm b = if b = m + j then f j else cellGet 0 s.hbm b := by
      split
      · next h => exact h ▸ cellGet_cellSet_same _ _ _ _
      · next h => exact cellGet_cellSet_other _ _ _ h
    refine ⟨fun i hi => ?_, fun b hb => ?_⟩
    · by_cases hl : i ∈ l
      · exact hin i hl
      · obtain rfl : i = j := (List.mem_cons.1 hi).resolve_right hl
        rw [List.foldl_cons, hout _ (fun k hk he => hl (by rwa [Nat.add_left_cancel he])), hfirst, if_pos rfl]
    · rw [List.foldl_cons, hout b (fun k hk => hb k (List.mem_cons_of_mem _ hk)), hfirst, if_neg (hb j List.mem_cons_self)]

theorem State.foldl_hbmWrite_frame (m : Nat) (f : Nat → Byte) (l : List Nat) (s : State) :
    (l.foldl (fun u i => u.hbmWrite (m + i) [f i]) s).rgm = s.rgm ∧
      (l.foldl (fun u i => u.hbmWrite (m + i) [f i]) s).stk = s.stk ∧
      (l.foldl (fun u i => u.hbmWrite (m + i) [f i]) s).flash = s.flash :=
  have hkeep {β : Type} (g : State → β) (h : ∀ u a bs, g (State.hbmWrite u a bs) = g u) :=
    foldl_keeps g (f := fun u i => u.hbmWrite (m + i) [f i]) (fun u _ => h u _ _) l s
  ⟨hkeep State.rgm fun _ _ _ => rfl, hkeep State.stk fun _ _ _ => rfl, hkeep State.flash fun _ _ _ => rfl⟩

/-- Forming a record numbers it and changes, besides Waymark's own state, one counter (R528). -/
theorem State.formRecord_effect (s : State) (x : Nat) (t : Step) (ws : List Word) (chain : Word) :
    (s.formRecord x t ws chain).2.rgm = s.rgm ∧ (s.formRecord x t ws chain).2.way.wseq = s.way.wseq + 1 ∧
      SameMemory s (s.formRecord x t ws chain).2 := by
  unfold State.formRecord
  dsimp only
  split
  · exact ⟨rfl, rfl, rfl, rfl, rfl, rfl, rfl⟩
  · exact ⟨rfl, rfl, rfl, rfl, rfl, rfl, rfl⟩

section Ops

variable {s : State} {x : Nat} {t : Step} {o : RouteOp} (ht : s.runner x = some t) (ho : t.opNow = some o)
  (hw : t.waiting = false) (hg : t.group = none)

include ht ho hw hg

/-- OP_EXIT writes the exit layer of each token, 0xFF where it has not exited (R285). -/
theorem opExit_completes (hop : o.opcode = opExit) :
    let m := t.prog.addr t.desc.bases t.blk 0
    Completes (.opExit x) s (fun r => StepHas r x t.desc.step t.AtNext ∧
      (∀ i ∈ t.tokens, cellGet 0 r.hbm (m + i) = BitVec.ofNat 8 ((tabFind t.exited i).getD 0xFF)) ∧
      (∀ b, (∀ i ∈ t.tokens, b ≠ m + i) → cellGet 0 r.hbm b = cellGet 0 s.hbm b) ∧ r.stk = s.stk ∧ r.flash = s.flash) := by
  intro m
  have hexec : exec (.opExit x) s = .next (s.atOp x (·.opcode == opExit) fun t _ =>
      ((t.tokens.foldl (fun u i => u.hbmWrite (t.prog.addr t.desc.bases t.blk 0 + i)
        [BitVec.ofNat 8 ((tabFind t.exited i).getD 0xFF)]) s).chargeHbm x t.tokens.length).finishOp t t.op) := rfl
  rw [State.atOp_performs _ ht ho hw hg hop] at hexec
  obtain ⟨hin, hout⟩ := State.foldl_hbmWrite_byte m (fun i => BitVec.ofNat 8 ((tabFind t.exited i).getD 0xFF)) t.tokens s
  obtain ⟨hrgm, hstk, hflash⟩ :=
    State.foldl_hbmWrite_frame m (fun i => BitVec.ofNat 8 ((tabFind t.exited i).getD 0xFF)) t.tokens s
  generalize t.tokens.foldl (fun u i => u.hbmWrite (m + i) [BitVec.ofNat 8 ((tabFind t.exited i).getD 0xFF)]) s = s1
    at hexec hin hout hrgm hstk hflash
  obtain ⟨hh, -, hs, -, hf⟩ := (s1.chargeHbm x t.tokens.length).finishOp_sameMemory t t.op
  rw [State.chargeHbm_hbm] at hh
  refine ⟨_, hexec, State.finishOp_goesOn ht ((State.chargeHbm_rgm _ _ _).trans hrgm), ?_, ?_,
    hs.trans ((State.chargeHbm_stk _ _ _).trans hstk), hf.trans ((State.chargeHbm_flash _ _ _).trans hflash)⟩
  · rw [hh]
    exact hin
  · rw [hh]
    exact hout

/-- OP_MARK forms an intermediate record (R286, R528). -/
theorem opMark_completes (hop : o.opcode = opMark) :
    Completes (.opMark x) s (fun r => StepHas r x t.desc.step t.AtNext ∧
      r.way.wseq = s.way.wseq + 1 ∧ SameMemory s r) := by
  have hexec : exec (.opMark x) s = .next (s.atOp x (·.opcode == opMark) fun t _ =>
      (s.formRecord x t (Step.recWords { t with sums := { t.sums with exited := t.exited.length } } 2)
        (s.ctx x).chain).2.finishOp t t.op) := rfl
  rw [State.atOp_performs _ ht ho hw hg hop] at hexec
  obtain ⟨hrgm, hseq, hmem⟩ := s.formRecord_effect x t
    (Step.recWords { t with sums := { t.sums with exited := t.exited.length } } 2) (s.ctx x).chain
  refine ⟨_, hexec, State.finishOp_goesOn ht hrgm, ?_, hmem.trans (State.finishOp_sameMemory _ _ _)⟩
  rw [State.finishOp_way, hseq]

/-- OP_LOOP goes on as its count says (R282). -/
theorem opLoop_completes (hop : o.opcode = opLoop) :
    Completes (.opLoop x) s (fun r => StepHas r x t.desc.step t.AtNext ∧ SameMemory s r) := by
  have hexec : exec (.opLoop x) s = .next (s.atOp x (·.opcode == opLoop) fun t _ => s.finishOp t t.op) := rfl
  rw [State.atOp_performs _ ht ho hw hg hop] at hexec
  exact ⟨_, hexec, State.finishOp_goesOn ht rfl, s.finishOp_sameMemory t t.op⟩

end Ops

/-! ## The obligations -/

/-- Settles O20: the two ops are issued alike. -/
theorem waitingOpsAreIssued : Obligations.WaitingOpsAreIssued := by
  intro s x t o ht ho hw hg W
  exact ⟨fun hop => waitingOp_completes ht ho rfl hw hg hop,
    fun hop => waitingOp_completes ht ho rfl hw hg hop⟩

/-- Settles O21: the counter is the one register that AWAIT_MET stores; the rest is the end of an op. -/
theorem metWaitsFinishTheOp : Obligations.MetWaitsFinishTheOp := by
  intro s x t o hx ht ho hw n c On
  exact ⟨awaitMet_completes ht ho hx hw, fenceDone_completes ht ho hw⟩

/-- Settles O22: three ops whose work touches host memory, Waymark or nothing, and then the end of an op. -/
theorem synchronousOpsFinishAtOnce : Obligations.SynchronousOpsFinishAtOnce := by
  intro s x t o ht ho hw hg n On m
  exact ⟨opExit_completes ht ho hw hg, opMark_completes ht ho hw hg, opLoop_completes ht ho hw hg⟩

end Sys2Proof.Machine
end

section
/-! COPY, FETCH and REDUCE (R279, R387 to R391, R454, R456): a copy is submitted and its step goes on beside it, a refused one is
left; a collective joins its group's queue. -/

namespace Sys2Proof.Machine

theorem tabFind_tabPut_other {α : Type} (t : Tab α) {i j : Nat} (v : α) (h : j ≠ i) :
    tabFind (tabPut t i v) j = tabFind t j := by
  induction t with
  | nil => simp [tabPut, tabFind, h.symm]
  | cons e t ih =>
    obtain ⟨k, w⟩ := e
    rcases lt_trichotomy k i with g | rfl | g
    · simp [tabPut, tabFind, g, ih]
    · simp [tabPut, tabFind, h.symm]
    · simp [tabPut, tabFind, not_lt.2 g.le, g.ne', h.symm]

/-! ## Copies in flight go on (R387, R388) -/

/-- The steps stay, and every copy in flight stays but for the lines it has issued. -/
structure CopiesGoOn (s t : State) : Prop where
  rgm : t.rgm = s.rgm
  copies : ∀ i c, tabFind s.fab.copies i = some c → ∃ k, tabFind t.fab.copies i = some { c with next := k }

namespace CopiesGoOn

theorem of_same {s t : State} (hr : t.rgm = s.rgm) (hc : t.fab.copies = s.fab.copies) : CopiesGoOn s t :=
  ⟨hr, fun _ c h => ⟨c.next, by rw [hc, h]⟩⟩

theorem refl (s : State) : CopiesGoOn s s := .of_same rfl rfl

theorem trans {s t u : State} (h : CopiesGoOn s t) (k : CopiesGoOn t u) : CopiesGoOn s u := by
  refine ⟨k.rgm.trans h.rgm, fun i c hc => ?_⟩
  obtain ⟨n, hn⟩ := h.copies i c hc
  obtain ⟨m, hm⟩ := k.copies i _ hn
  exact ⟨m, hm⟩

theorem foldl {α : Type} (f : State → α → State) (h : ∀ s a, CopiesGoOn s (f s a)) (l : List α) (s : State) :
    CopiesGoOn s (l.foldl f s) := by
  induction l generalizing s with
  | nil => exact .refl s
  | cons a l ih => exact (h s a).trans (ih _)

/-- A copy that has issued more lines is listed in its place. -/
theorem putNext {s : State} {i : Nat} {c : Copy} (h : tabFind s.fab.copies i = some c) (n : Nat) :
    CopiesGoOn s { s with fab := { s.fab with copies := tabPut s.fab.copies i { c with next := n } } } := by
  refine ⟨rfl, fun j d hd => ?_⟩
  by_cases hj : j = i
  · subst hj
    obtain rfl : c = d := Option.some.inj (h.symm.trans hd)
    exact ⟨n, tabFind_tabPut_same _ _ _⟩
  · exact ⟨d.next, (tabFind_tabPut_other _ _ hj).trans hd⟩

theorem addCtr (s : State) (a n : Nat) : CopiesGoOn s (s.addCtr a n) := .of_same rfl rfl

theorem accAdd (s : State) (a : Nat → Nat) (x n : Nat) : CopiesGoOn s (s.accAdd a x n) := .of_same (by simp) (by simp)

theorem chargeHbm (s : State) (x n : Nat) : CopiesGoOn s (s.chargeHbm x n) := .accAdd s _ _ _

theorem sendOn (s : State) (n : Nat) (p : Packet) : CopiesGoOn s (s.sendOn n p) := by
  unfold State.sendOn
  split
  · exact .refl s
  · exact (((CopiesGoOn.addCtr s _ 1).trans (.addCtr _ _ _)).trans (.accAdd _ _ _ _)).trans (.of_same rfl rfl)

theorem sendKept (s : State) (p : Packet) : CopiesGoOn s (s.sendKept p) := by
  unfold State.sendKept
  dsimp only
  split
  · exact .of_same rfl rfl
  · split
    · exact .of_same rfl rfl
    · exact (CopiesGoOn.sendOn s _ p).trans (.of_same rfl rfl)

theorem issue (s : State) (p : Packet) (lines : Nat) (copy : Option (Nat × Nat)) :
    CopiesGoOn s (s.issue p lines copy).2 := by
  unfold State.issue
  dsimp only
  split
  · exact .refl s
  · exact (CopiesGoOn.sendOn s _ _).trans (.of_same rfl rfl)

theorem sendHeld (s : State) (e : Nat × Packet) : CopiesGoOn s (s.sendHeld e) := by
  have hissue := issue s e.2 1 none
  unfold State.sendHeld
  dsimp only
  split
  · split
    · generalize s.issue e.2 1 none = r at hissue ⊢
      obtain ⟨b, t⟩ := r
      cases b
      · exact hissue.trans (.of_same rfl rfl)
      · exact hissue
    · exact .of_same rfl rfl
  · split
    · split
      · exact .of_same rfl rfl
      · next n _ =>
        split
        · exact (CopiesGoOn.sendOn s n e.2).trans (.of_same rfl rfl)
        · exact .sendOn s n e.2
    · exact .sendKept s e.2

end CopiesGoOn

/-- Issuing more of one copy leaves every copy in flight. -/
theorem pumpCopy_goesOn (k i : Nat) (s : State) : CopiesGoOn s (pumpCopy k i s) := by
  induction k generalizing s with
  | zero => exact .refl s
  | succ k ih =>
    unfold pumpCopy
    dsimp only
    split
    · exact .refl s
    next c hc =>
    split
    · exact .refl s
    split
    · exact .refl s
    have hissue := CopiesGoOn.issue s (s.copyPacket c).2 (s.copyPacket c).1 (some (i, c.next))
    generalize s.issue (s.copyPacket c).2 (s.copyPacket c).1 (some (i, c.next)) = r at hissue ⊢
    obtain ⟨b, t⟩ := r
    cases b
    · exact hissue
    · have hsent := hissue.trans (.chargeHbm t c.ctx (if c.pull then 0 else 128 * (s.copyPacket c).1))
      obtain ⟨n, hn⟩ := hsent.copies i c hc
      exact (hsent.trans (.putNext hn (c.next + (s.copyPacket c).1))).trans (ih _)

theorem State.pump_goesOn (s : State) : CopiesGoOn s s.pump := by
  have hclear : CopiesGoOn s { s with fab := { s.fab with held := [] } } := .of_same rfl rfl
  have hheld := hclear.trans (.foldl _ CopiesGoOn.sendHeld s.fab.held _)
  unfold State.pump State.pumpCopies
  split
  · exact .refl s
  · exact hheld.trans (.foldl _ (fun u (e : Nat × Nat) => pumpCopy_goesOn e.2 e.1 u) _ _)

/-- A submitted copy is in flight under its number, with the lines it could issue at once (R387, R391). -/
theorem State.submitCopy_effect (s : State) (c : Copy) :
    (s.submitCopy c).2.rgm = s.rgm ∧
      ∃ k, tabFind (s.submitCopy c).2.fab.copies s.freeCopy = some { c with next := k } := by
  have hpump := State.pump_goesOn { s with fab := { s.fab with copies := tabPut s.fab.copies s.freeCopy c } }
  exact ⟨hpump.rgm, hpump.copies _ c (tabFind_tabPut_same _ _ _)⟩

/-! ## The checks of a copy (R394 to R399) -/

/-- Two states differ at most in the ownership cache. -/
def CacheOnly (s t : State) : Prop := ∃ cache, t = { s with fab := { s.fab with ownCache := cache } }

theorem CacheOnly.refl (s : State) : CacheOnly s s := ⟨s.fab.ownCache, rfl⟩

theorem CacheOnly.foldl {α : Type} (f : State → α → State) (h : ∀ s a, CacheOnly s (f s a)) (l : List α) (s : State) :
    CacheOnly s (l.foldl f s) := by
  induction l generalizing s with
  | nil => exact .refl s
  | cons a l ih =>
    obtain ⟨c, hc⟩ := h s a
    obtain ⟨d, hd⟩ := ih (f s a)
    exact ⟨d, by rw [List.foldl_cons, hd, hc]⟩

/-- What the ownership checks of a copy leave: entries in the cache (R396). -/
theorem State.copyNote_only (s : State) (c : Copy) : CacheOnly s (s.copyNote c) := by
  unfold State.copyNote State.ownNote
  dsimp only
  split
  · exact .refl s
  · refine .foldl _ (fun u r => ?_) _ s
    split
    · exact .refl u
    · split
      · exact ⟨_, rfl⟩
      · exact .refl u

/-- A copy that a check refuses is counted, with its error bit and attention (R399). -/
theorem State.copyRefused_effect (s : State) (c : Copy) (e : CheckFail) :
    (s.copyRefused c e).rgm = s.rgm ∧ (s.copyRefused c e).fab.copies = s.fab.copies ∧
      (s.copyRefused c e).fab.out = s.fab.out ∧ SameMemory s (s.copyRefused c e) := by
  have hnoted : CacheOnly s (if e = .owner then s.copyNote c else s) := by
    split
    · exact s.copyNote_only c
    · exact .refl s
  unfold State.copyRefused State.checkRefused
  obtain ⟨cache, he⟩ := hnoted
  rw [he]
  simp [SameMemory]

/-! ## The step goes on beside its operation -/

theorem State.modStep_sameMemory (s : State) (x : Nat) (step : Word) (f : Step → Step) : SameMemory s (s.modStep x step f) :=
  ⟨rfl, rfl, rfl, rfl, rfl⟩

/-- A step stands at the op behind the one t stands at, with these operations in the air. -/
def Step.AtNextWith (t : Step) (l : List AsyncOp) (u : Step) : Prop :=
  u.op = (nextOp t.prog.ops t.iters t.op).1 ∧ u.iters = (nextOp t.prog.ops t.iters t.op).2 ∧ u.waiting = false ∧ u.asyncs = l

section Ops

variable {s s1 : State} {x : Nat} {t : Step} (ht : s.runner x = some t)

include ht

theorem State.finishOp_goesOnWithout (hrgm : s1.rgm = s.rgm) :
    StepHas (s1.finishOp t t.op) x t.desc.step (t.AtNextWith t.asyncs) := by
  obtain ⟨hmem, hx, -⟩ := State.runner_some ht
  have hlisted : StepHas s1 x t.desc.step (· = t) := stepHas_of_mem (hrgm ▸ hmem) hx rfl
  refine hlisted.finishOp hx ?_
  rintro u rfl
  exact ⟨rfl, rfl, rfl, rfl⟩

/-- The op ends with one more operation in the air. -/
theorem State.finishOp_goesOnWith (hrgm : s1.rgm = s.rgm) (a : AsyncOp) :
    StepHas ((s1.modStep x t.desc.step (fun u => { u with asyncs := u.asyncs ++ [a] })).finishOp t t.op) x t.desc.step
      (t.AtNextWith (t.asyncs ++ [a])) := by
  obtain ⟨hmem, hx, -⟩ := State.runner_some ht
  have hlisted : StepHas s1 x t.desc.step (· = t) := stepHas_of_mem (hrgm ▸ hmem) hx rfl
  have hadded : StepHas (s1.modStep x t.desc.step (fun u => { u with asyncs := u.asyncs ++ [a] })) x t.desc.step
      (·.asyncs = t.asyncs ++ [a]) :=
    hlisted.modStep (fun _ => rfl) fun u hu => by rw [hu]
  exact hadded.finishOp hx fun u hu => ⟨rfl, rfl, rfl, hu⟩

/-! ## The result of a copy op -/

variable (fetch : Bool)

/-- The copy that the op of a step describes. -/
def Step.opCopy (t : Step) (x : Nat) (fetch : Bool) : Copy :=
  copyOf (sliceBytes (t.prog.blk t.blk) 0 64) x (some t.desc.step) t.desc.bases t.desc.ctrOfs fetch

omit ht in
/-- The ownership cache names no port and no identity. -/
theorem CacheOnly.pickPort (h : CacheOnly s s1) (a src dst vc : Nat) :
    s1.pickPort a src dst vc = s.pickPort a src dst vc ∧ s1.srcOf x = s.srcOf x := by
  obtain ⟨_, rfl⟩ := h
  exact ⟨rfl, rfl⟩

/-- A copy that is carried and has its staging buffer is submitted under the lowest free number (R387, R391). -/
theorem State.opCopyOf_submits {hs : List Nat} {w : State} (hroom : s.fab.copies.length < 16384)
    (hcheck : s.copyCheck (t.opCopy x fetch) = none) (hport : s.pickPort 0 (s.srcOf x) (t.opCopy x fetch).peer 6 ≠ none)
    (hbuf : (s.copyNote (t.opCopy x fetch)).allocN 3 1 { ctx := x, part := t.part, partOnly := true } 4 = (some hs, w)) :
    (∃ k, tabFind (s.opCopyOf x t fetch).fab.copies s.freeCopy = some { t.opCopy x fetch with staging := hs, next := k }) ∧
      StepHas (s.opCopyOf x t fetch) x t.desc.step (t.AtNextWith (t.asyncs ++ [AsyncOp.copy s.freeCopy])) := by
  have hnote := s.copyNote_only (t.opCopy x fetch)
  obtain ⟨hp, hsrc⟩ := hnote.pickPort (x := x) 0 (s.srcOf x) (t.opCopy x fetch).peer 6
  have halloc := (s.copyNote (t.opCopy x fetch)).allocN_only 1 { ctx := x, part := t.part, partOnly := true } 4
    (show 3 < 8 by decide)
  rw [hbuf] at halloc
  have hfree : w.freeCopy = s.freeCopy ∧ w.rgm = s.rgm := by
    obtain ⟨cache, hc⟩ := hnote
    obtain ⟨⟨_, _, _, _, _, _, hw⟩, -, -⟩ := halloc
    rw [show w = _ from hw, hc]
    exact ⟨rfl, rfl⟩
  have hresult : s.opCopyOf x t fetch = ((w.submitCopy { t.opCopy x fetch with staging := hs }).2.modStep x t.desc.step
      (fun u => { u with asyncs := u.asyncs ++ [AsyncOp.copy w.freeCopy] })).finishOp t t.op := by
    have hok : s.copyRoom = true := by simpa [State.copyRoom] using hroom
    unfold Step.opCopy at hcheck hport hbuf hp hsrc ⊢
    unfold State.opCopyOf
    simp only [hok, hcheck, hbuf, hsrc, hp, Option.isNone_iff_eq_none, hport, if_false, Bool.not_true, Bool.false_eq_true]
    rfl
  obtain ⟨hrgm, hcopy⟩ := w.submitCopy_effect { t.opCopy x fetch with staging := hs }
  rw [hresult]
  constructor
  · rw [State.finishOp_fab, ← hfree.1]
    exact hcopy
  · rw [hfree.1]
    exact State.finishOp_goesOnWith ht (hrgm.trans hfree.2) _

/-- What a copy op that is not performed leaves: the outcome shown, and the step at its next op (R399). -/
def CopyLeft (s : State) (x : Nat) (t : Step) (r : State) : Prop :=
  r.fab.copyEnd = (x, 2) ∧ r.fab.copies = s.fab.copies ∧ r.fab.out = s.fab.out ∧ SameMemory s r ∧
    StepHas r x t.desc.step (t.AtNextWith t.asyncs)

theorem State.noteCopy_leaves (hrgm : s1.rgm = s.rgm) (hcopies : s1.fab.copies = s.fab.copies) (hout : s1.fab.out = s.fab.out)
    (hmem : SameMemory s s1) : CopyLeft s x t ((s1.noteCopy x 2).finishOp t t.op) := by
  unfold CopyLeft
  rw [State.finishOp_fab]
  exact ⟨rfl, hcopies, hout, hmem.trans (State.finishOp_sameMemory _ _ _), State.finishOp_goesOnWithout ht hrgm⟩

/-- A copy that a check refuses, or that no port carries, is not performed. -/
theorem State.opCopyOf_leaves (hroom : s.fab.copies.length < 16384)
    (hrefused : s.copyCheck (t.opCopy x fetch) ≠ none ∨ s.pickPort 0 (s.srcOf x) (t.opCopy x fetch).peer 6 = none) :
    CopyLeft s x t (s.opCopyOf x t fetch) := by
  have hok : s.copyRoom = true := by simpa [State.copyRoom] using hroom
  have hplain : CopyLeft s x t ((s.noteCopy x 2).finishOp t t.op) := State.noteCopy_leaves ht rfl rfl rfl (.refl s)
  unfold Step.opCopy at hrefused
  unfold State.opCopyOf
  simp only [hok, Bool.not_true, Bool.false_eq_true, if_false]
  generalize copyOf (sliceBytes (t.prog.blk t.blk) 0 64) x (some t.desc.step) t.desc.bases t.desc.ctrOfs fetch = c at hrefused ⊢
  cases hcheck : s.copyCheck c with
  | none =>
    have hport := hrefused.resolve_left fun h => h hcheck
    have hnote := s.copyNote_only c
    obtain ⟨hp, hsrc⟩ := hnote.pickPort (x := x) 0 (s.srcOf x) c.peer 6
    simp only [hsrc, hp, hport, Option.isNone_none, if_true]
    obtain ⟨cache, hc⟩ := hnote
    rw [hc]
    exact State.noteCopy_leaves ht rfl rfl rfl ⟨rfl, rfl, rfl, rfl, rfl⟩
  | some e =>
    cases e with
    | check e =>
      obtain ⟨hrgm, hcopies, hout, hmem⟩ := s.copyRefused_effect c e
      exact State.noteCopy_leaves ht hrgm hcopies hout hmem
    | malformed => exact hplain
    | full => exact hplain

/-- COPY and FETCH, as their commands run it. -/
theorem copyOp_completes {cmd : Instr} (hexec : exec cmd s = .next (s.opCopyOf x t fetch)) :
    let c := t.opCopy x fetch
    let port := s.pickPort 0 (s.srcOf x) c.peer 6
    s.fab.copies.length < 16384 →
    (∀ hs w, s.copyCheck c = none → port ≠ none →
      (s.copyNote c).allocN 3 1 { ctx := x, part := t.part, partOnly := true } 4 = (some hs, w) →
      Completes cmd s (fun r =>
        (∃ k, tabFind r.fab.copies s.freeCopy = some { c with staging := hs, next := k }) ∧
        StepHas r x t.desc.step (t.AtNextWith (t.asyncs ++ [AsyncOp.copy s.freeCopy])))) ∧
    (s.copyCheck c ≠ none ∨ port = none → Completes cmd s (CopyLeft s x t)) := by
  intro c port hroom
  exact ⟨fun hs w hcheck hport hbuf => ⟨_, hexec, State.opCopyOf_submits ht fetch hroom hcheck hport hbuf⟩,
    fun hrefused => ⟨_, hexec, State.opCopyOf_leaves ht fetch hroom hrefused⟩⟩

/-! ## REDUCE (R454, R456) -/

omit ht in
/-- A request joins its group's queue; steps and memories stay (R457). -/
theorem State.queueCol_effect {g : Nat} {v : ColGroup} (q : ColReq) (hv : s.group g = some v) :
    ((s.queueCol g q).group g).map (fun k => k.queue) = some (v.queue ++ [q]) ∧ (s.queueCol g q).rgm = s.rgm ∧
      SameMemory s (s.queueCol g q) := by
  unfold State.queueCol
  rw [hv]
  refine ⟨?_, rfl, rfl, rfl, rfl, rfl, rfl⟩
  simp only [State.group, State.setGroup, tabFind_tabPut_same, Option.map_some]

/-- An accepted collective joins its group's queue and the step's operations, and the step goes on. -/
theorem opReduce_submits {g : Nat} {q : ColReq} {v : ColGroup} (hv : s.group g = some v)
    (hexec : exec (.opReduce x) s = .next (((s.queueCol g q).modStep x t.desc.step
      (fun u => { u with asyncs := u.asyncs ++ [AsyncOp.coll g q.seq] })).finishOp t t.op)) :
    Completes (.opReduce x) s (fun r => (r.group g).map (fun k => k.queue) = some (v.queue ++ [q]) ∧ SameMemory s r ∧
      StepHas r x t.desc.step (t.AtNextWith (t.asyncs ++ [AsyncOp.coll g q.seq]))) := by
  obtain ⟨hqueue, hrgm, hmem⟩ := State.queueCol_effect q hv
  refine ⟨_, hexec, ?_, hmem.trans ((State.modStep_sameMemory _ _ _ _).trans (State.finishOp_sameMemory _ _ _)),
    State.finishOp_goesOnWith ht hrgm _⟩
  rw [State.group, State.finishOp_col]
  exact hqueue

/-- A collective that is refused aborts the step. -/
theorem opReduce_aborts {e : Option CheckFail} (h0 : t.abort = 0)
    (hexec : exec (.opReduce x) s = .next ((e.elim s s.checkRefused).abortStep t 0x33)) :
    Completes (.opReduce x) s (fun r => StepHas r x t.desc.step (fun u => u.phase = .draining ∧ u.abort = 0x33)) := by
  obtain ⟨hmem, rfl, hphase⟩ := State.runner_some ht
  have hrgm : (e.elim s s.checkRefused).rgm = s.rgm := by
    cases e with
    | none => rfl
    | some e => simp [State.checkRefused]
  exact ⟨_, hexec, State.abortStep_drains _ t h0 hphase ⟨t, hrgm ▸ hmem, t.is_self⟩⟩

end Ops

/-- Settles O23: the copy ops share one lemma, and a REDUCE splits on whether its collective is accepted. -/
theorem copyAndReduceOpsGoOn : Obligations.CopyAndReduceOpsGoOn := by
  intro s x t o ht ho hw hg n d C
  have hperform (k : Step → RouteOp → State) {m : Nat} (hop : o.opcode = m) : s.atOp x (·.opcode == m) k = k t o :=
    State.atOp_performs k ht ho hw hg hop
  refine ⟨fun hop => copyOp_completes ht false (congrArg Host.Outcome.next (hperform _ hop)),
    fun hop => copyOp_completes ht true (congrArg Host.Outcome.next (hperform _ hop)), ?_⟩
  intro hop g r
  have hexec : exec (.opReduce x) s = execOpReduce x s := rfl
  rw [execOpReduce, hperform _ hop] at hexec
  dsimp only at hexec
  refine ⟨fun q v hr hv => opReduce_submits ht hv ?_, fun e hr h0 => opReduce_aborts (e := e) ht h0 ?_⟩
  · rw [hexec, show s.colRequest d x (some t.desc.step) t.desc.bases t.desc.ctrOfs = .inl q from hr]
  · rw [hexec, show s.colRequest d x (some t.desc.step) t.desc.bases t.desc.ctrOfs = .inr e from hr]

end Sys2Proof.Machine
end

section
/-! STEP_START (R284, R302): the admitted step runs, its COMBINE counters at 0. -/

namespace Sys2Proof.Machine

/-- The register of the arrival counter that STEP_START clears for an op that the program reaches: a COMBINE's (R284). -/
def Step.combineCtr (t : Step) (r : Nat × Tab Nat) : Option Nat :=
  (t.prog.ops[r.1]?).bind fun o =>
    if o.opcode = opCombine then some (aCtr ((t.prog.at (effParam t.prog.ops r.2 r.1) 4 2 + t.desc.ctrOfs) % 65536)) else none

theorem Step.combineCtr_ge {t : Step} {r : Nat × Tab Nat} {a : Nat} (h : t.combineCtr r = some a) : aCtr 0 ≤ a := by
  obtain ⟨o, -, ho⟩ := Option.bind_eq_some_iff.1 h
  split at ho
  · cases ho
    unfold aCtr
    omega
  · cases ho

/-- The registers of a list cleared one by one. -/
def State.clearRegs {α : Type} (f : α → Option Nat) (l : List α) (s : State) : State :=
  l.foldl (fun u k => (f k).elim u (u.setReg · 0)) s

/-- Each register named reads 0, the others stay, and nothing but registers changes. -/
theorem State.clearRegs_effect {α : Type} (f : α → Option Nat) (l : List α) (s : State) :
    (∃ regs, s.clearRegs f l = { s with regs := regs }) ∧ (∀ k ∈ l, ∀ a, f k = some a → (s.clearRegs f l).reg a = 0) ∧
      ∀ a, (∀ k ∈ l, f k ≠ some a) → (s.clearRegs f l).reg a = s.reg a := by
  induction l generalizing s with
  | nil => exact ⟨⟨s.regs, rfl⟩, by simp, fun _ _ => rfl⟩
  | cons k l ih =>
    cases hk : f k with
    | none =>
      have hcons : s.clearRegs f (k :: l) = s.clearRegs f l := by simp [State.clearRegs, hk]
      obtain ⟨hframe, hzero, hstay⟩ := ih s
      rw [hcons]
      refine ⟨hframe, fun j hj a ha => ?_, fun a ha => hstay a fun j hj => ha j (List.mem_cons_of_mem _ hj)⟩
      rcases List.mem_cons.1 hj with rfl | hj
      · simp [hk] at ha
      · exact hzero j hj a ha
    | some c =>
      have hcons : s.clearRegs f (k :: l) = (s.setReg c 0).clearRegs f l := by simp [State.clearRegs, hk]
      obtain ⟨⟨regs, hframe⟩, hzero, hstay⟩ := ih (s.setReg c 0)
      rw [hcons]
      refine ⟨⟨regs, hframe⟩, fun j hj a ha => ?_, fun a ha => ?_⟩
      · by_cases hl : ∃ i ∈ l, f i = some a
        · obtain ⟨i, hi, hia⟩ := hl
          exact hzero i hi a hia
        · have hja : a = c := by
            rcases List.mem_cons.1 hj with rfl | hj
            · exact Option.some.inj (ha.symm.trans hk)
            · exact absurd ⟨j, hj, ha⟩ hl
          rw [hstay a fun i hi hia => hl ⟨i, hi, hia⟩, hja, s.reg_setReg_same]
      · have hne : a ≠ c := fun h => ha k List.mem_cons_self (h ▸ hk)
        rw [hstay a fun i hi => ha i (List.mem_cons_of_mem _ hi), s.reg_setReg_other _ hne]

/-- STEP_START, written with the counters it clears. -/
theorem exec_stepStart {s : State} {x : Nat} {t : Step}
    (ht : s.rgm.steps.find? (fun t => t.desc.ctx == x && t.phase == .admitted) = some t) (hrun : s.running x = none)
    (hctx : s.ctxState x = 2) (hhalt : s.halted = false) :
    exec (.stepStart x) s = .next (((s.clearRegs t.combineCtr t.prog.runs).modStep x t.desc.step (fun u => { u with
      phase := .running, tStart := word s.tb, lastProgress := word s.tclk })).readied s x) := by
  have hexec : exec (.stepStart x) s = execStepStart x s := rfl
  rw [hexec, execStepStart, ht]
  simp only [hrun, hctx, hhalt, Option.isSome_none, bne_self_eq_false, Bool.or_self, Bool.false_eq_true, if_false]
  unfold State.clearRegs Step.combineCtr
  congr 4
  funext u r
  cases t.prog.ops[r.1]? with
  | none => rfl
  | some o => by_cases ho : o.opcode = opCombine <;> simp [ho]

/-- Settles O19: the cleared registers are arrival counters, and the virtual time lies below them. -/
theorem admittedStepsStart : Obligations.AdmittedStepsStart := by
  intro s x t hx ht hrun hctx hhalt
  obtain ⟨⟨regs, hframe⟩, hzero, hstay⟩ := s.clearRegs_effect t.combineCtr t.prog.runs
  have hlisted : StepHas (s.clearRegs t.combineCtr t.prog.runs) x t.desc.step (· = t) := by
    have hp := List.find?_some ht
    simp only [Bool.and_eq_true, beq_iff_eq] at hp
    rw [hframe]
    exact stepHas_of_mem (List.mem_of_find?_eq_some ht) hp.1 rfl
  have hmem : SameMemory s (s.clearRegs t.combineCtr t.prog.runs) := by
    rw [hframe]
    exact ⟨rfl, rfl, rfl, rfl, rfl⟩
  refine ⟨_, exec_stepStart ht hrun hctx hhalt, ?_⟩
  generalize s.clearRegs t.combineCtr t.prog.runs = s1 at hzero hstay hlisted hmem
  obtain ⟨-, hrgm, hregs, hmem2⟩ := (s1.modStep x t.desc.step (fun u => { u with
    phase := .running, tStart := word s.tb, lastProgress := word s.tclk })).readied_effect s x
  have hvtime {a : Nat} (ha : aCtr 0 ≤ a) : a ∉ [aCtxVtime x] := by
    unfold aCtr at ha
    unfold aCtxVtime
    simp
    omega
  refine ⟨?_, fun k hk o ho hop => ?_, fun a ha hne => ?_, ?_⟩
  · rw [StepHas, hrgm]
    exact hlisted.modStep (fun _ => rfl) fun u hu => ⟨rfl, rfl, by rw [hu]⟩
  · have hctr : t.combineCtr k = some (aCtr ((t.prog.at (effParam t.prog.ops k.2 k.1) 4 2 + t.desc.ctrOfs) % 65536)) := by
      rw [Step.combineCtr, ho, Option.bind_some, if_pos hop]
    rw [hregs _ (hvtime (Step.combineCtr_ge hctr))]
    exact hzero k hk _ hctr
  · rw [hregs a (by simpa using hne)]
    exact hstay a fun k _ hk => absurd (Step.combineCtr_ge hk) (by omega)
  · exact hmem.trans ((State.modStep_sameMemory _ _ _ _).trans hmem2)

end Sys2Proof.Machine
end

section
/-! STEP_ADMIT against O18 (R295, R761): a lane that enters at the boundary is not among the lanes of the step admitted then. -/

namespace Sys2Proof.Machine

/-- Lane 0 of partition 0 in service, its lane 1 asked to return, and a step queued that may be admitted. -/
def laneReturning : State :=
  let s := staffed (((up3 0 0).withProg markProg).withSteps [step3 0 .queued markProg])
  let s := s.setCtx 3 { s.ctx 3 with weightsOf := some 1 }
  (s.setReg (aParLaneLo 0) 3).setReg (aLanCtrl 1) 0x201

/-- A decision that lets the step in, with everything it takes at hand. -/
def State.admitsAt (b : State) (t : Step) (q : Program) (p : Nat) : Bool :=
  match b.admission t q with
  | .enter plan _ _ grow tr => ((b.yielded t.desc.ctx q plan).takeTable t.desc.ctx tr).any (fun v =>
      (v.allocN classFive (total grow) (chargeOf t.desc.ctx p) 0).1.isSome)
  | _ => false

theorem State.admitsAt_elim {b : State} {t : Step} {q : Program} {p : Nat} (h : b.admitsAt t q p = true) :
    ∃ plan taken deferred grow tr v hs w, b.admission t q = .enter plan taken deferred grow tr ∧
      (b.yielded t.desc.ctx q plan).takeTable t.desc.ctx tr = some v ∧
      v.allocN classFive (total grow) (chargeOf t.desc.ctx p) 0 = (some hs, w) := by
  unfold State.admitsAt at h
  split at h
  · next plan taken deferred grow tr hd =>
    obtain ⟨v, hv, hbuf⟩ := (Option.any_eq_true _ _).1 h
    obtain ⟨hs, hhs⟩ := Option.isSome_iff_exists.1 hbuf
    exact ⟨plan, taken, deferred, grow, tr, v, hs, _, hd, hv, Prod.ext hhs rfl⟩
  · cases h

/-- The queued step meets every premise of an admission. -/
theorem laneReturning_admits :
    let s := laneReturning
    let t := step3 0 .queued markProg
    let b := s.lanesAtBoundary 0
    s.rgm.steps.find? (fun u => u.part == 0 && !u.wasAdmitted) = some t ∧ s.eligible t = true ∧
    s.newest t.desc.prog = some markProg ∧ (b.ctx 3).weightsOf = some markProg.ver ∧ b.admitsAt t markProg 0 = true ∧
    b.ring.recs = [] ∧ b.ring.rows = [] ∧ b.ring.closes = [] ∧ b.stepOf 3 9 = some t := by decide +kernel

/-- Both lanes are in service at the boundary; the step that is admitted there has the one of before. -/
theorem laneReturning_lost :
    (laneReturning.lanesAtBoundary 0).lanesIn 0 = [0, 1] ∧
    (laneReturning.after (.stepAdmit 0)).rgm.steps.map (·.lanes) = [[0]] := by decide +kernel

/-- Refutes O18: STEP_ADMIT decides in the state whose lanes have entered, but carries the admission out in the one before
(`State.enterStep` takes the state to fall back on first), so a lane that enters at the boundary is missing from the step. -/
theorem not_turnstileAdmitsTheOldestStep : ¬ Obligations.TurnstileAdmitsTheOldestStep := by
  intro h
  obtain ⟨hfind, hlook, hnew, hweights, hadmits, hrec, hrow, hclose, hof⟩ := laneReturning_admits
  obtain ⟨plan, taken, deferred, grow, tr, v, hs, w, hd, htable, hbufs⟩ := State.admitsAt_elim hadmits
  obtain ⟨⟨henter, -⟩, -⟩ := (h laneReturning 0 (step3 0 .queued markProg) (by decide) (by decide) hfind rfl hlook).imp_left (· _ hnew)
  obtain ⟨r, hr, ⟨u, hu, -, -, -, hlanes, -⟩, -⟩ :=
    henter plan taken deferred grow tr v hs w hweights hd htable hbufs hrec hrow hclose hof
  obtain ⟨hboundary, hafter⟩ := laneReturning_lost
  have hlisted : u.lanes ∈ (laneReturning.after (.stepAdmit 0)).rgm.steps.map (·.lanes) := by
    rw [State.after, hr]
    exact List.mem_map_of_mem hu
  rw [hafter, hlanes, hboundary] at hlisted
  exact absurd hlisted (by decide)

end Sys2Proof.Machine
end

section
/-! Layer groups (R278, R442): one opens at its first op, and one that is over leaves its counts with the step. -/

namespace Sys2Proof.Machine

/-! ## Work on records leaves steps and memories -/

/-- Steps and memories stay. -/
def StepsAndMemory (s t : State) : Prop := t.rgm = s.rgm ∧ SameMemory s t

namespace StepsAndMemory

theorem refl (s : State) : StepsAndMemory s s := ⟨rfl, .refl s⟩

theorem trans {s t u : State} (h : StepsAndMemory s t) (k : StepsAndMemory t u) : StepsAndMemory s u :=
  ⟨k.1.trans h.1, h.2.trans k.2⟩

theorem foldl {α : Type} {f : State → α → State} (h : ∀ s a, StepsAndMemory s (f s a)) (l : List α) (s : State) :
    StepsAndMemory s (l.foldl f s) := by
  induction l generalizing s with
  | nil => exact .refl s
  | cons a l ih => exact (h s a).trans (ih _)

theorem setReg (s : State) (a : Nat) (v : Word) : StepsAndMemory s (s.setReg a v) := ⟨rfl, rfl, rfl, rfl, rfl, rfl⟩

theorem bump (s : State) (a : Nat) : StepsAndMemory s (s.bump a) := .setReg s a _

theorem errBit (s : State) (a n cause : Nat) : StepsAndMemory s (s.errBit a n cause) := by
  simp [StepsAndMemory, SameMemory]

end StepsAndMemory

theorem FabricOnly.stepsAndMemory {s t : State} (h : FabricOnly s t) : StepsAndMemory s t := by
  obtain ⟨_, _, rfl, -⟩ := h
  exact ⟨rfl, rfl, rfl, rfl, rfl, rfl⟩

theorem State.formRecord_stays (s : State) (x : Nat) (t : Step) (ws : List Word) (chain : Word) :
    StepsAndMemory s (s.formRecord x t ws chain).2 :=
  ⟨(s.formRecord_effect x t ws chain).1, (s.formRecord_effect x t ws chain).2.2⟩

/-- A record queued for the flash log, or left out, is not yet written (R535). -/
theorem State.recordToFlash_stays (s : State) (b : Bytes) (mismatch : Bool) :
    StepsAndMemory s (s.recordToFlash b mismatch) := by
  unfold State.recordToFlash State.queueFlash
  dsimp only
  split
  · next h =>
    split at h
    · cases h
    · cases h
      exact ⟨rfl, rfl, rfl, rfl, rfl, rfl⟩
  · simp [StepsAndMemory, SameMemory]

theorem State.setStep_sameMemory (s : State) (t : Step) : SameMemory s (s.setStep t) := ⟨rfl, rfl, rfl, rfl, rfl⟩

/-! ## Lock-step at the end of a layer (R540, R541) -/

theorem State.setLs_stays (s : State) (i : Nat) (e : LsEntry) : StepsAndMemory s (s.setLs i e) := ⟨rfl, rfl, rfl, rfl, rfl, rfl⟩

theorem State.lsSend_stays (s : State) (x : Nat) (step : Word) (layer kind stage first count : Nat) (body : Bytes) :
    StepsAndMemory s (s.lsSend x step layer kind stage first count body) := (s.sendKept_only _).stepsAndMemory

theorem State.lsArray_stays (s : State) (x : Nat) (step : Word) (layer kind : Nat) (l : List (Word × Word)) :
    StepsAndMemory s (s.lsArray x step layer kind l) := .foldl (fun s _ => s.lsSend_stays _ _ _ _ _ _ _ _) _ s

theorem State.lsFill_stays (s : State) (i stage layer lane lo hi : Nat) :
    StepsAndMemory s (s.lsFill i stage layer lane lo hi) := by
  unfold State.lsFill
  dsimp only
  exact (((StepsAndMemory.setReg s _ _).trans (.setReg _ _ _)).trans (State.formRecord_stays _ _ _ _ _)).trans
    ((State.recordToFlash_stays _ _ _).trans (.errBit _ _ _ _))

theorem State.lsResolve_stays (s : State) (i : Nat) : StepsAndMemory s (s.lsResolve i) := by
  unfold State.lsResolve
  dsimp only
  split
  · split
    · exact .refl s
    · exact (s.lsFill_stays _ _ _ _ _ _).trans (State.setLs_stays _ _ _)
  · exact .refl s

/-- At most the mark of a freeze is set in the steps (R541); memories stay. -/
def MarksOnly (s t : State) : Prop := (∃ y, FrozenOnly y s t) ∧ SameMemory s t

theorem StepsAndMemory.marks {s t : State} (h : StepsAndMemory s t) : MarksOnly s t := ⟨⟨0, .inl h.1⟩, h.2⟩

theorem MarksOnly.before {s t u : State} (h : StepsAndMemory s t) (k : MarksOnly t u) : MarksOnly s u := by
  obtain ⟨⟨y, hf⟩, hm⟩ := k
  refine ⟨⟨y, ?_⟩, h.2.trans hm⟩
  simpa only [FrozenOnly, State.running, State.setStep, h.1] using hf

theorem MarksOnly.after {s t u : State} (h : MarksOnly s t) (k : StepsAndMemory t u) : MarksOnly s u := by
  obtain ⟨⟨y, hf⟩, hm⟩ := h
  exact ⟨⟨y, hf.of_rgm k.1⟩, hm.trans k.2⟩

theorem State.lsMark_marks (s : State) {i : Nat} (h : i < 16) : MarksOnly s (s.lsMark i) := by
  refine ⟨⟨_, (s.lsMark_effect h).2⟩, ?_⟩
  unfold State.lsMark
  dsimp only
  have hset : SameMemory s (s.setF (aWayLsCfg i) 34 33 2) := (StepsAndMemory.setReg s _ _).2
  split
  · exact hset.trans (State.setStep_sameMemory _ _)
  · exact hset

theorem State.lsCompare_marks (s : State) {i : Nat} (h : i < 16) : MarksOnly s (s.lsCompare i) := by
  unfold State.lsCompare
  dsimp only
  split
  · exact (StepsAndMemory.refl s).marks
  split
  · exact (StepsAndMemory.refl s).marks
  split
  · exact ((s.setLs_stays _ _).trans (.bump _ _)).marks
  · refine MarksOnly.after ?_ (State.lsResolve_stays _ _)
    refine MarksOnly.after ?_ (State.lsArray_stays _ _ _ _ _ _)
    refine MarksOnly.after ?_ (State.lsArray_stays _ _ _ _ _ _)
    exact .before (s.setLs_stays _ _) (State.lsMark_marks _ h)

theorem State.lsLayerDone_marks (s : State) (t : Step) (g : Group) : MarksOnly s (s.lsLayerDone t g) := by
  unfold State.lsLayerDone
  dsimp only
  split
  · exact (StepsAndMemory.refl s).marks
  · next i hi =>
    have hlt : i < 16 := List.mem_range.1 (List.mem_of_find?_eq_some hi)
    split
    · exact (StepsAndMemory.refl s).marks
    · exact .before ((s.lsSend_stays _ _ _ _ _ _ _ _).trans (State.setLs_stays _ _ _)) (State.lsCompare_marks _ hlt)

/-- What holds of every step of a name, frozen or not, outlasts a freeze. -/
theorem StepsHave.marks {s t : State} {x : Nat} {step : Word} {P : Step → Prop} (h : StepsHave s x step P)
    (hp : ∀ w, P w → P { w with frozen := true }) (k : MarksOnly s t) : StepsHave t x step P := by
  obtain ⟨⟨y, he | ⟨u, hu, he⟩⟩, -⟩ := k
  · rwa [StepsHave, he]
  obtain ⟨⟨w, hw, hi⟩, hall⟩ := h
  have hsteps : t.rgm.steps = s.rgm.steps.map (fun v => if v.is u.desc.ctx u.desc.step then { u with frozen := true } else v) :=
    congrArg Rgm.steps he
  have hname (v : Step) : (if v.is u.desc.ctx u.desc.step then { u with frozen := true } else v).is x step = v.is x step := by
    split
    · next hvu =>
      obtain ⟨hctx, hstep⟩ := Step.is_iff.1 hvu
      simp only [Step.is, hctx, hstep]
    · rfl
  rw [StepsHave, hsteps]
  refine ⟨⟨_, List.mem_map_of_mem hw, (hname w).trans hi⟩, fun v hv hvi => ?_⟩
  obtain ⟨q, hq, rfl⟩ := List.mem_map.1 hv
  rw [hname] at hvi
  split
  · next hqu =>
    obtain ⟨hctx, hstep⟩ := Step.is_iff.1 hqu
    refine hp u (hall u (State.running_some hu).1 ?_)
    rwa [Step.is, ← hctx, ← hstep]
  · exact hall q hq hvi

/-! ## Every step of a name -/

theorem StepsHave.mono {s : State} {x : Nat} {step : Word} {P Q : Step → Prop} (h : StepsHave s x step P)
    (hq : ∀ w, P w → Q w) : StepsHave s x step Q := ⟨h.1, fun w hw hi => hq w (h.2 w hw hi)⟩


theorem StepsHave.of_setStep {s : State} {t : Step} (h : t ∈ s.rgm.steps) (u : Step) (hd : u.desc = t.desc) :
    StepsHave (s.setStep u) t.desc.ctx t.desc.step (· = u) := by
  have hself : u.is t.desc.ctx t.desc.step = true := by rw [← hd]; exact u.is_self
  refine ⟨⟨u, List.mem_map.2 ⟨t, h, ?_⟩, hself⟩, fun v hv hvi => ?_⟩
  · rw [hd, if_pos t.is_self]
  · obtain ⟨w, -, rfl⟩ := List.mem_map.1 hv
    rw [hd] at hvi ⊢
    by_cases hw : w.is t.desc.ctx t.desc.step = true
    · rw [if_pos hw]
    · rw [if_neg hw] at hvi
      exact absurd hvi hw

theorem StepsHave.finishOp {s : State} {t : Step} {i : Nat} {P : Step → Prop}
    (h : StepsHave s t.desc.ctx t.desc.step P) :
    StepsHave (s.finishOp t i) t.desc.ctx t.desc.step (fun u => ∃ w, P w ∧ u = t.wentOn i w) := by
  obtain ⟨⟨w, hw, hi⟩, hall⟩ := h
  rw [StepsHave, State.finishOp_steps]
  refine ⟨⟨t.wentOn i w, List.mem_map.2 ⟨w, hw, if_pos hi⟩, hi⟩, fun v hv hvi => ?_⟩
  obtain ⟨u, hu, rfl⟩ := List.mem_map.1 hv
  by_cases hname : u.is t.desc.ctx t.desc.step = true
  · rw [if_pos hname]
    exact ⟨u, hall u hu hname, rfl⟩
  · rw [if_neg hname] at hvi
    exact absurd hvi hname

/-! ## Opening -/

theorem mem_setInsert_of_mem {l : List Nat} {i : Nat} (j : Nat) (h : i ∈ l) : i ∈ setInsert l j := by
  induction l with
  | nil => cases h
  | cons k l ih =>
    unfold setInsert
    split
    · rcases List.mem_cons.1 h with rfl | h
      · exact List.mem_cons_self
      · exact List.mem_cons_of_mem k (ih h)
    · split
      · exact h
      · exact List.mem_cons_of_mem j h

theorem mem_foldl_setInsert {l m : List Nat} {i : Nat} (h : i ∈ m ∨ i ∈ l) : i ∈ l.foldl setInsert m := by
  induction l generalizing m with
  | nil => exact h.resolve_right (by simp)
  | cons j l ih =>
    refine ih ?_
    rcases h with h | h
    · exact .inl (mem_setInsert_of_mem j h)
    · rcases List.mem_cons.1 h with rfl | h
      · exact .inl (mem_setInsert_self m i)
      · exact .inr h

/-- A lane that one of the experts reaches is among those collected. -/
theorem mem_foldl_lanes (f : Nat → List Nat) {es m : List Nat} {n : Nat} (h : n ∈ m ∨ ∃ e ∈ es, n ∈ f e) :
    n ∈ es.foldl (fun m e => (f e).foldl setInsert m) m := by
  induction es generalizing m with
  | nil => exact h.resolve_right (by simp)
  | cons a es ih =>
    refine ih ?_
    rcases h with h | ⟨e, he, hn⟩
    · exact .inl (mem_foldl_setInsert (.inl h))
    · rcases List.mem_cons.1 he with rfl | he
      · exact .inl (mem_foldl_setInsert (.inr hn))
      · exact .inr ⟨e, he, hn⟩

/-- Every lane that an expert of the new group reaches is listed in it, with no batch closed (R148). -/
theorem State.openGroup_lanes (s : State) (t : Step) (k : Nat) (o : RouteOp) {e n : Nat}
    (he : e ∈ s.localExperts t (s.openGroup t k o)) (hn : n ∈ t.physOf (s.openGroup t k o) e) :
    ∃ l ∈ (s.openGroup t k o).lanes, l.lane = n ∧ l.closed = [] :=
  ⟨_, List.mem_map_of_mem (mem_foldl_lanes (t.physOf (s.openGroup t k o)) (.inr ⟨e, he, hn⟩)), rfl, rfl⟩

section Group

variable {s : State} {x : Nat} {t : Step} (ht : s.runner x = some t)

include ht

/-- LAYER_GROUP_START with the layer's borrowed weights there. -/
theorem layerGroupStart_opens {k : Nat} (hk : groupScore t.prog.ops t.op = some k) (hg : t.group = none)
    (hready : s.borrowReady t (effLayer t.prog.ops t.iters k) = true) :
    Completes (.layerGroupStart x) s (fun r => SameMemory s r ∧ SameRegsBut [aCtxVtime x] s r ∧
      StepHas r x t.desc.step (fun u => ∃ g, u.group = some g ∧ g.layer = effLayer t.prog.ops t.iters k ∧
        g.enter = t.tokens.filter (fun i => (tabFind t.exited i).isNone) ∧ g.untiled = g.enter ∧ g.tile = none ∧
        g.toks = [] ∧ g.closed = false ∧
        ∀ e ∈ s.localExperts t g, ∀ n ∈ t.physOf g e, ∃ l ∈ g.lanes, l.lane = n ∧ l.closed = [])) := by
  obtain ⟨-, hx, -⟩ := State.runner_some ht
  have hexec : exec (.layerGroupStart x) s =
      .next ((s.setStep { t with group := some (s.openGroup t k ((t.prog.ops[k]?).getD default)) }).readied s x) := by
    have hrun : exec (.layerGroupStart x) s = execLayerGroupStart x s := rfl
    rw [hrun, execLayerGroupStart, ht]
    simp [hk, hg, hready]
  obtain ⟨-, hrgm, hregs, hmem⟩ :=
    (s.setStep { t with group := some (s.openGroup t k ((t.prog.ops[k]?).getD default)) }).readied_effect s x
  refine ⟨_, hexec, (s.setStep_sameMemory _).trans hmem, hregs, ?_⟩
  rw [StepHas, hrgm]
  exact (State.stepHas_runner ht).setStep (Step.is_iff.2 ⟨hx, rfl⟩)
    ⟨_, rfl, rfl, rfl, rfl, rfl, rfl, rfl, fun e he n hn => s.openGroup_lanes t k _ he hn⟩

theorem layerGroupStart_waits {k : Nat} (hk : groupScore t.prog.ops t.op = some k)
    (hready : s.borrowReady t (effLayer t.prog.ops t.iters k) = false) : exec (.layerGroupStart x) s = .next s := by
  have hrun : exec (.layerGroupStart x) s = execLayerGroupStart x s := rfl
  rw [hrun, execLayerGroupStart, ht]
  simp [hk, hready]

/-! ## Completing -/

omit ht in
/-- A step without its group, which has left its counts with it (R278, R529). -/
def Step.groupLeft (s : State) (t : Step) (g : Group) : Step :=
  { t with
    group := none, tails := if s.batchesClosed t g then t.tails else t.tails ++ [g]
    sums := { t.sums with
      choices := t.sums.choices + g.tally.getD 0 0, shadowed := t.sums.shadowed + g.tally.getD 1 0
      dropped := t.sums.dropped + g.tally.getD 2 0, moved := t.sums.moved + g.tally.getD 3 0
      digest := mix (t.sums.digest ^^^ dselOf g.layer g.tsel), layer := g.layer }
    layerTime := t.layerTime + (s.tb - g.started.toNat), layersDone := t.layersDone + 1 }

/-- LAYER_GROUP_DONE of a group that is over. -/
theorem layerGroupDone_closes {g : Group} (hg : t.group = some g) (hclosed : g.closed = true)
    (htoks : g.toks.length = g.enter.length) (hcounted : ∀ k ∈ g.toks, k.counted = true) :
    Completes (.layerGroupDone x) s (fun r => SameMemory s r ∧
      StepHas r x t.desc.step (fun u => u.group = none ∧ u.layersDone = t.layersDone + 1 ∧
        u.tails = (if s.batchesClosed t g then t.tails else t.tails ++ [g]) ∧
        u.sums.choices = t.sums.choices + g.tally.getD 0 0 ∧ u.sums.shadowed = t.sums.shadowed + g.tally.getD 1 0 ∧
        u.sums.dropped = t.sums.dropped + g.tally.getD 2 0 ∧ u.sums.moved = t.sums.moved + g.tally.getD 3 0 ∧
        u.op = (nextOp t.prog.ops t.iters ((groupScore t.prog.ops g.first).getD g.first + 4)).1)) := by
  obtain ⟨hmem, rfl, -⟩ := State.runner_some ht
  have hover : g.over = true := by simpa [Group.over, hclosed, htoks] using hcounted
  have hexec : exec (.layerGroupDone t.desc.ctx) s = .next (((s.setStep (t.groupLeft s g)).finishOp (t.groupLeft s g)
      ((groupScore t.prog.ops g.first).getD g.first + 4)).lsLayerDone (t.groupLeft s g) g) := by
    have hrun : exec (.layerGroupDone t.desc.ctx) s = execLayerGroupDone t.desc.ctx s := rfl
    rw [hrun, execLayerGroupDone, ht]
    simp only [hg, hover, Bool.not_true, Bool.false_eq_true, if_false]
    rfl
  have hset : StepsHave (s.setStep (t.groupLeft s g)) t.desc.ctx t.desc.step (· = t.groupLeft s g) := .of_setStep hmem _ rfl
  have hfinish := StepsHave.finishOp (t := t.groupLeft s g) (i := (groupScore t.prog.ops g.first).getD g.first + 4) hset
  have hmarks := ((s.setStep (t.groupLeft s g)).finishOp (t.groupLeft s g)
    ((groupScore t.prog.ops g.first).getD g.first + 4)).lsLayerDone_marks (t.groupLeft s g) g
  refine ⟨_, hexec, ?_, ?_⟩
  · exact ((s.setStep_sameMemory _).trans (State.finishOp_sameMemory _ _ _)).trans hmarks.2
  · refine ((hfinish.mono ?_).marks ?_ hmarks).stepHas
    · rintro u ⟨w, rfl, rfl⟩
      exact ⟨rfl, rfl, rfl, rfl, rfl, rfl, rfl, rfl⟩
    · exact fun w hw => hw

end Group

/-- Settles O24: the group opens with its lanes collected, and leaves its counts where no freeze reaches them. -/
theorem layerGroupsOpenAndClose : Obligations.LayerGroupsOpenAndClose := by
  intro s x t ht
  exact ⟨fun k hk hg => ⟨layerGroupStart_opens ht hk hg, layerGroupStart_waits ht hk⟩, fun g => layerGroupDone_closes ht⟩

end Sys2Proof.Machine
end

section
/-! STEP_COMPLETE (R286, R305 to R307, R761): the final record is formed, and then the completion record written. -/

namespace Sys2Proof.Machine

/-! ## The final record (R528, R531) -/

theorem length_natLe (n v : Nat) : (natLe n v).length = n := by
  induction n generalizing v with
  | zero => rfl
  | succ n ih => rw [natLe, List.length_cons, ih]

theorem length_flatMap_natLe (n : Nat) (l : List Word) : (l.flatMap fun w => natLe n w.toNat).length = l.length * n := by
  simp [List.length_flatMap, length_natLe]

/-- Fifteen words, four bytes of 0 and a CRC. -/
theorem State.length_formRecord (s : State) (x : Nat) (t : Step) {ws : List Word} (chain : Word) (h : ws.length = 9) :
    (s.formRecord x t ws chain).1.length = 128 := by
  unfold State.formRecord
  dsimp only
  rw [List.length_append, length_natLe, List.length_append, length_natLe, length_flatMap_natLe, List.length_append, h]
  rfl

theorem StepsAndMemory.setCtx (s : State) (x : Nat) (c : Ctx) : StepsAndMemory s (s.setCtx x c) := by
  simp [StepsAndMemory, SameMemory]

/-- The final record has 128 bytes and the next number; steps and memories stay. -/
theorem State.formFinal_effect (s : State) (t : Step) :
    (s.formFinal t).1.length = 128 ∧ (s.formFinal t).2.way.wseq = s.way.wseq + 1 ∧ StepsAndMemory s (s.formFinal t).2 := by
  have hwords : (t.recWords 1).length = 9 := rfl
  unfold State.formFinal
  dsimp only
  generalize t.recWords 1 = ws at hwords ⊢
  generalize chainOver (s.ctx t.desc.ctx).chain ws = c
  have hlen := s.length_formRecord t.desc.ctx t c hwords
  obtain ⟨hrgm, hseq, hmem⟩ := s.formRecord_effect t.desc.ctx t ws c
  generalize s.formRecord t.desc.ctx t ws c = r at hlen hrgm hseq hmem ⊢
  rw [State.setCtx_way]
  exact ⟨hlen, hseq, StepsAndMemory.trans ⟨hrgm, hmem⟩ (.setCtx _ _ _)⟩

/-! ## The state delta (R567, R568) -/

/-- What is sent to the twin leaves steps, memories and Waymark. -/
def SendsOnly (s t : State) : Prop := StepsAndMemory s t ∧ t.way = s.way

theorem SendsOnly.refl (s : State) : SendsOnly s s := ⟨.refl s, rfl⟩

theorem SendsOnly.trans {s t u : State} (h : SendsOnly s t) (k : SendsOnly t u) : SendsOnly s u :=
  ⟨h.1.trans k.1, k.2.trans h.2⟩

theorem SendsOnly.setTwn (s : State) (n : Twn) : SendsOnly s { s with twn := n } := ⟨⟨rfl, rfl, rfl, rfl, rfl, rfl⟩, rfl⟩

theorem FabricOnly.sends {s t : State} (h : FabricOnly s t) : SendsOnly s t := by
  refine ⟨h.stepsAndMemory, ?_⟩
  obtain ⟨_, _, rfl, -⟩ := h
  rfl

theorem State.pumpTwin_sends (s : State) : SendsOnly s s.pumpTwin := by
  have hone (u : State) (ck : Bool) : SendsOnly u (match u.twn.out.find? (fun t => t.ckpt == ck) with
      | some t =>
        if t.sent then u
        else ({ u with twn := { u.twn with
            out := u.twn.out.map (fun (v : XferOut) => if v.xid == t.xid then { v with sent := true } else v) } } : State).sendTransfer t
      | none => u) := by
    split
    · split
      · exact .refl u
      · exact (SendsOnly.setTwn u _).trans (State.sendTransfer_only _ _).sends
    · exact .refl u
  exact (hone s false).trans (hone _ true)

theorem State.stepDelta_sends (s : State) (t : Step) : SendsOnly s (s.stepDelta t).2 :=
  (SendsOnly.setTwn s _).trans (State.pumpTwin_sends _)

theorem State.setStep_way (s : State) (t : Step) : (s.setStep t).way = s.way := rfl

theorem State.modStep_way (s : State) (x : Nat) (step : Word) (f : Step → Step) : (s.modStep x step f).way = s.way := rfl

/-- The step keeps its final record, which is numbered (R286, R528). -/
theorem State.closeStep_effect {s : State} {t : Step} (h : t ∈ s.rgm.steps) (hp : t.phase = .draining) :
    StepHas (s.closeStep t) t.desc.ctx t.desc.step (fun u => u.record.length = 128 ∧ u.phase = .draining) ∧
      (s.closeStep t).way.wseq = s.way.wseq + 1 ∧ SameMemory s (s.closeStep t) := by
  obtain ⟨hlen, hseq, hrgm, hmem⟩ := s.formFinal_effect { t with sums := { t.sums with exited := t.exited.length } }
  unfold State.closeStep
  dsimp only
  generalize s.formFinal { t with sums := { t.sums with exited := t.exited.length } } = r at hlen hseq hrgm hmem ⊢
  obtain ⟨v, hv, hdesc, hrecord⟩ : ∃ v : Step, v = { t with
      sums := { t.sums with exited := t.exited.length }, record := r.1 } ∧ v.desc = t.desc ∧
      (v.record.length = 128 ∧ v.phase = .draining) := ⟨_, rfl, rfl, hlen, hp⟩
  rw [← hv]
  have hkept : StepHas (r.2.setStep v) t.desc.ctx t.desc.step (fun u => u.record.length = 128 ∧ u.phase = .draining) := by
    have hlisted : StepHas r.2 t.desc.ctx t.desc.step (fun _ => True) := stepHas_of_mem (hrgm ▸ h) rfl trivial
    exact hlisted.setStep (by rw [← hdesc]; exact v.is_self) hrecord
  have hset := hmem.trans (r.2.setStep_sameMemory v)
  split
  · obtain ⟨⟨hsteps, hsent⟩, hway⟩ := (r.2.setStep v).stepDelta_sends v
    generalize (r.2.setStep v).stepDelta v = d at hsteps hsent hway ⊢
    refine ⟨?_, ?_, hset.trans (hsent.trans (State.modStep_sameMemory _ _ _ _))⟩
    · have hlisted : StepHas d.2 t.desc.ctx t.desc.step (fun u => u.record.length = 128 ∧ u.phase = .draining) := by
        rwa [StepHas, hsteps]
      exact hlisted.modStep (fun _ => rfl) fun _ hu => hu
    · rw [State.modStep_way, hway, State.setStep_way, hseq]
  · rw [State.setStep_way]
    exact ⟨hkept, hseq, hset⟩

/-! ## The completion record (R305, R306) -/

/-- A deadline missed is counted, and raises attention at most (R259). -/
theorem State.noteMiss_effect (s : State) (t : Step) :
    StepsAndMemory s (s.noteMiss t) ∧ (s.noteMiss t).tb = s.tb ∧ (s.noteMiss t).tclk = s.tclk := by
  unfold State.noteMiss
  split
  · exact ⟨(StepsAndMemory.bump s _).trans (.errBit _ _ _ _), by simp, by simp⟩
  · exact ⟨.refl s, rfl, rfl⟩

/-- The bytes of a step's completion record, with the attention level as it stands after a miss of its own. -/
def State.completionOf (s : State) (t : Step) (endc : Nat) : Bytes :=
  t.compBytes ((s.noteMiss t).stat (outcomeOf endc t.retry)) endc s.tb

/-- The record is written and the step leaves the list; nothing else of host memory changes. -/
theorem State.writeCompletion_effect (s : State) (t : Step) (endc : Nat) :
    (s.writeCompletion t endc).rgm =
        { s.rgm with steps := s.rgm.steps.filter (fun u => !u.is t.desc.ctx t.desc.step) } ∧
      (s.writeCompletion t endc).hbm = (s.hbmWrite t.desc.compAddr (s.completionOf t endc)).hbm ∧
      (s.writeCompletion t endc).flash = s.flash ∧ (s.writeCompletion t endc).tclk = s.tclk := by
  obtain ⟨⟨hrgm, hhbm, -, -, -, hflash⟩, htb, htclk⟩ := s.noteMiss_effect t
  unfold State.writeCompletion State.completionOf
  dsimp only
  rw [htb]
  generalize t.compBytes _ endc s.tb = b
  generalize s.noteMiss t = m at hrgm hhbm hflash htclk ⊢
  have hcell : (m.hbmWrite t.desc.compAddr b).hbm = (s.hbmWrite t.desc.compAddr b).hbm :=
    congrArg (fun h => cellWrite 0 h t.desc.compAddr b) hhbm
  refine ⟨?_, ?_, ?_, ?_⟩
  · split <;> simp [hrgm]
  · split <;> simp [hcell]
  · split <;> simp [hflash]
  · split <;> simp [htclk]

/-! ## What goes with the step -/

/-- Host memory, the flash and the steps stay. -/
def HostKept (s t : State) : Prop := t.rgm = s.rgm ∧ t.hbm = s.hbm ∧ t.flash = s.flash

namespace HostKept

theorem trans {s t u : State} (h : HostKept s t) (k : HostKept t u) : HostKept s u :=
  ⟨k.1.trans h.1, k.2.1.trans h.2.1, k.2.2.trans h.2.2⟩

theorem refl (s : State) : HostKept s s := ⟨rfl, rfl, rfl⟩

theorem foldl {α : Type} {f : State → α → State} (h : ∀ s a, HostKept s (f s a)) (l : List α) (s : State) :
    HostKept s (l.foldl f s) := by
  induction l generalizing s with
  | nil => exact .refl s
  | cons a l ih => exact (h s a).trans (ih _)

theorem setCtx (s : State) (x : Nat) (c : Ctx) : HostKept s (s.setCtx x c) := ⟨rfl, rfl, rfl⟩

theorem ringForget (s : State) (x : Nat) (step : Word) : HostKept s (s.ringForget x step) := ⟨rfl, rfl, rfl⟩

theorem pools {s t : State} (h : PoolsOnly s t) : HostKept s t := by
  obtain ⟨⟨_, _, _, _, _, _, rfl⟩, -, -⟩ := h
  exact ⟨rfl, rfl, rfl⟩

theorem of_stays {s t : State} (h : StepsAndMemory s t) : HostKept s t := by
  obtain ⟨hrgm, hhbm, -, -, -, hflash⟩ := h
  exact ⟨hrgm, hhbm, hflash⟩

end HostKept

/-- After the completion record, what the step held goes: the boundary is noted, and host memory stays. -/
theorem State.endStep_effect (s : State) (t : Step) :
    let w := s.writeCompletion t (if t.abort ≠ 0 then t.abort else bit t.poison)
    HostKept (if t.wasAdmitted then w.markBound t.part else w) (s.endStep t) := by
  intro w
  unfold State.endStep
  extract_lets x endc s1 s2 s3 s4 c gone s5
  have hwritten : s1 = w := by simp only [s1, endc, w, bne_iff_ne]
  have hring : HostKept (if t.wasAdmitted then s1.markBound t.part else s1) s2 := .ringForget _ _ _
  have hflash : HostKept s2 s3 := by
    unfold s3
    split
    · exact .of_stays (State.recordToFlash_stays _ _ _)
    · exact .refl _
  have hframes : HostKept s3 s4 := .foldl (fun u h => .pools (u.dropUse_only _ (Nat.mod_lt _ (by decide)))) _ _
  have hleft : HostKept s4 s5 := .setCtx _ _ _
  rw [hwritten] at hring
  exact (((hring.trans hflash).trans hframes).trans hleft).trans (.foldl (fun u l => .pools (u.freeAll_only _)) _ _)

/-! ## STEP_COMPLETE -/

section Complete

variable {s : State} {x : Nat} {t : Step}
  (ht : s.rgm.steps.find? (fun t => t.desc.ctx == x && t.phase == .draining) = some t) (hhalt : s.halted = false)
  (hasync : t.asyncs = []) (htails : t.tails = []) (howes : t.abort ≠ 0 → s.owes t = false)

include ht in
theorem draining_listed : t ∈ s.rgm.steps ∧ t.desc.ctx = x ∧ t.phase = .draining := by
  have hp := List.find?_some ht
  simp only [Bool.and_eq_true, beq_iff_eq] at hp
  exact ⟨List.mem_of_find?_eq_some ht, hp.1, hp.2⟩

include ht hhalt hasync htails howes

/-- Nothing of the oldest draining step is in flight any longer. -/
theorem exec_stepComplete : exec (.stepComplete x) s =
    .next (if t.record.isEmpty then s.closeStep t else if s.mayComplete t then s.endStep t else s) := by
  have howed : (t.abort != 0 && s.owes t) = false := by
    by_cases h : t.abort = 0
    · simp [h]
    · simp [howes h]
  have hexec : exec (.stepComplete x) s = execStepComplete x s := rfl
  rw [hexec, execStepComplete, ht]
  simp only [hhalt, hasync, htails, howed, List.isEmpty_nil, Bool.not_true, Bool.or_self, Bool.false_eq_true, if_false]
  split
  · rfl
  · split <;> rfl

/-- Without a final record, one is formed (R286). -/
theorem stepComplete_closes (hrecord : t.record = []) :
    Completes (.stepComplete x) s (fun r =>
      StepHas r x t.desc.step (fun u => u.record.length = 128 ∧ u.phase = .draining) ∧
      r.way.wseq = s.way.wseq + 1 ∧ SameMemory s r) := by
  obtain ⟨hmem, rfl, hphase⟩ := draining_listed ht
  refine ⟨s.closeStep t, ?_, State.closeStep_effect hmem hphase⟩
  rw [exec_stepComplete ht hhalt hasync htails howes, if_pos (List.isEmpty_iff.2 hrecord)]

/-- With its final record out and acknowledged, the step is complete (R305, R761). -/
theorem stepComplete_ends (hrecord : t.record ≠ []) (hmay : s.mayComplete t = true) :
    let b := s.completionOf t (if t.abort ≠ 0 then t.abort else bit t.poison)
    Completes (.stepComplete x) s (fun r => r.stepOf x t.desc.step = none ∧
      (t.wasAdmitted = true → tabFind r.rgm.bounds t.part = some s.tclk) ∧ HbmHolds r t.desc.compAddr b ∧
      SameHbmBut t.desc.compAddr b.length s r ∧ r.flash = s.flash) := by
  intro b
  obtain ⟨-, rfl, -⟩ := draining_listed ht
  have hexec := exec_stepComplete ht hhalt hasync htails howes
  rw [if_neg (by simpa using hrecord), if_pos hmay] at hexec
  obtain ⟨hrgm, hhbm, hflash, htclk⟩ := s.writeCompletion_effect t (if t.abort ≠ 0 then t.abort else bit t.poison)
  obtain ⟨kept, hhost, hstored⟩ := s.endStep_effect t
  generalize s.writeCompletion t (if t.abort ≠ 0 then t.abort else bit t.poison) = w at hrgm hhbm hflash htclk kept hhost hstored
  have hsteps : (s.endStep t).rgm.steps = s.rgm.steps.filter (fun u => !u.is t.desc.ctx t.desc.step) := by
    rw [kept]
    split
    · exact congrArg Rgm.steps hrgm
    · exact congrArg Rgm.steps hrgm
  have hbytes : (s.endStep t).hbm = (s.hbmWrite t.desc.compAddr b).hbm := by
    rw [hhost]
    split
    · exact hhbm
    · exact hhbm
  refine ⟨s.endStep t, hexec, ?_, fun hadmitted => ?_, fun i h => ?_, fun a h => ?_, ?_⟩
  · rw [State.stepOf, hsteps, List.find?_eq_none]
    intro u hu
    simpa using (List.mem_filter.1 hu).2
  · rw [kept, if_pos hadmitted, State.markBound, tabFind_tabPut_same, htclk]
  · rw [hbytes]
    exact s.hbmWrite_holds t.desc.compAddr b i h
  · rw [hbytes]
    exact s.hbmWrite_other t.desc.compAddr b a h
  · rw [hstored]
    split
    · exact hflash
    · exact hflash

end Complete

/-- Settles O25: without its final record the step forms it, and with it the step leaves the list. -/
theorem stepsComplete : Obligations.StepsComplete := by
  intro s x t ht hhalt hasync htails howes
  exact ⟨stepComplete_closes ht hhalt hasync htails howes, stepComplete_ends ht hhalt hasync htails howes⟩

end Sys2Proof.Machine
end

section
/-! The engine halt (R605) beside the registers of the stack, the clocks and the power unit. -/

namespace Sys2Proof.Machine

/-- Registers that completion records and a halt's attention leave: those of CLK, PWR, CFG, SEC, MGT, RGM, PAR and CTX, and
those from STK on. -/
abbrev HaltKept (a : Nat) : Prop := 0x2000 ≤ a ∧ a < 0x80000 ∧ a ≠ aRgmCntStep ∨ 0x130000 ≤ a

theorem State.reg_noteMiss (s : State) (t : Step) {a : Nat} (h : HaltKept a) : (s.noteMiss t).reg a = s.reg a := by
  unfold State.noteMiss
  split
  · rw [State.reg_errBit_other _ _ _ (by unfold HaltKept at h; omega) (by unfold HaltKept at h; unfold aDlmErr; omega),
      State.reg_bump_other _ (by unfold HaltKept at h; unfold aDlmCntMiss; omega)]
  · rfl

theorem State.reg_accAdd_other (s : State) {f : Nat → Nat} {x n a : Nat} (h : a ≠ f x) : (s.accAdd f x n).reg a = s.reg a := by
  unfold State.accAdd
  split
  · rfl
  · exact s.reg_addCtr_other n h

theorem State.reg_event (s : State) (w arg : Word) {a : Nat} (h : a < 0x1000 ∨ 0x2000 ≤ a) : (s.event w arg).reg a = s.reg a := by
  obtain ⟨_, _, _, _, hr⟩ := s.event_only w arg
  exact hr a h

theorem State.reg_raise (s : State) (cause : Nat) {a : Nat} (h : a < 0x1000 ∨ 0x2000 ≤ a) : (s.raise cause).reg a = s.reg a := by
  obtain ⟨_, _, _, _, hr⟩ := s.raise_only cause
  exact hr a h

theorem State.reg_writeCompletion (s : State) (t : Step) (endc : Nat) {a : Nat} (h : HaltKept a) :
    (s.writeCompletion t endc).reg a = s.reg a := by
  have hcharge (u : State) (b : Nat) (bs : Bytes) : ((u.hbmWrite b bs).chargeHbm t.desc.ctx bs.length).reg a = u.reg a :=
    State.reg_accAdd_other _ (by unfold HaltKept at h; unfold aAccHbm; omega)
  have hcount (u : State) : (if endc ≤ 1 then (u.bump aRgmCntStep).accAdd aAccSteps (t.desc.ctx % 4096) 1 else u).reg a = u.reg a := by
    split
    · rw [State.reg_accAdd_other _ (by unfold HaltKept at h; unfold aAccSteps; omega),
        State.reg_bump_other _ (by unfold HaltKept at h; unfold aRgmCntStep at *; omega)]
    · rfl
  have hlast (u : State) (c : Ctx) : (if endc ≤ 1 then u.setCtx t.desc.ctx c else u).reg a = u.reg a := by
    split <;> rfl
  unfold State.writeCompletion
  rw [State.reg_event _ _ _ (by unfold HaltKept at h; omega)]
  exact (hlast _ _).trans ((hcount _).trans ((hcharge _ _ _).trans (s.reg_noteMiss t h)))

/-- Of these, a halt changes READY's register alone. -/
theorem State.reg_halt (s : State) {a : Nat} (h : HaltKept a) (hb : a ≠ aPwrBoot) : s.halt.reg a = s.reg a := by
  have hall (l : List Step) : ∀ u : State, (l.foldl (fun s t => s.writeCompletion t 0x34) u).reg a = u.reg a := by
    induction l with
    | nil => exact fun _ => rfl
    | cons t l ih => exact fun u => (ih _).trans (u.reg_writeCompletion t 0x34 h)
  unfold State.halt
  split
  · rfl
  · rw [State.reg_raise _ _ (by unfold HaltKept at h; omega), State.reg_setF_other _ _ _ _ hb]
    exact hall _ _

theorem State.halt_stk (s : State) : s.halt.stk = s.stk := by
  unfold State.halt
  split
  · rfl
  · rw [State.raise_stk, State.setF_stk]
    exact (Keeps.foldl _ (fun s t => s.writeCompletion_keeps t 0x34) _ _).stk

end Sys2Proof.Machine
end

section
/-! O38. Temperatures (R322, R323, R630, R631): what a sample shows, the band it sets, and what the limits do. -/

namespace Sys2Proof.Machine

/-! ## Fields within a field -/

/-- A field inside the one stored is that part of what was stored. -/
theorem State.f_setF_within (s : State) (a v : Nat) {hi lo hi' lo' : Nat} (h1 : lo ≤ lo') (h2 : lo' ≤ hi') (h3 : hi' ≤ hi)
    (h64 : hi < 64) : (s.setF a hi lo v).f a hi' lo' = fld v (hi' - lo) (lo' - lo) := by
  refine Nat.eq_of_testBit_eq fun i => ?_
  simp only [State.f, State.regN, State.setF, State.reg_setReg_same, BitVec.toNat_ofNat, testBit_fld, Nat.testBit_mod_two_pow,
    testBit_withFld _ _ _ (h1.trans (h2.trans h3))]
  rw [show hi' - lo - (lo' - lo) = hi' - lo' by omega]
  by_cases hw : i < hi' - lo' + 1
  · rw [if_pos (by omega), decide_eq_true (by omega : lo' + i < 64), Bool.true_and,
      show lo' + i - lo = lo' - lo + i by omega]
  · rw [decide_eq_false hw, Bool.false_and, Bool.false_and]

theorem fld_four_bytes {a b c d : Nat} (ha : a < 256) (hb : b < 256) (hc : c < 256) (hd : d < 256) :
    let w := a + b <<< 8 + c <<< 16 + d <<< 24
    fld w 7 0 = a ∧ fld w 15 8 = b ∧ fld w 23 16 = c ∧ fld w 31 24 = d := by
  simp only [fld, Nat.shiftLeft_eq, Nat.shiftRight_eq_div_pow]
  norm_num
  omega

/-! ## The parts of a sample -/

/-- The temperatures as a sample shows them. -/
def State.showTemps (s : State) (a b c d l : Nat) : State :=
  (s.setF aStkTemp 31 0 (a + b <<< 8 + c <<< 16 + d <<< 24)).setF aPwrTemp 7 0 l

/-- Above 95 °C the stack shows it (R323). -/
def State.hotSample (s : State) (hottest : Nat) : State :=
  if 95 < hottest && !s.flag aStkErr 1 then s.errBit aStkErr 1 cStkHot else s

/-- From 110 °C on the engine halts (R631). -/
def State.tripSample (s : State) (worst : Nat) : State :=
  if 110 ≤ worst && !s.pwr.halted then (s.raise cThermTrip).halt else s

theorem exec_tempSample (s : State) {a b c d l hot : Nat} (ha : a < 256) (hb : b < 256) (hc : c < 256) (hd : d < 256)
    (hl : l < 256) (hhot : hot = max (max a b) (max c d)) :
    exec (.tempSample [a, b, c, d] l) s =
      .next (((((s.showTemps a b c d l).bandSample hot).hotSample hot).thermalSample (max hot l)).tripSample (max hot l)) := by
  have hexec : exec (.tempSample [a, b, c, d] l) s = execTempSample [a, b, c, d] l s := rfl
  have hmax : [a, b, c, d].foldl max 0 = hot := by simp only [List.foldl_cons, List.foldl_nil]; omega
  have hin : ([a, b, c, d].length != 4 || [a, b, c, d].any (fun c => decide (255 < c)) || decide (255 < l)) = false := by
    simp
    omega
  simp only [hexec, execTempSample, hin, hmax]
  rfl

/-- Each temperature reads back; the band stays. -/
theorem State.showTemps_shows (s : State) {a b c d l : Nat} (ha : a < 256) (hb : b < 256) (hc : c < 256) (hd : d < 256)
    (hl : l < 256) :
    let t := s.showTemps a b c d l
    (t.f aStkTemp 7 0 = a ∧ t.f aStkTemp 15 8 = b ∧ t.f aStkTemp 23 16 = c ∧ t.f aStkTemp 31 24 = d) ∧
      t.f aPwrTemp 7 0 = l ∧ t.f aStkTemp 33 32 = s.f aStkTemp 33 32 ∧ t.stk = s.stk ∧ t.pwr = s.pwr := by
  intro t
  have hother (hi lo : Nat) :
      t.f aStkTemp hi lo = (s.setF aStkTemp 31 0 (a + b <<< 8 + c <<< 16 + d <<< 24)).f aStkTemp hi lo :=
    State.f_setF_other _ _ _ _ _ _ (by decide)
  have hshown (hi lo : Nat) (h : lo ≤ hi) (h' : hi ≤ 31) :
      t.f aStkTemp hi lo = fld (a + b <<< 8 + c <<< 16 + d <<< 24) hi lo :=
    (hother hi lo).trans (s.f_setF_within _ _ (Nat.zero_le _) h h' (by decide))
  obtain ⟨hfa, hfb, hfc, hfd⟩ := fld_four_bytes ha hb hc hd
  refine ⟨⟨(hshown _ _ (by decide) (by decide)).trans hfa, (hshown _ _ (by decide) (by decide)).trans hfb,
    (hshown _ _ (by decide) (by decide)).trans hfc, (hshown _ _ (by decide) (by decide)).trans hfd⟩, ?_, ?_, rfl, rfl⟩
  · exact (State.f_setF_same _ _ _ _ _ (by decide) (by decide)).trans (Nat.mod_eq_of_lt hl)
  · exact (hother 33 32).trans (s.f_setF_apart _ _ (by decide) (by decide) (by decide) (.inl (by decide)))

/-- A hotter band is taken at once, a cooler one not (R322). -/
theorem State.bandSample_band (s : State) (hottest : Nat) :
    (s.bandSample hottest).f aStkTemp 33 32 = max (s.f aStkTemp 33 32) (bandOf hottest) := by
  have hb : bandOf hottest < 4 := by unfold bandOf; split_ifs <;> omega
  have hset : (s.setF aStkTemp 33 32 (bandOf hottest)).f aStkTemp 33 32 = bandOf hottest := by
    rw [State.f_setF_same _ _ _ _ _ (by decide) (by decide)]
    exact Nat.mod_eq_of_lt hb
  unfold State.bandSample
  dsimp only
  split
  · next h => exact hset.trans (max_eq_right h.le).symm
  · next h =>
    rw [max_eq_left (by omega)]
    split <;> rfl

theorem State.bandSample_temps (s : State) (hottest : Nat) {hi lo : Nat} (h : lo ≤ hi) (hhi : hi < 32) :
    (s.bandSample hottest).f aStkTemp hi lo = s.f aStkTemp hi lo := by
  unfold State.bandSample
  dsimp only
  split
  · exact s.f_setF_apart _ _ (by decide) h (by omega) (.inr hhi)
  · split <;> rfl

theorem State.bandSample_keeps (s : State) (hottest : Nat) :
    (∀ a, a ≠ aStkTemp → (s.bandSample hottest).reg a = s.reg a) ∧ (s.bandSample hottest).pwr = s.pwr ∧
      (s.bandSample hottest).stk = s.stk := by
  unfold State.bandSample
  dsimp only
  split
  · exact ⟨fun a h => s.reg_setF_other _ _ _ h, rfl, rfl⟩
  · split
    · exact ⟨fun _ _ => rfl, rfl, rfl⟩
    · exact ⟨fun _ _ => rfl, rfl, rfl⟩

theorem State.hotSample_flag (s : State) {hottest : Nat} (h : 95 < hottest) : (s.hotSample hottest).flag aStkErr 1 = true := by
  unfold State.hotSample
  split
  · exact s.flag_errBit _ _ (by decide) (by decide)
  · next hno => simpa [h] using hno

theorem State.hotSample_keeps (s : State) (hottest : Nat) :
    (∀ a, 0x2000 ≤ a → a ≠ aStkErr → (s.hotSample hottest).reg a = s.reg a) ∧ (s.hotSample hottest).pwr = s.pwr ∧
      (s.hotSample hottest).stk = s.stk := by
  unfold State.hotSample
  split
  · exact ⟨fun a h k => s.reg_errBit_other _ _ (.inr h) k, by simp, by simp⟩
  · exact ⟨fun _ _ _ => rfl, rfl, rfl⟩

theorem State.thermalSample_duty (s : State) {worst : Nat} (h : 105 < worst) : (s.thermalSample worst).f aPwrCap 12 8 = 1 := by
  have hset (u : State) (hu : u.reg aPwrCap = (s.setF aPwrCap 12 8 1).reg aPwrCap) : u.f aPwrCap 12 8 = 1 := by
    rw [State.f_congr hu, State.f_setF_same _ _ _ _ _ (by decide) (by decide)]
    rfl
  unfold State.thermalSample
  rw [if_pos h]
  dsimp only
  split
  · exact hset _ rfl
  · exact hset _ (State.reg_errBit_other _ _ _ (by decide) (by decide))

theorem State.thermalSample_keeps (s : State) (worst : Nat) :
    (∀ a, 0x2000 ≤ a → a ≠ aPwrCap → a ≠ aPwrErr → (s.thermalSample worst).reg a = s.reg a) ∧
      (s.thermalSample worst).pwr.halted = s.pwr.halted ∧ (s.thermalSample worst).stk = s.stk := by
  unfold State.thermalSample
  split
  · dsimp only
    split
    · exact ⟨fun a _ k _ => s.reg_setF_other _ _ _ k, rfl, rfl⟩
    · exact ⟨fun a h k e => (State.reg_errBit_other _ _ _ (.inr h) e).trans (s.reg_setF_other _ _ _ k), by simp, by simp⟩
  · exact ⟨fun _ _ _ _ => rfl, rfl, rfl⟩

theorem State.tripSample_halted (s : State) (worst : Nat) :
    (110 ≤ worst → (s.tripSample worst).pwr.halted = true) ∧
      (worst < 110 → (s.tripSample worst).pwr.halted = s.pwr.halted) := by
  unfold State.tripSample
  split
  · next h =>
    have hw : 110 ≤ worst := by simp at h; exact h.1
    exact ⟨fun _ => State.halt_halted _, fun k => absurd hw (by omega)⟩
  · next h => exact ⟨fun k => by simpa [k] using h, fun _ => rfl⟩

theorem State.tripSample_keeps (s : State) (worst : Nat) :
    (∀ a, HaltKept a → a ≠ aPwrBoot → (s.tripSample worst).reg a = s.reg a) ∧ (s.tripSample worst).stk = s.stk := by
  unfold State.tripSample
  split
  · exact ⟨fun a h k => (State.reg_halt _ h k).trans (s.reg_raise _ (by unfold HaltKept at h; omega)),
      (State.halt_stk _).trans (s.raise_stk _)⟩
  · exact ⟨fun _ _ _ => rfl, rfl⟩

/-! ## The commands -/

theorem tempSample_completes (s : State) {a b c d l : Nat} (ha : a < 256) (hb : b < 256) (hc : c < 256) (hd : d < 256)
    (hl : l < 256) :
    let hot := max (max a b) (max c d)
    Completes (.tempSample [a, b, c, d] l) s (fun t =>
      t.f aStkTemp 7 0 = a ∧ t.f aStkTemp 15 8 = b ∧ t.f aStkTemp 23 16 = c ∧ t.f aStkTemp 31 24 = d ∧
      t.f aPwrTemp 7 0 = l ∧ t.f aStkTemp 33 32 = max (s.f aStkTemp 33 32) (bandOf hot) ∧
      (95 < hot → t.flag aStkErr 1 = true) ∧ (105 < max hot l → t.f aPwrCap 12 8 = 1) ∧
      (110 ≤ max hot l → t.pwr.halted = true) ∧ (max hot l < 110 → t.pwr.halted = s.pwr.halted) ∧ t.stk = s.stk) := by
  intro hot
  have hexec := exec_tempSample s ha hb hc hd hl (hot := hot) rfl
  obtain ⟨htemps, hlogic, hband0, hstk0, hpwr0⟩ := s.showTemps_shows ha hb hc hd hl
  generalize s.showTemps a b c d l = s0 at hexec htemps hlogic hband0 hstk0 hpwr0
  obtain ⟨hreg1, hpwr1, hstk1⟩ := s0.bandSample_keeps hot
  have hband1 := s0.bandSample_band hot
  have htemps1 (hi lo : Nat) := s0.bandSample_temps hot (hi := hi) (lo := lo)
  generalize s0.bandSample hot = s1 at hexec hreg1 hpwr1 hstk1 hband1 htemps1
  obtain ⟨hreg2, hpwr2, hstk2⟩ := s1.hotSample_keeps hot
  have hflag2 : 95 < hot → (s1.hotSample hot).flag aStkErr 1 = true := s1.hotSample_flag
  generalize s1.hotSample hot = s2 at hexec hreg2 hpwr2 hstk2 hflag2
  obtain ⟨hreg3, hpwr3, hstk3⟩ := s2.thermalSample_keeps (max hot l)
  have hduty3 : 105 < max hot l → (s2.thermalSample (max hot l)).f aPwrCap 12 8 = 1 := s2.thermalSample_duty
  generalize s2.thermalSample (max hot l) = s3 at hexec hreg3 hpwr3 hstk3 hduty3
  obtain ⟨hreg4, hstk4⟩ := s3.tripSample_keeps (max hot l)
  obtain ⟨htrip, hcool⟩ := s3.tripSample_halted (max hot l)
  generalize s3.tripSample (max hot l) = t at hexec hreg4 hstk4 htrip hcool
  have hcap : t.reg aPwrCap = s3.reg aPwrCap := hreg4 _ (by decide) (by decide)
  have herr : t.reg aStkErr = s2.reg aStkErr :=
    (hreg4 _ (by decide) (by decide)).trans (hreg3 _ (by decide) (by decide) (by decide))
  have htemp : t.reg aStkTemp = s1.reg aStkTemp := (hreg4 _ (by decide) (by decide)).trans
    ((hreg3 _ (by decide) (by decide) (by decide)).trans (hreg2 _ (by decide) (by decide)))
  have hlog : t.reg aPwrTemp = s0.reg aPwrTemp := (hreg4 _ (by decide) (by decide)).trans
    ((hreg3 _ (by decide) (by decide) (by decide)).trans ((hreg2 _ (by decide) (by decide)).trans (hreg1 _ (by decide))))
  have hpwr : s3.pwr.halted = s.pwr.halted := by rw [hpwr3, hpwr2, hpwr1, hpwr0]
  have hlayer (hi lo : Nat) (h : lo ≤ hi) (h' : hi < 32) : t.f aStkTemp hi lo = s0.f aStkTemp hi lo :=
    (State.f_congr htemp hi lo).trans (htemps1 hi lo h h')
  obtain ⟨ha', hb', hc', hd'⟩ := htemps
  refine ⟨t, hexec, (hlayer 7 0 (by decide) (by decide)).trans ha', (hlayer 15 8 (by decide) (by decide)).trans hb',
    (hlayer 23 16 (by decide) (by decide)).trans hc', (hlayer 31 24 (by decide) (by decide)).trans hd',
    (State.f_congr hlog 7 0).trans hlogic, ?_, fun h => (State.flag_congr herr 1).trans (hflag2 h),
    fun h => (State.f_congr hcap 12 8).trans (hduty3 h), htrip, fun h => (hcool h).trans hpwr, ?_⟩
  · rw [State.f_congr htemp, hband1, hband0]
  · rw [hstk4, hstk3, hstk2, hstk1, hstk0]

/-- Once the 10 ms are over, the band moves one step (R322, log 57). -/
theorem bandCool_completes {s : State} {t0 : Nat} (hcool : s.stack.coolSince = some t0) (hband : s.f aStkTemp 33 32 ≠ 0)
    (hdue : t0 + 10000000 ≤ s.tb) :
    Completes .bandCool s (fun t => t.f aStkTemp 33 32 + 1 = s.f aStkTemp 33 32 ∧ SameRegsBut [aStkTemp] s t ∧
      SameMemory s t) := by
  have hno : (s.f aStkTemp 33 32 == 0 || decide (s.tb < t0 + 10000000)) = false := by simp [hband, hdue]
  have hexec : exec .bandCool s = execBandCool s := rfl
  simp only [execBandCool, hcool, hno] at hexec
  refine ⟨_, hexec, ?_, fun a h => s.reg_setF_other _ _ _ (by simpa using h), rfl, rfl, rfl, rfl, rfl⟩
  have hset : (s.setF aStkTemp 33 32 (s.f aStkTemp 33 32 - 1)).f aStkTemp 33 32 + 1 = s.f aStkTemp 33 32 := by
    have hlt : s.f aStkTemp 33 32 < 4 := Nat.mod_lt _ (by decide)
    rw [State.f_setF_same _ _ _ _ _ (by decide) (by decide)]
    omega
  exact hset

/-- Settles O38: each part of a sample leaves what the parts before it have set. -/
theorem temperatureBands : Obligations.TemperatureBands := by
  intro s a b c d l ha hb hc hd hl
  exact ⟨tempSample_completes s ha hb hc hd hl, fun t0 => bandCool_completes⟩

end Sys2Proof.Machine
end

section
/-! Poison bits of the stack (R324, R327, R328), and what writes of bytes leave of them. -/

namespace Sys2Proof.Machine

theorem mem_setInsert_iff {l : List Nat} {i j : Nat} : j ∈ setInsert l i ↔ j = i ∨ j ∈ l := by
  induction l with
  | nil => simp [setInsert]
  | cons k l ih =>
    unfold setInsert
    split_ifs with h1 h2
    · rw [List.mem_cons, ih, List.mem_cons]; tauto
    · obtain rfl := beq_iff_eq.1 h2
      simp
    · simp

/-- The poison bit is the majority of its copies (R324). -/
theorem State.granulePoison_iff (s : State) (g : Nat) :
    s.granulePoison g = true ↔ 3 * g ∈ s.stkPoison ∧ 3 * g + 1 ∈ s.stkPoison ∨ 3 * g ∈ s.stkPoison ∧ 3 * g + 2 ∈ s.stkPoison ∨
      3 * g + 1 ∈ s.stkPoison ∧ 3 * g + 2 ∈ s.stkPoison := by
  have hrange : List.range 3 = [0, 1, 2] := rfl
  simp only [State.granulePoison, hrange, List.filter_cons, Nat.add_zero, List.contains_iff_mem, List.filter_nil]
  by_cases h0 : 3 * g ∈ s.stkPoison <;> by_cases h1 : 3 * g + 1 ∈ s.stkPoison <;> by_cases h2 : 3 * g + 2 ∈ s.stkPoison <;>
    simp [h0, h1, h2]

theorem State.granulePoison_congr {s t : State} (h : t.stkPoison = s.stkPoison) (g : Nat) :
    t.granulePoison g = s.granulePoison g := by
  rw [State.granulePoison, h]
  rfl

theorem State.poisonGranule_poisons (s : State) (g : Nat) : (s.poisonGranule g).granulePoison g = true := by
  have hmem : ∀ c < 3, 3 * g + c ∈ (s.poisonGranule g).stkPoison := by
    intro c hc
    change 3 * g + c ∈ [0, 1, 2].foldl (fun m c => setInsert m (3 * g + c)) s.stkPoison
    simp only [List.foldl_cons, List.foldl_nil, mem_setInsert_iff]
    omega
  exact (State.granulePoison_iff _ g).2 (.inl ⟨hmem 0 (by decide), hmem 1 (by decide)⟩)

/-- Fewer bytes than a granule has leave every poison bit (R328). -/
theorem State.stkWrite_stkPoison (s : State) (a : Nat) {bs : Bytes} (h : bs.length < 32) :
    (s.stkWrite a bs).stkPoison = s.stkPoison := by
  have hfold (l m : List Nat) : l.foldl (fun m g =>
      if a ≤ g * 32 && g * 32 + 32 ≤ a + bs.length then markGranule m g false else m) m = m := by
    induction l generalizing m with
    | nil => rfl
    | cons g l ih =>
      have hpart : (decide (a ≤ g * 32) && decide (g * 32 + 32 ≤ a + bs.length)) = false := by
        simp
        omega
      simp only [List.foldl_cons, hpart, Bool.false_eq_true, if_false]
      exact ih m
  exact hfold _ _

/-- Bytes written to the stack read back. -/
theorem State.stkRead_stkWrite (s : State) (a : Nat) (bs : Bytes) : (s.stkWrite a bs).stkRead a bs.length = bs := by
  refine List.ext_getElem (by simp [State.stkRead, cellRead]) fun i h h' => ?_
  simp only [State.stkRead, cellRead, List.getElem_map, List.getElem_range]
  exact cellGet_cellWrite_inside 0 s.stk a bs i h'

end Sys2Proof.Machine
end

section
/-! Pools and state entries (R335): which operation changes which pool, entry, register and byte of the stack. -/

namespace Sys2Proof.Machine

/-! ## Pools -/

@[simp] theorem State.pool_setPool_same (s : State) (c : Nat) (p : Pool) : (s.setPool c p).pool c = p :=
  tabGet_tabSet_same _ _ _ _

theorem State.pool_setPool_other (s : State) {c k : Nat} (p : Pool) (h : k ≠ c) : (s.setPool c p).pool k = s.pool k :=
  tabGet_tabSet_other _ _ _ h

theorem State.pool_congr {s t : State} (h : t.pol = s.pol) (c : Nat) : t.pool c = s.pool c := by
  rw [State.pool, h]
  rfl

theorem State.entry_congr {s t : State} (h : t.pol = s.pol) (c i : Nat) : t.entry c i = s.entry c i := by
  rw [State.entry, State.pool_congr h]
  rfl

/-- A change of a pool that leaves its entries leaves those of every pool. -/
theorem State.entry_setPool (s : State) {c : Nat} {p : Pool} (h : p.entries = (s.pool c).entries) (k i : Nat) :
    (s.setPool c p).entry k i = s.entry k i := by
  by_cases hk : k = c
  · subst hk
    rw [State.entry, State.pool_setPool_same, h]
    rfl
  · rw [State.entry, State.pool_setPool_other _ _ hk]
    rfl

/-! ## Where buffers and entries stand (R334, R335) -/

/-- The extents of the pools and the parts of the stack are the same. -/
structure SameLayout (s t : State) : Prop where
  ext : ∀ k, t.reg (aPolExt k) = s.reg (aPolExt k)
  stack : t.stack = s.stack

namespace SameLayout

theorem refl (s : State) : SameLayout s s := ⟨fun _ => rfl, rfl⟩

theorem trans {s t u : State} (h : SameLayout s t) (k : SameLayout t u) : SameLayout s u :=
  ⟨fun c => (k.ext c).trans (h.ext c), k.stack.trans h.stack⟩

theorem setReg (s : State) {a : Nat} (v : Word) (h : ∀ k, aPolExt k ≠ a) : SameLayout s (s.setReg a v) :=
  ⟨fun k => s.reg_setReg_other v (h k), rfl⟩

variable {s t : State}

theorem bufAddr (h : SameLayout s t) (c i : Nat) : t.bufAddr c i = s.bufAddr c i := by
  rw [State.bufAddr, State.f_congr (h.ext c)]
  rfl

theorem poolCount (h : SameLayout s t) (c : Nat) : t.poolCount c = s.poolCount c := State.f_congr (h.ext c) _ _

theorem entryAddr (h : SameLayout s t) (c i : Nat) : t.entryAddr c i = s.entryAddr c i := by
  unfold State.entryAddr
  rw [h.stack]
  simp only [h.poolCount]

end SameLayout

theorem State.poolCount_lt (s : State) (c : Nat) : s.poolCount c < 2 ^ 21 := Nat.mod_lt _ (by decide)

/-! ## A state entry changes (R335, R588) -/

theorem PolEntry.length_bytes (e : PolEntry) : e.bytes.length = 16 := by
  simp [PolEntry.bytes, length_natLe]

section SetEntry

variable (s : State) (c i : Nat) (e : PolEntry)

/-- The pool's own part of the change, and the bytes where the metadata region holds the entry. -/
theorem State.setEntry_eq :
    s.setEntry c i e =
      let u := s.setPool c { s.pool c with entries := tabSet polEntry0 (s.pool c).entries i e }
      if s.entryAddr c i + 16 ≤ s.stack.metadata.1 + s.stack.metadata.2 then u.stkWrite (s.entryAddr c i) e.bytes else u := rfl

theorem State.setEntry_pol :
    (s.setEntry c i e).pol = (s.setPool c { s.pool c with entries := tabSet polEntry0 (s.pool c).entries i e }).pol := by
  rw [State.setEntry_eq]
  dsimp only
  split <;> rfl

@[simp] theorem State.setEntry_regs : (s.setEntry c i e).regs = s.regs := by
  rw [State.setEntry_eq]
  dsimp only
  split
  · exact State.stkWrite_regs _ _ _
  · rfl

@[simp] theorem State.setEntry_stkPoison : (s.setEntry c i e).stkPoison = s.stkPoison := by
  rw [State.setEntry_eq]
  dsimp only
  split
  · exact State.stkWrite_stkPoison _ _ (by simp [PolEntry.length_bytes])
  · rfl

theorem State.setEntry_layout : SameLayout s (s.setEntry c i e) := by
  refine ⟨fun k => State.reg_congr (by simp) _, ?_⟩
  obtain ⟨⟨_, _, _, _, _, _, h⟩, -, -⟩ := PoolsOnly.setEntry s c i e
  rw [h]

theorem State.pool_setEntry_same :
    (s.setEntry c i e).pool c = { s.pool c with entries := tabSet polEntry0 (s.pool c).entries i e } := by
  rw [State.pool_congr (s.setEntry_pol c i e), State.pool_setPool_same]

@[simp] theorem State.entry_setEntry_same : (s.setEntry c i e).entry c i = e := by
  rw [State.entry, State.pool_setEntry_same]
  exact tabGet_tabSet_same _ _ _ _

theorem State.entry_setEntry_other {k j : Nat} (h : (k, j) ≠ (c, i)) : (s.setEntry c i e).entry k j = s.entry k j := by
  rw [State.entry_congr (s.setEntry_pol c i e)]
  by_cases hk : k = c
  · subst hk
    rw [State.entry, State.pool_setPool_same]
    exact tabGet_tabSet_other _ _ _ fun hj => h (by rw [hj])
  · rw [State.entry, State.pool_setPool_other _ _ hk]
    rfl

@[simp] theorem State.setEntry_head (k : Nat) : ((s.setEntry c i e).pool k).head = (s.pool k).head := by
  rw [State.pool_congr (s.setEntry_pol c i e)]
  by_cases hk : k = c
  · rw [hk, State.pool_setPool_same]
  · rw [State.pool_setPool_other _ _ hk]

@[simp] theorem State.setEntry_off (k : Nat) : ((s.setEntry c i e).pool k).off = (s.pool k).off := by
  rw [State.pool_congr (s.setEntry_pol c i e)]
  by_cases hk : k = c
  · rw [hk, State.pool_setPool_same]
  · rw [State.pool_setPool_other _ _ hk]

@[simp] theorem State.setEntry_waits : (s.setEntry c i e).pol.waits = s.pol.waits := by
  rw [State.setEntry_pol]
  rfl

@[simp] theorem State.setEntry_marks : (s.setEntry c i e).pol.marks = s.pol.marks := by
  rw [State.setEntry_pol]
  rfl

/-- Outside the metadata region no byte changes. -/
theorem State.setEntry_stk_off (h : s.stack.metadata.1 + s.stack.metadata.2 < s.entryAddr c i + 16) :
    (s.setEntry c i e).stk = s.stk := by
  rw [State.setEntry_eq]
  dsimp only
  rw [if_neg (by omega)]
  rfl

theorem State.stkRead_setEntry (h : s.entryAddr c i + 16 ≤ s.stack.metadata.1 + s.stack.metadata.2) :
    (s.setEntry c i e).stkRead (s.entryAddr c i) 16 = e.bytes := by
  rw [State.setEntry_eq]
  dsimp only
  rw [if_pos h, ← e.length_bytes]
  exact State.stkRead_stkWrite _ _ _

/-- Bytes beside the entry stay, and every byte outside the metadata region. -/
theorem State.setEntry_stk_other (b : Nat)
    (h : b < s.entryAddr c i ∨ s.entryAddr c i + 16 ≤ b ∨ s.stack.metadata.1 + s.stack.metadata.2 ≤ b) :
    cellGet 0 (s.setEntry c i e).stk b = cellGet 0 s.stk b := by
  rw [State.setEntry_eq]
  dsimp only
  split
  · exact State.stkWrite_outside _ _ _ _ (by rw [e.length_bytes]; omega)
  · rfl

end SetEntry

/-! ## The pool's state follows its count (R343) -/

/-- Two states differ at most in a pool's threshold state, POL_ERR and attention. -/
structure Settled (c : Nat) (s t : State) : Prop where
  rest : ∃ regs atn flash, t = { s with regs := regs, atn := atn, way := { s.way with flash := flash } }
  regs : ∀ a, a < 0x1000 ∨ 0x2000 ≤ a → a ≠ aPolFree c → a ≠ aPolErr → t.reg a = s.reg a
  free : t.f (aPolFree c) 20 0 = s.f (aPolFree c) 20 0

namespace Settled

variable {c : Nat} {s t u : State}

theorem refl (s : State) : Settled c s s := ⟨⟨s.regs, s.atn, s.way.flash, rfl⟩, fun _ _ _ _ => rfl, rfl⟩

theorem trans (h : Settled c s t) (k : Settled c t u) : Settled c s u := by
  obtain ⟨⟨_, _, _, rfl⟩, hr, hf⟩ := h
  obtain ⟨⟨r, a, f, rfl⟩, hr', hf'⟩ := k
  exact ⟨⟨r, a, f, rfl⟩, fun a h0 h1 h2 => (hr' a h0 h1 h2).trans (hr a h0 h1 h2), hf'.trans hf⟩

theorem setState (s : State) (k : Nat) : Settled c s (s.setF (aPolFree c) 61 60 k) :=
  ⟨⟨_, s.atn, s.way.flash, rfl⟩, fun _ _ h _ => s.reg_setF_other _ _ _ h,
    s.f_setF_apart _ _ (by decide) (by decide) (by decide) (.inr (by decide))⟩

theorem errBit (s : State) (n cause : Nat) : Settled c s (s.errBit aPolErr n cause) := by
  have hfree : (s.errBit aPolErr n cause).reg (aPolFree c) = s.reg (aPolFree c) :=
    s.reg_errBit_other _ _ (by unfold aPolFree; omega) (by unfold aPolFree aPolErr; omega)
  obtain ⟨r, a, f, h, -⟩ := (s.setBit aPolErr n).raise_only cause
  exact ⟨⟨r, a, f, h⟩, fun a h0 _ h2 => s.reg_errBit_other _ _ h0 h2, State.f_congr hfree _ _⟩

theorem pol (h : Settled c s t) : t.pol = s.pol := by
  obtain ⟨_, _, _, rfl⟩ := h.rest
  rfl

theorem stk (h : Settled c s t) : t.stk = s.stk := by
  obtain ⟨_, _, _, rfl⟩ := h.rest
  rfl

theorem stkPoison (h : Settled c s t) : t.stkPoison = s.stkPoison := by
  obtain ⟨_, _, _, rfl⟩ := h.rest
  rfl

theorem layout (h : Settled c s t) : SameLayout s t := by
  refine ⟨fun k => h.regs _ (by unfold aPolExt; omega) (by unfold aPolExt aPolFree; omega) (by unfold aPolExt aPolErr; omega), ?_⟩
  obtain ⟨_, _, _, rfl⟩ := h.rest
  rfl

end Settled

theorem State.polEnter_settled (s : State) (c k : Nat) : Settled c s (s.polEnter c k) := by
  have h := Settled.setState (c := c) s k
  unfold State.polEnter
  dsimp only
  split_ifs
  · exact h.trans (.errBit _ _ _)
  · exact h.trans (.errBit _ _ _)
  · exact h

theorem polRise_settled (n c : Nat) (s : State) : Settled c s (polRise n c s) := by
  induction n generalizing s with
  | zero => exact .refl s
  | succ n ih =>
    unfold polRise
    dsimp only
    split
    · exact (Settled.setState s _).trans (ih _)
    · exact .refl s

theorem State.polSettle_settled (s : State) (c : Nat) : Settled c s (s.polSettle c) := by
  have hall (l : List Nat) : ∀ u : State, Settled c u (l.foldl (fun s k => s.polEnter c k) u) := by
    induction l with
    | nil => exact .refl
    | cons k l ih => exact fun u => (u.polEnter_settled c k).trans (ih _)
  unfold State.polSettle
  dsimp only
  split
  · exact hall _ s
  · exact polRise_settled 3 c s

end Sys2Proof.Machine
end

section
/-! O37. Maintenance of the stack: refresh (R321), reads that meet errors (R218, R324 to R326), and row repair (R332). -/

namespace Sys2Proof.Machine

/-! ## Refresh (R321) -/

theorem refresh_completes (s : State) {bank : Nat} (hb : bank < 512) :
    Completes (.refresh bank) s (fun t =>
      (∀ b, tabGet 0 t.stack.nextRow b =
        if b = bank then (tabGet 0 s.stack.nextRow bank + 1) % 512 else tabGet 0 s.stack.nextRow b) ∧
      SameRegsBut [] s t ∧ SameMemory s t) := by
  have hexec : exec (.refresh bank) s = execRefresh bank s := rfl
  rw [execRefresh, if_neg (by omega)] at hexec
  refine ⟨_, hexec, fun b => ?_, fun _ _ => rfl, rfl, rfl, rfl, rfl, rfl⟩
  split
  · next h => exact h ▸ tabGet_tabSet_same _ _ _ _
  · next h => exact tabGet_tabSet_other _ _ _ h

/-! ## Correctable errors (R325, R602, R603) -/

/-- The registers of the stack, its parts and every memory are kept. -/
structure StackKept (s t : State) : Prop where
  regs : ∀ a, 0x130000 ≤ a → t.reg a = s.reg a
  stack : t.stack = s.stack
  memory : SameMemory s t

namespace StackKept

theorem refl (s : State) : StackKept s s := ⟨fun _ _ => rfl, rfl, .refl s⟩

theorem trans {s t u : State} (h : StackKept s t) (k : StackKept t u) : StackKept s u :=
  ⟨fun a ha => (k.regs a ha).trans (h.regs a ha), k.stack.trans h.stack, h.memory.trans k.memory⟩

theorem setMgt (s : State) (m : Mgt) : StackKept s { s with mgt := m } := ⟨fun _ _ => rfl, rfl, rfl, rfl, rfl, rfl, rfl⟩

theorem setReg (s : State) {a : Nat} (v : Word) (h : a < 0x130000) : StackKept s (s.setReg a v) :=
  ⟨fun _ hb => s.reg_setReg_other v (by omega), rfl, rfl, rfl, rfl, rfl, rfl⟩

end StackKept

theorem AttentionOnly.stackKept {s t : State} (h : AttentionOnly s t) : StackKept s t := by
  obtain ⟨_, _, _, rfl, hr⟩ := h
  exact ⟨fun a ha => hr a (by omega), rfl, rfl, rfl, rfl, rfl, rfl⟩

theorem CountOnly.stackKept {s t : State} (h : CountOnly s t) : StackKept s t := by
  obtain ⟨_, _, h⟩ := h
  exact (StackKept.setMgt s _).trans h.stackKept

theorem State.nominate_kept (s : State) : StackKept s s.nominate := by
  unfold State.nominate
  split
  · exact .refl s
  · split
    · exact .refl s
    · exact ((StackKept.setMgt s _).trans (.setReg _ _ (by decide))).trans (State.raise_only _ _).stackKept

/-- A correctable error is counted; no byte and no mark changes. -/
theorem State.stackCe_counts (s : State) (g : Nat) : StackKept (s.bump aStkCntCe) (s.stackCe g) :=
  ((State.noteCe_only _ _).stackKept.trans (.setMgt _ _)).trans (State.nominate_kept _)

/-! ## Uncorrectable errors (R218, R326) -/

theorem State.noteStackUe_notes (s : State) :
    s.noteStackUe.reg aStkCntUe = s.reg aStkCntUe + 1 ∧ s.noteStackUe.flag aStkErr 0 = true ∧ s.noteStackUe.hbm = s.hbm ∧
      s.noteStackUe.stk = s.stk ∧ s.noteStackUe.stkPoison = s.stkPoison ∧ s.noteStackUe.pol = s.pol ∧
      s.noteStackUe.stack = s.stack := by
  unfold State.noteStackUe
  dsimp only
  split
  · next h => exact ⟨s.reg_bump_same _, h, rfl, rfl, rfl, rfl, rfl⟩
  · refine ⟨?_, State.flag_errBit _ _ _ (by decide) (by decide), by simp, by simp, by simp, by simp, by simp⟩
    rw [State.reg_errBit_other _ _ _ (by decide) (by decide), State.reg_bump_same]

/-- The buffer that holds the address is quarantined; besides its entry nothing changes. -/
theorem State.quarantine_effect (s : State) (a : Nat) :
    PoolsOnly s (s.quarantine a) ∧ (s.quarantine a).regs = s.regs ∧ (s.quarantine a).stkPoison = s.stkPoison ∧
      (s.bufAt a = none → s.quarantine a = s) ∧
      ∀ c i, s.bufAt a = some (c, i) → ((s.quarantine a).entry c i).quar = true := by
  unfold State.quarantine
  split
  · next h => exact ⟨.refl s, rfl, rfl, fun _ => rfl, by simp [h]⟩
  · next c i h =>
    refine ⟨.setEntry s c i _, by simp, by simp, by simp [h], ?_⟩
    rintro _ _ hbuf
    obtain ⟨rfl, rfl⟩ : c = _ ∧ i = _ := by simpa [h] using hbuf
    rw [State.entry_setEntry_same]

theorem State.retireSlot_at (s : State) (o : Option Nat) :
    let t := o.elim s s.retireSlot
    (∃ car, t = { s with car := car }) ∧ ∀ n, o = some n → n ∈ t.car.bad := by
  cases o with
  | none => exact ⟨⟨s.car, rfl⟩, by simp⟩
  | some n =>
    refine ⟨⟨_, rfl⟩, ?_⟩
    rintro _ ⟨⟩
    exact mem_setInsert_self _ _

/-- A granule newly found uncorrectable is poisoned, counted and flagged, its buffer quarantined, its slot retired. -/
theorem State.stackUe_effect (s : State) {g : Nat} (hclean : s.granulePoison g = false) :
    let t := s.stackUe g
    t.granulePoison g = true ∧ t.reg aStkCntUe = s.reg aStkCntUe + 1 ∧ t.flag aStkErr 0 = true ∧ t.hbm = s.hbm ∧
      t.stack = s.stack ∧ (s.bufAt (g * 32) = none → t.stk = s.stk) ∧
      (∀ c i, s.bufAt (g * 32) = some (c, i) → (t.entry c i).quar = true) ∧
      ∀ n, s.slotAt (g * 32) = some n → n ∈ t.car.bad := by
  obtain ⟨hpools, hregs, hpoison, hnone, hbuf⟩ := (s.poisonGranule g).quarantine_effect (g * 32)
  simp only [State.stackUe, hclean, Bool.false_eq_true, if_false]
  generalize (s.poisonGranule g).quarantine (g * 32) = q at hpools hregs hpoison hnone hbuf ⊢
  obtain ⟨hcount, hflag, hhbm, hstk, hpois, hpol, hstack⟩ := q.noteStackUe_notes
  generalize q.noteStackUe = w at hcount hflag hhbm hstk hpois hpol hstack ⊢
  have hlayout : w.stack = s.stack ∧ q.hbm = s.hbm := by
    obtain ⟨⟨_, _, _, _, _, _, rfl⟩, -, -⟩ := hpools
    exact ⟨hstack, rfl⟩
  have hslot : w.slotAt (g * 32) = s.slotAt (g * 32) := by
    rw [State.slotAt, hlayout.1]
    rfl
  obtain ⟨⟨car, hcar⟩, hbad⟩ := w.retireSlot_at (w.slotAt (g * 32))
  rw [hslot] at hcar hbad
  rw [hslot]
  refine ⟨?_, ?_, ?_, ?_, ?_, fun h => ?_, fun c i h => ?_, hbad⟩
  · rw [hcar]
    exact (State.granulePoison_congr (hpois.trans hpoison) g).trans (s.poisonGranule_poisons g)
  · rw [hcar]
    exact hcount.trans (congrArg (· + 1) (State.reg_congr hregs _))
  · rw [hcar]
    exact hflag
  · rw [hcar]
    exact hhbm.trans hlayout.2
  · rw [hcar]
    exact hlayout.1
  · rw [hcar]
    rw [hnone h] at hstk
    exact hstk
  · rw [hcar]
    exact (congrArg PolEntry.quar (State.entry_congr hpol c i)).trans (hbuf c i h)

/-! ## Reads of a granule (R324 to R326) -/

theorem State.readError_clean (s : State) (g : Nat) : s.readError g .clean = s := by
  unfold State.readError
  split
  · rfl
  · rfl

/-- An error of a poisoned granule is handled no more (R325, R326). -/
theorem State.readError_poisoned (s : State) {g : Nat} (finding : EccFinding) (h : s.granulePoison g = true) :
    s.readError g finding = s := by
  unfold State.readError
  rw [h, Bool.or_true, if_pos rfl]

section Unpoisoned

variable (s : State) {g : Nat} (hg : g < 2 ^ 27) (hclean : s.granulePoison g = false)

include hg hclean

theorem State.readError_correctable : s.readError g .correctable = s.stackCe g := by
  unfold State.readError
  rw [hclean, Bool.or_false, decide_eq_false (Nat.not_le.2 hg)]
  rfl

theorem State.readError_uncorrectable : s.readError g .uncorrectable = s.stackUe g := by
  unfold State.readError
  rw [hclean, Bool.or_false, decide_eq_false (Nat.not_le.2 hg)]
  rfl

end Unpoisoned

/-- A flip of a copy that is clear sets it, and nothing else (R324). -/
theorem State.mem_flipCopy (s : State) {g c k : Nat} (h : 3 * g + c ∉ s.stkPoison) :
    k ∈ (s.flipCopy g c).stkPoison ↔ k = 3 * g + c ∨ k ∈ s.stkPoison := by
  have hno : s.stkPoison.contains (3 * g + c) = false := by simpa using h
  simp only [State.flipCopy, hno, Bool.false_eq_true, if_false, mem_setInsert_iff]

/-! ## The scrubber (R324, R329) -/

/-- The granule that the scrubber reads next after a read of granule g; with SCRUB at 0 it stands still, and another reader
has read (log 81). -/
def State.nextScrub (s : State) (g : Nat) : Nat := if s.f aStkCtrl 7 0 = 0 then s.stack.scrub else (g + 1) % 2 ^ 27

/-- The state whose scrubber has moved on. -/
def State.scrubAt (s : State) (g : Nat) : State := { s with stack := { s.stack with scrub := s.nextScrub g } }

theorem State.scrubAt_eq (s : State) (g : Nat) :
    s.scrubAt g = if s.f aStkCtrl 7 0 == 0 then s else { s with stack := { s.stack with scrub := (g + 1) % 2 ^ 27 } } := by
  unfold State.scrubAt State.nextScrub
  by_cases h : s.f aStkCtrl 7 0 = 0
  · simp [h]
  · simp [h]

theorem State.scrubAt_memory (s : State) (g : Nat) : SameMemory s (s.scrubAt g) := ⟨rfl, rfl, rfl, rfl, rfl⟩

section Scrub

variable (s : State) {g : Nat} (hg : g < 2 ^ 27)

include hg

theorem exec_scrubRead (finding : EccFinding) (copies : List Nat) :
    exec (.scrubRead g finding copies) s =
      .next (((copies.filter (· < 3)).foldl (fun s c => s.flipCopy g c) (s.scrubAt g)).readError g finding) := by
  have hexec : exec (.scrubRead g finding copies) s = execScrubRead g finding copies s := rfl
  rw [hexec, execScrubRead, if_neg (by omega), State.scrubAt_eq]

/-- Where no copy has flipped, the read meets its error in the state whose scrubber has moved. -/
theorem exec_scrubRead_unflipped (finding : EccFinding) :
    exec (.scrubRead g finding []) s = .next ((s.scrubAt g).readError g finding) := exec_scrubRead s hg finding []

theorem scrubRead_clean_completes :
    Completes (.scrubRead g .clean []) s (fun t =>
      t.stack.scrub = s.nextScrub g ∧ SameRegsBut [] s t ∧ SameMemory s t) := by
  refine ⟨_, exec_scrubRead_unflipped s hg .clean, ?_⟩
  rw [State.readError_clean]
  exact ⟨rfl, fun _ _ => rfl, s.scrubAt_memory g⟩

theorem scrubRead_correctable_completes :
    Completes (.scrubRead g .correctable []) s (fun t =>
      t.stack.scrub = s.nextScrub g ∧ SameMemory s t ∧
        t.reg aStkCntCe = s.reg aStkCntCe + (if s.granulePoison g then 0 else 1)) := by
  refine ⟨_, exec_scrubRead_unflipped s hg .correctable, ?_⟩
  cases hp : s.granulePoison g with
  | true =>
    rw [(s.scrubAt g).readError_poisoned _ hp]
    exact ⟨rfl, s.scrubAt_memory g, (BitVec.add_zero _).symm⟩
  | false =>
    have hkept := (s.scrubAt g).stackCe_counts g
    rw [(s.scrubAt g).readError_correctable hg hp]
    exact ⟨congrArg Stk.scrub hkept.stack, (s.scrubAt_memory g).trans hkept.memory,
      (hkept.regs _ (by decide)).trans ((s.scrubAt g).reg_bump_same _)⟩

theorem scrubRead_uncorrectable_completes (hclean : s.granulePoison g = false) :
    Completes (.scrubRead g .uncorrectable []) s (fun t => t.stack.scrub = s.nextScrub g ∧
      t.granulePoison g = true ∧ t.reg aStkCntUe = s.reg aStkCntUe + 1 ∧ t.flag aStkErr 0 = true ∧ t.hbm = s.hbm ∧
      (s.bufAt (g * 32) = none → t.stk = s.stk) ∧ (∀ c i, s.bufAt (g * 32) = some (c, i) → (t.entry c i).quar = true) ∧
      ∀ n, s.slotAt (g * 32) = some n → n ∈ t.car.bad) := by
  refine ⟨_, exec_scrubRead_unflipped s hg .uncorrectable, ?_⟩
  rw [(s.scrubAt g).readError_uncorrectable hg hclean]
  obtain ⟨hpoison, hcount, hflag, hhbm, hstack, hrest⟩ := (s.scrubAt g).stackUe_effect hclean
  exact ⟨congrArg Stk.scrub hstack, hpoison, hcount, hflag, hhbm, hrest⟩

/-- One copy of three is no majority (R324). -/
theorem scrubRead_one_copy_completes (hcopies : ∀ c < 3, 3 * g + c ∉ s.stkPoison) {c : Nat} (hc : c < 3) :
    Completes (.scrubRead g .clean [c]) s (fun t => t.granulePoison g = false ∧ t.stk = s.stk) := by
  have hexec := exec_scrubRead s hg .clean [c]
  rw [State.readError_clean, List.filter_cons_of_pos (by simpa using hc)] at hexec
  refine ⟨_, hexec, ?_, rfl⟩
  have hset (d : Nat) (hd : d < 3) (h : 3 * g + d ∈ ((s.scrubAt g).flipCopy g c).stkPoison) : d = c := by
    obtain h | h := ((s.scrubAt g).mem_flipCopy (hcopies c hc)).1 h
    · omega
    · exact absurd h (hcopies d hd)
  refine Bool.eq_false_iff.2 fun hp => ?_
  obtain ⟨h, k⟩ | ⟨h, k⟩ | ⟨h, k⟩ := (State.granulePoison_iff _ _).1 hp
  · exact absurd ((hset 0 (by decide) h).trans (hset 1 (by decide) k).symm) (by decide)
  · exact absurd ((hset 0 (by decide) h).trans (hset 2 (by decide) k).symm) (by decide)
  · exact absurd ((hset 1 (by decide) h).trans (hset 2 (by decide) k).symm) (by decide)

/-- Two copies are (R324). -/
theorem scrubRead_two_copies_completes (hcopies : ∀ c < 3, 3 * g + c ∉ s.stkPoison) {c d : Nat} (hc : c < 3) (hd : d < 3)
    (hne : c ≠ d) : Completes (.scrubRead g .clean [c, d]) s (fun t => t.granulePoison g = true) := by
  have hexec := exec_scrubRead s hg .clean [c, d]
  rw [State.readError_clean, List.filter_cons_of_pos (by simpa using hc), List.filter_cons_of_pos (by simpa using hd)] at hexec
  refine ⟨_, hexec, ?_⟩
  have hone (k : Nat) := (s.scrubAt g).mem_flipCopy (k := k) (hcopies c hc)
  have hclear : 3 * g + d ∉ ((s.scrubAt g).flipCopy g c).stkPoison := by
    rw [hone]
    exact not_or.2 ⟨by omega, hcopies d hd⟩
  have hset (e : Nat) (he : e = c ∨ e = d) : 3 * g + e ∈ (((s.scrubAt g).flipCopy g c).flipCopy g d).stkPoison := by
    rw [State.mem_flipCopy _ hclear, hone]
    omega
  obtain ⟨h0, h1⟩ | ⟨h0, h2⟩ | ⟨h1, h2⟩ : (0 = c ∨ 0 = d) ∧ (1 = c ∨ 1 = d) ∨ (0 = c ∨ 0 = d) ∧ (2 = c ∨ 2 = d) ∨
      (1 = c ∨ 1 = d) ∧ (2 = c ∨ 2 = d) := by omega
  · exact (State.granulePoison_iff _ g).2 (.inl ⟨hset 0 h0, hset 1 h1⟩)
  · exact (State.granulePoison_iff _ g).2 (.inr (.inl ⟨hset 0 h0, hset 2 h2⟩))
  · exact (State.granulePoison_iff _ g).2 (.inr (.inr ⟨hset 1 h1, hset 2 h2⟩))

end Scrub

/-! ## Row repair (R332, R357) -/

section Repair

variable {s : State} {bank row : Nat} (hb : bank < 512) (hr : row < 512) (hs : s.portShut = false) (hd : s.dark = false)

/-- The state in which a row's place is taken by a spare one. -/
def State.usingSpare (s : State) (row i : Nat) : State :=
  { s with stack := { s.stack with repairs := tabPut s.stack.repairs row i } }

/-- STK_REPAIR_LOG takes an entry at most. -/
theorem State.logRepair_only (s : State) (bank row spare : Nat) :
    (∃ regs, s.logRepair bank row spare = { s with regs := regs }) ∧
      ∀ a, a < 0x130040 → (s.logRepair bank row spare).reg a = s.reg a := by
  unfold State.logRepair
  split
  · exact ⟨⟨_, rfl⟩, fun a ha => s.reg_setReg_other _ (by unfold aStkRepairLog; omega)⟩
  · exact ⟨⟨s.regs, rfl⟩, fun _ _ => rfl⟩

include hb hr hs

theorem exec_rowRepair_repairs {i : Nat} (hi : (List.range 64).find? (fun k => !(s.sparesUsed bank).contains k) = some i) :
    exec (.rowRepair bank row) s =
      .next ((((s.usingSpare (bank * 512 + row) i).logRepair bank row i).bump aStkCntRepair).done) := by
  have hexec : exec (.rowRepair bank row) s = execRowRepair bank row s := rfl
  rw [hexec, execRowRepair, hs, decide_eq_false (Nat.not_le.2 hb), decide_eq_false (Nat.not_le.2 hr)]
  simp only [hi]
  rfl

theorem exec_rowRepair_refuses (hnone : (List.range 64).find? (fun k => !(s.sparesUsed bank).contains k) = none) :
    exec (.rowRepair bank row) s =
      .next ((((s.grainsOf bank row).foldl (fun s a => s.quarantine a) s).setBit aStkErr 2).refuse) := by
  have hexec : exec (.rowRepair bank row) s = execRowRepair bank row s := rfl
  rw [hexec, execRowRepair, hs, decide_eq_false (Nat.not_le.2 hb), decide_eq_false (Nat.not_le.2 hr)]
  simp only [hnone]
  rfl

include hd

/-- A spare row that is free takes the row's place; that it is the lowest is the model's choice. -/
theorem rowRepair_repairs {i : Nat} (hi : (List.range 64).find? (fun k => !(s.sparesUsed bank).contains k) = some i) :
    Completes (.rowRepair bank row) s (fun t => t.outcome = 0 ∧ tabFind t.stack.repairs (bank * 512 + row) = some i ∧
      t.reg aStkCntRepair = s.reg aStkCntRepair + 1 ∧ SameMemory s t) := by
  refine ⟨_, exec_rowRepair_repairs hb hr hs hi, ?_⟩
  obtain ⟨⟨regs, hw⟩, hreg⟩ := (s.usingSpare (bank * 512 + row) i).logRepair_only bank row i
  generalize (s.usingSpare (bank * 512 + row) i).logRepair bank row i = w at hw hreg ⊢
  have hdark : (w.bump aStkCntRepair).dark = false := by
    rw [← hd]
    exact State.dark_congr (by rw [hw]; rfl) ((w.reg_bump_other (by decide)).trans (hreg _ (by decide)))
      ((w.reg_bump_other (by decide)).trans (hreg _ (by decide)))
  refine ⟨State.outcome_done _ hdark, ?_, ?_, ?_⟩
  · rw [State.done_stack, hw]
    exact tabFind_tabPut_same _ _ _
  · rw [State.reg_done, State.reg_bump_same, hreg _ (by decide)]
    rfl
  · rw [hw]
    simp [SameMemory, State.bump, State.addCtr, State.usingSpare]

theorem rowRepair_refuses (hused : ∀ i < 64, i ∈ s.sparesUsed bank) :
    Completes (.rowRepair bank row) s (fun t => t.outcome = 2 ∧ t.flag aStkErr 2 = true ∧
      t.stack.repairs = s.stack.repairs) := by
  have hnone : (List.range 64).find? (fun k => !(s.sparesUsed bank).contains k) = none := by
    rw [List.find?_eq_none]
    intro i hi
    simpa using hused i (List.mem_range.1 hi)
  refine ⟨_, exec_rowRepair_refuses hb hr hs hnone, ?_⟩
  have hpools : PoolsOnly s ((s.grainsOf bank row).foldl (fun s a => s.quarantine a) s) :=
    .foldl (P := fun _ => True) _ (fun s a _ => (s.quarantine_effect a).1) _ (fun _ _ => trivial) s
  generalize (s.grainsOf bank row).foldl (fun s a => s.quarantine a) s = q at hpools ⊢
  obtain ⟨⟨_, _, _, _, _, _, hq⟩, hregs, -⟩ := hpools
  have hdark : (q.setBit aStkErr 2).dark = false := by
    rw [← hd]
    exact State.dark_congr (show q.pwr = s.pwr by rw [hq]) ((q.reg_setF_other _ _ _ (by decide)).trans (hregs _ (by decide)))
      ((q.reg_setF_other _ _ _ (by decide)).trans (hregs _ (by decide)))
  refine ⟨State.outcome_refuse _ hdark, ?_, ?_⟩
  · rw [State.flag_congr (State.reg_refuse _ _)]
    exact q.flag_setF_same _ (by decide)
  · rw [State.refuse_stack]
    change q.stack.repairs = s.stack.repairs
    rw [hq]

end Repair

/-! ## The obligation -/

/-- Settles O37: what a read finds is handled in the state whose scrubber has moved on, and of the three copies of a poison
bit two decide. -/
theorem stackMaintenance : Obligations.StackMaintenance := by
  intro s
  refine ⟨fun bank hb => refresh_completes s hb, fun g hg => ?_, fun bank row hb hr hs hd => ?_⟩
  · exact ⟨scrubRead_clean_completes s hg, scrubRead_correctable_completes s hg, scrubRead_uncorrectable_completes s hg,
      fun hcopies c hc => ⟨scrubRead_one_copy_completes s hg hcopies hc,
        fun d hd hne => scrubRead_two_copies_completes s hg hcopies hc hd hne⟩⟩
  · exact ⟨fun i hi => rowRepair_repairs hb hr hs hd hi, rowRepair_refuses hb hr hs hd⟩

end Sys2Proof.Machine
end

section
/-! Free lists (R336 to R338): a push, a rebuild, a pop, and the return of a buffer. -/

namespace Sys2Proof.Machine

theorem length_freeHeader (c i next : Nat) (gen : BitVec 32) : (freeHeader c i next gen).length = 16 := by
  simp [freeHeader, length_natLe]

theorem aPolExt_ne_aPolFree (k c : Nat) : aPolExt k ≠ aPolFree c := by
  unfold aPolExt aPolFree
  omega

/-! ## What lists leave -/

/-- What a change of a pool's list leaves: every entry, the layout, and what waits. -/
structure ListOnly (s t : State) : Prop where
  entry : ∀ k j, t.entry k j = s.entry k j
  layout : SameLayout s t
  waits : t.pol.waits = s.pol.waits

theorem ListOnly.refl (s : State) : ListOnly s s := ⟨fun _ _ => rfl, .refl s, rfl⟩

theorem ListOnly.trans {s t u : State} (h : ListOnly s t) (k : ListOnly t u) : ListOnly s u :=
  ⟨fun c i => (k.entry c i).trans (h.entry c i), h.layout.trans k.layout, k.waits.trans h.waits⟩

theorem Settled.listOnly {c : Nat} {s t : State} (h : Settled c s t) : ListOnly s t :=
  ⟨fun _ _ => State.entry_congr h.pol _ _, h.layout, by rw [h.pol]⟩

/-! ## A buffer goes on the list (R337) -/

section Push

variable (s : State) (c i : Nat)

/-- A push writes 16 bytes of header, makes the buffer the head, and counts it. -/
theorem State.push_eq : ∃ bs : Bytes, bs.length = 16 ∧
    s.push c i = ((s.stkWrite (s.bufAddr c i) bs).setPool c { s.pool c with head := some i }).setF (aPolFree c) 20 0
      (s.f (aPolFree c) 20 0 + 1) := by
  refine ⟨freeHeader c i ((s.pool c).head.getD 0x1FFFFF) (s.entry c i).gen, length_freeHeader _ _ _ _, ?_⟩
  unfold State.push
  dsimp only
  generalize freeHeader c i ((s.pool c).head.getD 0x1FFFFF) (s.entry c i).gen = bs
  rfl

theorem State.push_pool : (s.push c i).pool c = { s.pool c with head := some i } := by
  obtain ⟨bs, -, h⟩ := s.push_eq c i
  rw [h]
  exact State.pool_setPool_same _ _ _

theorem State.push_listOnly : ListOnly s (s.push c i) := by
  obtain ⟨bs, -, h⟩ := s.push_eq c i
  rw [h]
  refine ⟨fun k j => ?_, ⟨fun k => ?_, rfl⟩, rfl⟩
  · exact State.entry_setPool (c := c) (p := { s.pool c with head := some i }) (s.stkWrite (s.bufAddr c i) bs) rfl k j
  · exact State.reg_setF_other _ _ _ _ (aPolExt_ne_aPolFree k c)

theorem State.push_free : (s.push c i).f (aPolFree c) 20 0 = (s.f (aPolFree c) 20 0 + 1) % 2 ^ 21 := by
  obtain ⟨bs, -, h⟩ := s.push_eq c i
  rw [h]
  exact State.f_setF_same _ _ _ _ _ (by decide) (by decide)

theorem State.push_reg {a : Nat} (ha : a ≠ aPolFree c) : (s.push c i).reg a = s.reg a := by
  obtain ⟨bs, -, h⟩ := s.push_eq c i
  rw [h]
  exact State.reg_setF_other _ _ _ _ ha

/-- The header stands in the buffer's first 16 bytes; no other byte changes. -/
theorem State.push_stk (b : Nat) (hb : b < s.bufAddr c i ∨ s.bufAddr c i + 16 ≤ b) :
    cellGet 0 (s.push c i).stk b = cellGet 0 s.stk b := by
  obtain ⟨bs, hlen, h⟩ := s.push_eq c i
  rw [h]
  exact s.stkWrite_outside _ bs _ (by rwa [hlen])

end Push

/-! ## A rebuild (R338) -/

/-- The buffers of a pool that a rebuild lists, the lowest index first. -/
def State.freeBufs (s : State) (c : Nat) : List Nat :=
  (List.range (s.poolCount c)).filter (fun i => !(s.entry c i).alloc && !(s.entry c i).quar && !(s.entry c i).held)

/-- The pool before its free buffers are listed. -/
def State.emptied (s : State) (c : Nat) : State :=
  let s := s.setPool c { s.pool c with head := none, rebuilding := false }
  let s := s.setF (aPolFree c) 20 0 0
  s.setOff c (((s.pool c).entries.filter (fun e => e.2.quar && !e.2.alloc)).map (·.1))

section Rebuild

variable (s : State) (c : Nat)

theorem State.setOff_pool (l : List Nat) : (s.setOff c l).pool c = { s.pool c with off := l } :=
  State.pool_setPool_same _ _ _

theorem State.setOff_listOnly (l : List Nat) : ListOnly s (s.setOff c l) :=
  ⟨fun k j => State.entry_setPool (c := c) (p := { s.pool c with off := l }) s rfl k j,
    ⟨fun k => State.reg_setF_other _ _ _ _ (aPolExt_ne_aPolFree k c), rfl⟩, rfl⟩

theorem State.setOff_free (l : List Nat) : (s.setOff c l).f (aPolFree c) 20 0 = s.f (aPolFree c) 20 0 :=
  State.f_setF_apart _ _ _ (by decide) (by decide) (by decide) (.inr (by decide))

theorem State.emptied_listOnly : ListOnly s (s.emptied c) := by
  have hcleared : ListOnly s ((s.setPool c { s.pool c with head := none, rebuilding := false }).setF (aPolFree c) 20 0 0) :=
    ⟨fun k j => State.entry_setPool (c := c) (p := { s.pool c with head := none, rebuilding := false }) s rfl k j,
      ⟨fun k => State.reg_setF_other _ _ _ _ (aPolExt_ne_aPolFree k c), rfl⟩, rfl⟩
  exact hcleared.trans (State.setOff_listOnly _ _ _)

theorem State.emptied_pool : ((s.emptied c).pool c).head = none ∧ ((s.emptied c).pool c).rebuilding = false := by
  have hpool : ((s.setPool c { s.pool c with head := none, rebuilding := false }).setF (aPolFree c) 20 0 0).pool c =
      { s.pool c with head := none, rebuilding := false } := State.pool_setPool_same _ _ _
  rw [State.emptied, State.setOff_pool, hpool]
  exact ⟨rfl, rfl⟩

theorem State.emptied_free : (s.emptied c).f (aPolFree c) 20 0 = 0 := by
  rw [State.emptied, State.setOff_free, State.f_setF_same _ _ _ _ _ (by decide) (by decide)]
  rfl

theorem State.fillPool_eq : s.fillPool c = (s.freeBufs c).foldr (fun i s => s.push c i) (s.emptied c) := by
  have hfree : (s.emptied c).freeBufs c = s.freeBufs c := by
    have h := s.emptied_listOnly c
    unfold State.freeBufs
    rw [h.layout.poolCount]
    simp only [h.entry]
  rw [← hfree, ← List.foldl_reverse]
  rfl

theorem State.pushes_listOnly (l : List Nat) : ListOnly s (l.foldr (fun i s => s.push c i) s) := by
  induction l with
  | nil => exact .refl s
  | cons i l ih => exact ih.trans (State.push_listOnly _ _ _)

/-- The list holds what was pushed, the last one first, and counts it. -/
theorem State.pushes_pool (l : List Nat) (h0 : (s.pool c).head = none) (hf : s.f (aPolFree c) 20 0 = 0) (hl : l.length < 2 ^ 21) :
    let t := l.foldr (fun i s => s.push c i) s
    (t.pool c).head = l.head? ∧ (t.pool c).rebuilding = (s.pool c).rebuilding ∧ t.f (aPolFree c) 20 0 = l.length := by
  induction l with
  | nil => exact ⟨h0, rfl, hf⟩
  | cons i l ih =>
    obtain ⟨-, hreb, hfree⟩ := ih (by simp only [List.length_cons] at hl; omega)
    simp only [List.foldr_cons]
    rw [State.push_pool, State.push_free, hfree, hreb]
    exact ⟨rfl, rfl, Nat.mod_eq_of_lt hl⟩

/-- Bytes outside the headers of what was pushed stay. -/
theorem State.pushes_stk (l : List Nat) (b : Nat) (h : ∀ i ∈ l, b < s.bufAddr c i ∨ s.bufAddr c i + 16 ≤ b) :
    cellGet 0 (l.foldr (fun i s => s.push c i) s).stk b = cellGet 0 s.stk b := by
  induction l with
  | nil => rfl
  | cons i l ih =>
    have hi := h i (List.mem_cons_self ..)
    rw [← (s.pushes_listOnly c l).layout.bufAddr c i] at hi
    exact (State.push_stk _ _ _ b hi).trans (ih fun j hj => h j (List.mem_cons_of_mem _ hj))

theorem State.fillPool_listOnly : ListOnly s (s.fillPool c) := by
  rw [State.fillPool_eq]
  exact (s.emptied_listOnly c).trans (State.pushes_listOnly _ _ _)

/-- A rebuilt list holds the pool's free buffers, the lowest index first. -/
theorem State.fillPool_lists :
    ((s.fillPool c).pool c).head = (s.freeBufs c).head? ∧ ((s.fillPool c).pool c).rebuilding = false ∧
      (s.fillPool c).f (aPolFree c) 20 0 = (s.freeBufs c).length := by
  have hlen : (s.freeBufs c).length < 2 ^ 21 := by
    have hle : (s.freeBufs c).length ≤ s.poolCount c :=
      (List.length_filter_le _ _).trans_eq List.length_range
    exact hle.trans_lt (s.poolCount_lt c)
  obtain ⟨hhead, hreb⟩ := s.emptied_pool c
  obtain ⟨h1, h2, h3⟩ := (s.emptied c).pushes_pool c (s.freeBufs c) hhead (s.emptied_free c) hlen
  rw [State.fillPool_eq]
  exact ⟨h1, h2.trans hreb, h3⟩

theorem State.fillPool_stk (b : Nat) (h : ∀ i ∈ s.freeBufs c, b < s.bufAddr c i ∨ s.bufAddr c i + 16 ≤ b) :
    cellGet 0 (s.fillPool c).stk b = cellGet 0 s.stk b := by
  rw [State.fillPool_eq, State.pushes_stk]
  · rfl
  · intro i hi
    rw [(s.emptied_listOnly c).layout.bufAddr]
    exact h i hi

end Rebuild

/-! ## A buffer is taken (R335, R337) -/

/-- The entry of a buffer handed out: its owner, and a generation one higher. -/
def State.takenEntry (s : State) (c i : Nat) (w : Charge) : PolEntry :=
  { polEntry0 with owner := w.ctx, part := w.part, alloc := true, pchg := w.partOnly, gen := (s.entry c i).gen + 1 }

/-- The buffer that the header of a free one links to. -/
def State.nextFree (s : State) (c i : Nat) : Option Nat :=
  let n := fieldAt (s.stkRead (s.bufAddr c i) 4) 0 4 % 2 ^ 21
  if n = 0x1FFFFF then none else some n

/-- A buffer has been taken off the head of its list for a charge: its entry, in the metadata region too where that holds
it, the list's new head and the counts. -/
structure Taken (s : State) (c i : Nat) (w : Charge) (t : State) : Prop where
  entry : t.entry c i = s.takenEntry c i w
  others : ∀ k j, (k, j) ≠ (c, i) → t.entry k j = s.entry k j
  head : (t.pool c).head = s.nextFree c i
  free : t.f (aPolFree c) 20 0 + 1 = s.f (aPolFree c) 20 0
  count : t.reg (aPolCntAlloc c) = s.reg (aPolCntAlloc c) + 1
  stk : t.stk = (s.setEntry c i (s.takenEntry c i w)).stk
  stkPoison : t.stkPoison = s.stkPoison
  layout : SameLayout s t
  waits : t.pol.waits = s.pol.waits
  pools : PoolsOnly s t

/-- The head of a list is taken off it and counted. -/
def State.unlink (s : State) (c : Nat) (next : Option Nat) : State :=
  let u := s.setPool c { s.pool c with head := next }
  (u.setF (aPolFree c) 20 0 (u.f (aPolFree c) 20 0 - 1)).bump (aPolCntAlloc c)

section Unlink

variable (s : State) (c : Nat) (next : Option Nat)

theorem State.unlink_head : ((s.unlink c next).pool c).head = next :=
  congrArg Pool.head (s.pool_setPool_same c { s.pool c with head := next })

theorem State.unlink_reg {a : Nat} (h1 : a ≠ aPolFree c) (h2 : a ≠ aPolCntAlloc c) : (s.unlink c next).reg a = s.reg a := by
  rw [State.unlink, State.reg_bump_other _ h2, State.reg_setF_other _ _ _ _ h1]
  rfl

theorem State.unlink_count : (s.unlink c next).reg (aPolCntAlloc c) = s.reg (aPolCntAlloc c) + 1 := by
  rw [State.unlink, State.reg_bump_same, State.reg_setF_other _ _ _ _ (by unfold aPolCntAlloc aPolFree; omega)]
  rfl

theorem State.unlink_eq : s.unlink c next =
    ((s.setPool c { s.pool c with head := next }).setF (aPolFree c) 20 0 (s.f (aPolFree c) 20 0 - 1)).bump (aPolCntAlloc c) :=
  rfl

theorem State.unlink_free (h : 1 ≤ s.f (aPolFree c) 20 0) :
    (s.unlink c next).f (aPolFree c) 20 0 + 1 = s.f (aPolFree c) 20 0 := by
  have hlt : s.f (aPolFree c) 20 0 < 2 ^ 21 := Nat.mod_lt _ (by decide)
  rw [State.unlink_eq, State.f_congr (State.reg_bump_other _ (by unfold aPolFree aPolCntAlloc; omega)),
    State.f_setF_same _ _ _ _ _ (by decide) (by decide)]
  omega

theorem State.unlink_only : ∃ regs pools, s.unlink c next = { s with regs := regs, pol := { s.pol with pools := pools } } :=
  ⟨_, _, rfl⟩

theorem State.unlink_listOnly : ListOnly s (s.unlink c next) :=
  ⟨fun k j => State.entry_setPool (c := c) (p := { s.pool c with head := next }) s rfl k j,
    ⟨fun k => s.unlink_reg c next (aPolExt_ne_aPolFree k c) (by unfold aPolExt aPolCntAlloc; omega), rfl⟩, rfl⟩

end Unlink

section Pop

variable {s : State} {c i : Nat} (w : Charge)

theorem State.popOne_good (hhead : (s.pool c).head = some i) (hgood : s.headGood c i = true) :
    s.popOne c w = (some (handleOf c i ((s.entry c i).gen + 1)),
      ((s.setEntry c i (s.takenEntry c i w)).unlink c (s.nextFree c i)).polSettle c) := by
  rw [State.popOne, hhead]
  simp only [hgood, if_true, State.nextFree, State.unlink, State.takenEntry, beq_iff_eq]

/-- A pop of a good head takes the buffer. -/
theorem State.popOne_takes (hc : c < 6) (hhead : (s.pool c).head = some i) (hgood : s.headGood c i = true)
    (hfree : 1 ≤ s.f (aPolFree c) 20 0) :
    ∃ t, s.popOne c w = (some (handleOf c i ((s.entry c i).gen + 1)), t) ∧ Taken s c i w t := by
  have hpop := s.popOne_good w hhead hgood
  have hpools := s.popOne_only w (show c < 8 by omega)
  rw [hpop] at hpools
  refine ⟨_, hpop, ?_⟩
  have hregs := s.setEntry_regs c i (s.takenEntry c i w)
  have hlay := s.setEntry_layout c i (s.takenEntry c i w)
  have hsame := s.entry_setEntry_same c i (s.takenEntry c i w)
  have hother (k j : Nat) := s.entry_setEntry_other c i (s.takenEntry c i w) (k := k) (j := j)
  have hpoison := s.setEntry_stkPoison c i (s.takenEntry c i w)
  have hwaits := s.setEntry_waits c i (s.takenEntry c i w)
  generalize hu : s.setEntry c i (s.takenEntry c i w) = u at *
  have hlist := u.unlink_listOnly c (s.nextFree c i)
  have hset := (u.unlink c (s.nextFree c i)).polSettle_settled c
  generalize (u.unlink c (s.nextFree c i)).polSettle c = t at hset hpools ⊢
  have hentry (k j : Nat) : t.entry k j = u.entry k j := (State.entry_congr hset.pol k j).trans (hlist.entry k j)
  have hfree' : u.f (aPolFree c) 20 0 = s.f (aPolFree c) 20 0 := State.f_congr (State.reg_congr hregs _) _ _
  have hkept : t.stk = u.stk ∧ t.stkPoison = u.stkPoison := by
    obtain ⟨_, _, h⟩ := u.unlink_only c (s.nextFree c i)
    rw [hset.stk, hset.stkPoison, h]
    exact ⟨rfl, rfl⟩
  obtain ⟨hstk, hpoison'⟩ := hkept
  exact {
    entry := (hentry c i).trans hsame
    others := fun k j h => (hentry k j).trans (hother k j h)
    head := by rw [State.pool_congr hset.pol, State.unlink_head]
    free := by rw [hset.free, u.unlink_free _ _ (hfree'.symm ▸ hfree), hfree']
    count := by
      rw [hset.regs _ (by unfold aPolCntAlloc; omega) (by unfold aPolCntAlloc aPolFree; omega)
        (by unfold aPolCntAlloc aPolErr; omega), State.unlink_count, State.reg_congr hregs]
    stk := by rw [hstk, hu]
    stkPoison := hpoison'.trans hpoison
    layout := (hlay.trans hlist.layout).trans hset.layout
    waits := hset.listOnly.waits.trans (hlist.waits.trans hwaits)
    pools := hpools }

end Pop

end Sys2Proof.Machine
end

section
/-! O35. Pools hand out the head of their list, consumers wait, and a rebuild lists every free buffer (R335 to R342). -/

namespace Sys2Proof.Machine

theorem State.stkRead_congr {s t : State} (h : t.stk = s.stk) (a n : Nat) : t.stkRead a n = s.stkRead a n := by
  rw [State.stkRead, h]
  rfl

/-! ## What taking a buffer shows -/

/-- The entry stands in the metadata region where that holds it, beside it no byte changes, and neither do host memory, the
flash, the steps and the slots. -/
theorem Taken.shows {s t : State} {c i : Nat} {w : Charge} (h : Taken s c i w t) :
    let a := s.entryAddr c i
    let top := s.stack.metadata.1 + s.stack.metadata.2
    (a + 16 ≤ top → t.stkRead a 16 = (t.entry c i).bytes) ∧ (top < a + 16 → t.stk = s.stk) ∧
      (∀ b, b < a ∨ a + 16 ≤ b → cellGet 0 t.stk b = cellGet 0 s.stk b) ∧ t.hbm = s.hbm ∧ t.flash = s.flash ∧
      t.rgm = s.rgm ∧ t.car = s.car := by
  obtain ⟨⟨_, _, _, _, _, _, ht⟩, -, -⟩ := h.pools
  refine ⟨fun hin => ?_, fun hoff => ?_, fun b hb => ?_, by rw [ht], by rw [ht], by rw [ht], by rw [ht]⟩
  · rw [State.stkRead_congr h.stk, h.entry]
    exact s.stkRead_setEntry c i _ hin
  · rw [h.stk]
    exact s.setEntry_stk_off c i _ hoff
  · rw [h.stk]
    exact s.setEntry_stk_other c i _ b (hb.imp_right .inl)

/-- What is granted finds a buffer free (R340). -/
theorem State.grants_free {s : State} {w : PolWait} (h : s.grants w = true) : 1 ≤ s.f (aPolFree w.cls) 20 0 := by
  simp only [State.grants, State.allocAllowed, Bool.and_eq_true, decide_eq_true_eq] at h
  exact h.1.2

/-! ## A consumer asks (R338, R340 to R342) -/

section Alloc

variable {s : State} {c x p kind : Nat} (hc : c < 6)

include hc

theorem poolAlloc_takes {h : Nat} {t : State} (hready : (s.pool c).rebuilding = false)
    (hgrant : s.grants { cls := c, ctx := x, part := p, kind := kind } = true)
    (hpop : s.popOne c (PolWait.charge { cls := c, ctx := x, part := p, kind := kind }) = (some h, t)) :
    exec (.poolAlloc c x p kind) s = .next t := by
  have hexec : exec (.poolAlloc c x p kind) s = execPoolAlloc c x p kind s := rfl
  rw [hexec, execPoolAlloc, if_neg (Nat.not_le.2 hc)]
  simp only [hready, hgrant, hpop, Bool.false_eq_true, if_false, if_true]

/-- A rebuild makes every consumer wait, and a refusal those in flight (R338, R341). -/
theorem poolAlloc_waits (h : (s.pool c).rebuilding = true ∨
      s.grants { cls := c, ctx := x, part := p, kind := kind } = false ∧ (kind = 2 ∨ kind = 4)) :
    exec (.poolAlloc c x p kind) s =
      .next { s with pol := { s.pol with waits := s.pol.waits ++ [{ cls := c, ctx := x, part := p, kind := kind }] } } := by
  have hexec : exec (.poolAlloc c x p kind) s = execPoolAlloc c x p kind s := rfl
  rw [hexec, execPoolAlloc, if_neg (Nat.not_le.2 hc)]
  cases hreb : (s.pool c).rebuilding with
  | true => rfl
  | false =>
    obtain ⟨hgrant, hkind⟩ := h.resolve_left (by simp [hreb])
    have hfly : PolWait.inFlight { cls := c, ctx := x, part := p, kind := kind } = true := by simpa [PolWait.inFlight] using hkind
    simp only [hgrant, hfly, Bool.false_eq_true, if_false, if_true]

theorem poolAlloc_refuses (hready : (s.pool c).rebuilding = false)
    (hgrant : s.grants { cls := c, ctx := x, part := p, kind := kind } = false) (h2 : kind ≠ 2) (h4 : kind ≠ 4) :
    exec (.poolAlloc c x p kind) s = .next s := by
  have hexec : exec (.poolAlloc c x p kind) s = execPoolAlloc c x p kind s := rfl
  have hfly : PolWait.inFlight { cls := c, ctx := x, part := p, kind := kind } = false := by simp [PolWait.inFlight, h2, h4]
  rw [hexec, execPoolAlloc, if_neg (Nat.not_le.2 hc)]
  simp only [hready, hgrant, hfly, Bool.false_eq_true, if_false]

end Alloc

/-! ## Retries (R338, R341) -/

theorem State.retryRing_nil {s : State} (h : s.ring.wait = []) : s.retryRing = s := by
  simp only [State.retryRing, h, List.foldl_nil]
  rw [← h]

/-- Where no ring packet waits, a pool's retry is that of its allocations. -/
theorem State.retryPool_alone {s : State} {c n : Nat} (h : c = 3 → (serveWaits n c s).ring.wait = []) :
    s.retryPool c n = serveWaits n c s := by
  unfold State.retryPool
  dsimp only
  split
  · next hc => exact State.retryRing_nil (h (beq_iff_eq.1 hc))
  · rfl

/-- The oldest allocation of the pool is served. -/
theorem serveWaits_one {s t : State} {w : PolWait} {rest : List PolWait} {h : Nat} (hw : s.pol.waits = w :: rest)
    (hgrant : s.grants w = true) (hpop : s.popOne w.cls w.charge = (some h, t)) :
    serveWaits 1 w.cls s = { t with pol := { t.pol with waits := t.pol.waits.erase w } } := by
  have hfind : s.pol.waits.find? (fun v => v.cls == w.cls) = some w := by simp [hw]
  simp only [serveWaits, hfind, hgrant, hpop, if_true]

/-- With nothing waiting for the pool, nothing is served. -/
theorem serveWaits_none {s : State} {c n : Nat} (h : s.pol.waits.all (fun w => w.cls != c) = true) : serveWaits n c s = s := by
  have hnone : s.pol.waits.find? (fun w => w.cls == c) = none := by
    rw [List.find?_eq_none]
    simpa using h
  cases n with
  | zero => rfl
  | succ n => simp only [serveWaits, hnone]

theorem exec_inflightAllocRetry {s : State} {c : Nat} (hc : c < 6) (hready : (s.pool c).rebuilding = false) :
    exec (.inflightAllocRetry c) s = .next (s.retryPool c 1) := by
  have hexec : exec (.inflightAllocRetry c) s = execInflightAllocRetry c s := rfl
  rw [hexec, execInflightAllocRetry, hready, decide_eq_true hc]
  rfl

theorem exec_freeListRebuildDone {s : State} {c : Nat} (hc : c < 6) (hreb : (s.pool c).rebuilding = true) :
    exec (.freeListRebuildDone c) s = .next ((s.rebuild c).retryPool c s.pol.waits.length) := by
  have hexec : exec (.freeListRebuildDone c) s = execFreeListRebuildDone c s := rfl
  rw [hexec, execFreeListRebuildDone, hreb, decide_eq_true hc]
  rfl

/-- The allocation served is the oldest, and it no longer waits. -/
theorem inflightAllocRetry_serves {s t : State} {w : PolWait} {rest : List PolWait} {h : Nat} (hc : w.cls < 6)
    (hready : (s.pool w.cls).rebuilding = false) (hw : s.pol.waits = w :: rest) (halone : w.cls = 3 → s.ring.wait = [])
    (hgrant : s.grants w = true) (hpop : s.popOne w.cls w.charge = (some h, t)) (hwaits : t.pol.waits = s.pol.waits) :
    exec (.inflightAllocRetry w.cls) s = .next { t with pol := { t.pol with waits := rest } } := by
  have hserve := serveWaits_one hw hgrant hpop
  have hring : t.ring = s.ring := by
    have hpools := s.popOne_only w.charge (show w.cls < 8 by omega)
    rw [hpop] at hpools
    obtain ⟨⟨_, _, _, _, _, _, ht⟩, -, -⟩ : PoolsOnly s t := hpools
    rw [ht]
  rw [hwaits, hw, List.erase_cons_head] at hserve
  rw [exec_inflightAllocRetry hc hready, State.retryPool_alone, hserve]
  rw [hserve]
  exact fun h3 => (congrArg Ring.wait hring).trans (halone h3)

/-! ## A rebuild is done (R338) -/

theorem freeListRebuildDone_completes {s : State} {c : Nat} (hc : c < 6) (hreb : (s.pool c).rebuilding = true)
    (hnone : s.pol.waits.all (fun w => w.cls != c) = true) (halone : c = 3 → s.ring.wait = []) :
    Completes (.freeListRebuildDone c) s (fun t =>
      (t.pool c).rebuilding = false ∧ (t.pool c).head = (s.freeBufs c).head? ∧
      t.f (aPolFree c) 20 0 = (s.freeBufs c).length ∧ (∀ k i, t.entry k i = s.entry k i) ∧ t.hbm = s.hbm ∧
      t.flash = s.flash ∧ t.rgm = s.rgm) := by
  obtain ⟨⟨_, _, _, _, _, _, hsame⟩, -, -⟩ := s.rebuild_only (show c < 8 by omega)
  have hset := (s.fillPool c).polSettle_settled c
  have hlist := s.fillPool_listOnly c
  obtain ⟨hhead, hready, hfree⟩ := s.fillPool_lists c
  have hwaits : (s.rebuild c).pol.waits = s.pol.waits := hset.listOnly.waits.trans hlist.waits
  have hserve : serveWaits s.pol.waits.length c (s.rebuild c) = s.rebuild c := serveWaits_none (hwaits ▸ hnone)
  have hexec := exec_freeListRebuildDone hc hreb
  rw [State.retryPool_alone (by rw [hserve, hsame]; exact halone), hserve] at hexec
  refine ⟨_, hexec, ?_⟩
  refine ⟨?_, ?_, ?_, fun k i => ?_, by rw [hsame], by rw [hsame], by rw [hsame]⟩
  · rw [State.rebuild, State.pool_congr hset.pol, hready]
  · rw [State.rebuild, State.pool_congr hset.pol, hhead]
  · rw [State.rebuild, hset.free, hfree]
  · rw [State.rebuild, State.entry_congr hset.pol, hlist.entry]

/-! ## The obligation -/

/-- Settles O35: an allocation takes the head of the list, a retry does so for the oldest that waits, and a rebuild pushes
every free buffer, the lowest index last. -/
theorem poolsAllocateTheHead : Obligations.PoolsAllocateTheHead := by
  intro s c x p kind hc w top alone got
  have hgot (i : Nat) (t : State) (h : Taken s c i w.charge t) : got i t :=
    ⟨h.entry, h.others, h.head, h.free, h.count, h.shows⟩
  refine ⟨fun i hready hgrant hhead hgood => ?_, poolAlloc_waits hc, poolAlloc_refuses hc, freeListRebuildDone_completes hc⟩
  have hfree : 1 ≤ s.f (aPolFree c) 20 0 := State.grants_free (w := w) hgrant
  obtain ⟨t, hpop, htaken⟩ := State.popOne_takes w.charge hc hhead hgood hfree
  refine ⟨⟨t, poolAlloc_takes hc hready hgrant hpop, hgot i t htaken, htaken.waits⟩, fun rest hw halone => ?_⟩
  exact ⟨_, inflightAllocRetry_serves (w := w) hc hready hw halone hgrant hpop htaken.waits, hgot i t htaken, rfl⟩

end Sys2Proof.Machine
end

section
/-! Buffers come back (R346, R349 to R351): a return to the list, a use given back, and a release from quarantine. -/

namespace Sys2Proof.Machine

theorem PoolsOnly.dark {s t : State} (h : PoolsOnly s t) : t.dark = s.dark := by
  obtain ⟨⟨_, _, _, _, _, _, ht⟩, hr, -⟩ := h
  exact State.dark_congr (by rw [ht]) (hr _ (by decide)) (hr _ (by decide))

/-! ## A buffer goes back on its list (R337, R349) -/

/-- A buffer becomes the head of its list again, and the free is counted. -/
def State.putBack (s : State) (c i : Nat) : State := ((s.push c i).bump (aPolCntFree c)).polSettle c

theorem ListOnly.bump (s : State) {a : Nat} (h : ∀ k, aPolExt k ≠ a) : ListOnly s (s.bump a) :=
  ⟨fun _ _ => rfl, ⟨fun k => s.reg_bump_other (h k), rfl⟩, rfl⟩

theorem State.pool_bump (s : State) (a c : Nat) : (s.bump a).pool c = s.pool c := rfl

section PutBack

variable (s : State) (c i : Nat)

theorem State.putBack_settled : Settled c ((s.push c i).bump (aPolCntFree c)) (s.putBack c i) := State.polSettle_settled _ c

theorem State.putBack_listOnly : ListOnly s (s.putBack c i) := by
  have hcount := ListOnly.bump (s.push c i) (a := aPolCntFree c) fun k => by unfold aPolExt aPolCntFree; omega
  exact ((s.push_listOnly c i).trans hcount).trans (s.putBack_settled c i).listOnly

theorem State.putBack_head : ((s.putBack c i).pool c).head = some i := by
  rw [State.pool_congr (s.putBack_settled c i).pol, State.pool_bump, State.push_pool]

theorem State.putBack_count : (s.putBack c i).reg (aPolCntFree c) = s.reg (aPolCntFree c) + 1 := by
  rw [(s.putBack_settled c i).regs _ (by unfold aPolCntFree; omega) (by unfold aPolCntFree aPolFree; omega)
    (by unfold aPolCntFree aPolErr; omega), State.reg_bump_same, State.push_reg _ _ _ (by unfold aPolCntFree aPolFree; omega)]

theorem State.putBack_stk (b : Nat) (hb : b < s.bufAddr c i ∨ s.bufAddr c i + 16 ≤ b) :
    cellGet 0 (s.putBack c i).stk b = cellGet 0 s.stk b := by
  rw [(s.putBack_settled c i).stk, State.bump_stk, s.push_stk c i b hb]

theorem State.putBack_only (hc : c < 8) : PoolsOnly s (s.putBack c i) :=
  ((s.push_only i hc).trans (.bump _ (by unfold aPolCntFree; omega))).trans (State.polSettle_only _ hc)

end PutBack

/-! ## Returns and uses (R345, R346, R349) -/

section Return

variable {s : State} {c i : Nat}

theorem State.returnBuf_eq (hq : (s.entry c i).quar = false) :
    s.returnBuf c i = (s.setEntry c i { polEntry0 with gen := (s.entry c i).gen }).putBack c i := by
  unfold State.returnBuf
  simp only [hq, Bool.false_eq_true, if_false]
  rfl

/-- A buffer that is not quarantined leaves its owner and becomes the head of its list. -/
theorem State.returnBuf_frees (hq : (s.entry c i).quar = false) :
    (s.returnBuf c i).entry c i = { polEntry0 with gen := (s.entry c i).gen } ∧ ((s.returnBuf c i).pool c).head = some i ∧
      (s.returnBuf c i).reg (aPolCntFree c) = s.reg (aPolCntFree c) + 1 := by
  rw [State.returnBuf_eq hq, (State.putBack_listOnly _ _ _).entry, State.entry_setEntry_same, State.putBack_head,
    State.putBack_count, State.reg_congr (State.setEntry_regs _ _ _ _)]
  exact ⟨rfl, rfl, rfl⟩

/-- A FRAMED buffer in use more than once only gives a use back. -/
theorem State.dropUse_gives (h : 2 ≤ (s.entry c i).use) :
    s.dropUse c i = s.setEntry c i { s.entry c i with use := (s.entry c i).use - 1 } := by
  unfold State.dropUse
  have hno : ((s.entry c i).use - 1 == 0) = false := by
    rw [beq_eq_false_iff_ne]
    omega
  simp only [hno, Bool.false_eq_true, if_false]

/-- The last use of one whose frame handle is marked leaves it HELD. -/
theorem State.dropUse_holds (h : (s.entry c i).use = 1) (hm : s.pol.marks.contains (s.entry c i).fh = true) :
    (s.dropUse c i).entry c i = { s.entry c i with use := 0, held := true } ∧
      ((s.dropUse c i).pool c).head = (s.pool c).head := by
  unfold State.dropUse
  simp only [h, Nat.sub_self, beq_self_eq_true, if_true, State.setEntry_marks, hm, State.entry_setEntry_same,
    State.setEntry_head, and_self]

/-- The last use of one that is not marked frees it. -/
theorem State.dropUse_frees (h : (s.entry c i).use = 1) (hm : s.pol.marks.contains (s.entry c i).fh = false)
    (hq : (s.entry c i).quar = false) :
    (s.dropUse c i).entry c i = { polEntry0 with gen := (s.entry c i).gen } ∧ ((s.dropUse c i).pool c).head = some i ∧
      (s.dropUse c i).reg (aPolCntFree c) = s.reg (aPolCntFree c) + 1 := by
  have hdrop : s.dropUse c i = (s.setEntry c i { s.entry c i with use := 0 }).returnBuf c i := by
    unfold State.dropUse
    simp only [h, Nat.sub_self, beq_self_eq_true, if_true, State.setEntry_marks, hm, Bool.false_eq_true, if_false]
  obtain ⟨hentry, hhead, hcount⟩ := State.returnBuf_frees (c := c) (i := i)
    (s := s.setEntry c i { s.entry c i with use := 0 }) (by rw [State.entry_setEntry_same]; exact hq)
  rw [State.entry_setEntry_same] at hentry
  rw [State.reg_congr (State.setEntry_regs _ _ _ _)] at hcount
  rw [hdrop]
  exact ⟨hentry, hhead, hcount⟩

end Return

/-! ## A release from quarantine (R351) -/

theorem PoolsOnly.stkZero (s : State) (a n : Nat) : PoolsOnly s (s.stkZero a n) := by
  refine ⟨⟨s.regs, s.atn, s.way.flash, s.pol, _, _, rfl⟩, fun _ _ => rfl, fun h => ?_⟩
  obtain ⟨hhbm, hstk, hflash⟩ := (memWf_iff s).1 h
  exact (memWf_iff _).2 ⟨hhbm, wf_filter _ _ _ hstk, hflash⟩

theorem State.stkZero_zeros (s : State) {a n b : Nat} (h1 : a ≤ b) (h2 : b < a + n) : cellGet 0 (s.stkZero a n).stk b = 0 := by
  refine tabGet_absent _ _ _ fun e he hb => ?_
  have hout := (List.mem_filter.1 he).2
  simp only [Bool.or_eq_true, decide_eq_true_eq] at hout
  omega

theorem State.stkZero_layout (s : State) (a n : Nat) : SameLayout s (s.stkZero a n) := ⟨fun _ => rfl, rfl⟩

/-- The bytes of a buffer, but for its own first 16, lie beside the header of every buffer of its pool (R334, R336). -/
theorem State.bufAddr_apart (s : State) (c : Nat) {i j b : Nat} (h1 : s.bufAddr c i ≤ b) (h2 : b < s.bufAddr c i + classSize c)
    (h : j ≠ i ∨ s.bufAddr c i + 16 ≤ b) : b < s.bufAddr c j ∨ s.bufAddr c j + 16 ≤ b := by
  have hsize : 16 ≤ classSize c := by
    have hpow : 1 ≤ 4 ^ c := Nat.one_le_pow _ _ (by decide)
    unfold classSize
    omega
  unfold State.bufAddr at *
  obtain hlt | rfl | hgt := lt_trichotomy j i
  · have hstep : (j + 1) * classSize c ≤ i * classSize c := Nat.mul_le_mul_right _ hlt
    rw [Nat.add_mul] at hstep
    omega
  · exact .inr (h.resolve_left (· rfl))
  · have hstep : (i + 1) * classSize c ≤ j * classSize c := Nat.mul_le_mul_right _ hgt
    rw [Nat.add_mul] at hstep
    omega

section Quarantine

variable {s : State} {h : Nat} (hc : handleClass h < 6) (hi : handleIndex h < s.poolCount (handleClass h))
  (hquar : (s.entry (handleClass h) (handleIndex h)).quar = true)
  (halloc : (s.entry (handleClass h) (handleIndex h)).alloc = false)

/-- The stack with zeros over the buffer that a handle names. -/
def State.zeroed (s : State) (h : Nat) : State :=
  s.stkZero (s.bufAddr (handleClass h) (handleIndex h)) (classSize (handleClass h))

/-- The buffer whose zeros read clean is no longer quarantined. -/
def State.cleared (s : State) (h : Nat) : State :=
  (s.zeroed h).setEntry (handleClass h) (handleIndex h) { s.entry (handleClass h) (handleIndex h) with quar := false }

theorem State.zeroed_only (s : State) (h : Nat) : PoolsOnly s (s.zeroed h) := .stkZero _ _ _

theorem State.cleared_only (s : State) (h : Nat) : PoolsOnly s (s.cleared h) := (s.zeroed_only h).trans (.setEntry _ _ _ _)

theorem State.zeroed_layout (s : State) (h : Nat) : SameLayout s (s.zeroed h) := s.stkZero_layout _ _

theorem State.cleared_layout (s : State) (h : Nat) : SameLayout s (s.cleared h) :=
  (s.zeroed_layout h).trans (State.setEntry_layout _ _ _ _)

theorem State.zeroed_zeros (s : State) (h : Nat) {b : Nat} (h1 : s.bufAddr (handleClass h) (handleIndex h) ≤ b)
    (h2 : b < s.bufAddr (handleClass h) (handleIndex h) + classSize (handleClass h)) : cellGet 0 (s.zeroed h).stk b = 0 :=
  s.stkZero_zeros h1 h2

/-- Where the buffer lies outside the metadata region, its entry's bytes are not among the zeros. -/
theorem State.cleared_zeros (s : State) (h : Nat)
    (hout : s.stack.metadata.1 + s.stack.metadata.2 ≤ s.bufAddr (handleClass h) (handleIndex h) ∨
      s.bufAddr (handleClass h) (handleIndex h) + classSize (handleClass h) ≤ s.stack.metadata.1) {b : Nat}
    (h1 : s.bufAddr (handleClass h) (handleIndex h) ≤ b)
    (h2 : b < s.bufAddr (handleClass h) (handleIndex h) + classSize (handleClass h)) : cellGet 0 (s.cleared h).stk b = 0 := by
  have habove : s.stack.metadata.1 ≤ (s.zeroed h).entryAddr (handleClass h) (handleIndex h) := by
    rw [(s.zeroed_layout h).entryAddr]
    exact Nat.le_add_right _ _
  rw [State.cleared, State.setEntry_stk_other]
  · exact s.zeroed_zeros h h1 h2
  · rw [(s.zeroed_layout h).stack]
    omega

include hc hi hquar halloc

/-- A buffer that reads clean goes back on its list where it was off it; else the list is linked anew (log 87). -/
theorem State.qrel_clean : s.qrel h true =
    (0, if (s.pool (handleClass h)).off.contains (handleIndex h) then
      ((s.cleared h).setOff (handleClass h)
        (setErase ((s.cleared h).pool (handleClass h)).off (handleIndex h))).putBack (handleClass h) (handleIndex h)
    else (s.cleared h).fillPool (handleClass h)) := by
  unfold State.qrel
  simp only [ge_iff_le, Nat.not_le.2 hc, Nat.not_le.2 hi, hquar, halloc, decide_false, Bool.not_true, Bool.or_self,
    Bool.false_eq_true, if_false, if_true, State.cleared, State.zeroed, State.putBack]
  split
  · rfl
  · rfl

theorem State.qrel_unclean : s.qrel h false =
    (3, if (s.pool (handleClass h)).off.contains (handleIndex h) then s.zeroed h
      else (s.zeroed h).fillPool (handleClass h)) := by
  unfold State.qrel
  simp only [ge_iff_le, Nat.not_le.2 hc, Nat.not_le.2 hi, hquar, halloc, decide_false, Bool.not_true, Bool.or_self,
    Bool.false_eq_true, if_false, State.zeroed]

/-- The buffer is free again, at the head of its list when it was off it, and zeros stand behind its header. -/
theorem State.qrel_clean_effect (hout : s.stack.metadata.1 + s.stack.metadata.2 ≤ s.bufAddr (handleClass h) (handleIndex h) ∨
      s.bufAddr (handleClass h) (handleIndex h) + classSize (handleClass h) ≤ s.stack.metadata.1) :
    ∃ t, s.qrel h true = (0, t) ∧ PoolsOnly s t ∧
      t.entry (handleClass h) (handleIndex h) = { s.entry (handleClass h) (handleIndex h) with quar := false } ∧
      ((s.pool (handleClass h)).off.contains (handleIndex h) = true → (t.pool (handleClass h)).head = some (handleIndex h)) ∧
      ∀ b, s.bufAddr (handleClass h) (handleIndex h) + 16 ≤ b →
        b < s.bufAddr (handleClass h) (handleIndex h) + classSize (handleClass h) → cellGet 0 t.stk b = 0 := by
  have hentry : (s.cleared h).entry (handleClass h) (handleIndex h) =
      { s.entry (handleClass h) (handleIndex h) with quar := false } := State.entry_setEntry_same _ _ _ _
  have hzeros (b : Nat) (h1 : s.bufAddr (handleClass h) (handleIndex h) + 16 ≤ b)
      (h2 : b < s.bufAddr (handleClass h) (handleIndex h) + classSize (handleClass h)) :=
    s.cleared_zeros h hout (b := b) (by omega) h2
  have hlayout := s.cleared_layout h
  have honly := s.cleared_only h
  refine ⟨_, State.qrel_clean hc hi hquar halloc, ?_⟩
  generalize s.cleared h = u at hentry hzeros hlayout honly ⊢
  generalize handleClass h = c at *
  generalize handleIndex h = i at *
  cases hoff : (s.pool c).off.contains i with
  | true =>
    rw [if_pos rfl]
    generalize setErase (u.pool c).off i = l
    have hlist := u.setOff_listOnly c l
    refine ⟨honly.trans ((u.setOff_only l (by omega)).trans (State.putBack_only _ _ _ (by omega))), ?_,
      fun _ => State.putBack_head _ _ _, fun b h1 h2 => ?_⟩
    · rw [(State.putBack_listOnly _ _ _).entry, hlist.entry, hentry]
    · rw [State.putBack_stk _ _ _ _ (by rw [hlist.layout.bufAddr, hlayout.bufAddr]; exact .inr h1)]
      exact hzeros b h1 h2
  | false =>
    rw [if_neg Bool.false_ne_true]
    refine ⟨honly.trans (u.fillPool_only (by omega)), ?_, fun h => absurd h Bool.false_ne_true, fun b h1 h2 => ?_⟩
    · rw [(u.fillPool_listOnly c).entry, hentry]
    · rw [u.fillPool_stk c b fun j _ => ?_]
      · exact hzeros b h1 h2
      · rw [hlayout.bufAddr]
        exact s.bufAddr_apart c (by omega) h2 (.inr h1)

/-- Where a granule does not read clean, the buffer stays quarantined, its bytes all zeros. -/
theorem State.qrel_unclean_effect :
    ∃ t, s.qrel h false = (3, t) ∧ PoolsOnly s t ∧
      t.entry (handleClass h) (handleIndex h) = s.entry (handleClass h) (handleIndex h) ∧
      ∀ b, s.bufAddr (handleClass h) (handleIndex h) ≤ b →
        b < s.bufAddr (handleClass h) (handleIndex h) + classSize (handleClass h) → cellGet 0 t.stk b = 0 := by
  have hentry (k j : Nat) : (s.zeroed h).entry k j = s.entry k j := rfl
  have hzeros (b : Nat) := s.zeroed_zeros h (b := b)
  have hlayout := s.zeroed_layout h
  have honly := s.zeroed_only h
  refine ⟨_, State.qrel_unclean hc hi hquar halloc, ?_⟩
  generalize s.zeroed h = u at hentry hzeros hlayout honly ⊢
  generalize handleClass h = c at *
  generalize handleIndex h = i at *
  cases hoff : (s.pool c).off.contains i with
  | true => exact ⟨honly, hentry c i, hzeros⟩
  | false =>
    refine ⟨honly.trans (u.fillPool_only (by omega)), ?_, fun b h1 h2 => ?_⟩
    · exact ((u.fillPool_listOnly c).entry c i).trans (hentry c i)
    · refine (u.fillPool_stk c b fun j hj => ?_).trans (hzeros b h1 h2)
      have hne : j ≠ i := by
        rintro rfl
        have hfree := (List.mem_filter.1 hj).2
        simp [hentry, hquar] at hfree
      rw [hlayout.bufAddr]
      exact s.bufAddr_apart c h1 h2 (.inl hne)

end Quarantine

end Sys2Proof.Machine
end

section
/-! O36. POL_OP (R328, R345 to R351, R359): software takes a buffer, frees one, and releases one from quarantine. -/

namespace Sys2Proof.Machine

/-! ## The fields that a write of POL_OP stores (R359) -/

section Fields

variable (s : State) (v : Word)

theorem State.polOpFields_reg {a : Nat} (h : a ≠ aPolOp) : (s.polOpFields v).reg a = s.reg a := s.reg_setReg_other _ h

theorem State.polOpFields_f {hi lo : Nat} (h : lo ≤ hi) (h14 : hi ≤ 14) :
    (s.polOpFields v).f aPolOp hi lo = fld v.toNat hi lo := by
  have hmask : fm 14 0 = 2 ^ 15 - 1 := rfl
  rw [State.polOpFields, State.f, State.regN, State.reg_setReg_same]
  refine fld_mergeMask _ _ h (by omega) fun i hi' _ => ?_
  rw [hmask, Nat.testBit_two_pow_sub_one]
  exact decide_eq_true (by omega)

theorem State.polOpFields_only : PoolsOnly s (s.polOpFields v) := .setReg s _ (by decide)

theorem State.polOpFields_layout : SameLayout s (s.polOpFields v) :=
  .setReg s _ fun k => by unfold aPolExt aPolOp; omega

@[simp] theorem State.polOpFields_pol : (s.polOpFields v).pol = s.pol := rfl

@[simp] theorem State.polOpFields_entry (c i : Nat) : (s.polOpFields v).entry c i = s.entry c i := rfl

@[simp] theorem State.polOpFields_pool (c : Nat) : (s.polOpFields v).pool c = s.pool c := rfl

@[simp] theorem State.polOpFields_granulePoison (g : Nat) : (s.polOpFields v).granulePoison g = s.granulePoison g := rfl

@[simp] theorem State.polOpFields_stack : (s.polOpFields v).stack = s.stack := rfl

@[simp] theorem State.polOpFields_bufAddr (c i : Nat) : (s.polOpFields v).bufAddr c i = s.bufAddr c i :=
  (s.polOpFields_layout v).bufAddr c i

@[simp] theorem State.polOpFields_poolCount (c : Nat) : (s.polOpFields v).poolCount c = s.poolCount c :=
  (s.polOpFields_layout v).poolCount c

@[simp] theorem State.polOpFields_entryAddr (c i : Nat) : (s.polOpFields v).entryAddr c i = s.entryAddr c i :=
  (s.polOpFields_layout v).entryAddr c i

@[simp] theorem State.polOpFields_handle : (s.polOpFields v).regN aPolOpHandle = s.regN aPolOpHandle :=
  congrArg BitVec.toNat (s.polOpFields_reg v (by decide))

@[simp] theorem State.polOpFields_badFree (h x : Nat) (p : Bool) : (s.polOpFields v).badFree h x p = s.badFree h x p := by
  unfold State.badFree
  dsimp only
  rw [State.polOpFields_poolCount, State.polOpFields_entry]

@[simp] theorem State.polOpFields_headGood (c i : Nat) : (s.polOpFields v).headGood c i = s.headGood c i := by
  unfold State.headGood
  rw [State.polOpFields_poolCount, State.polOpFields_bufAddr, State.polOpFields_entry]
  rfl

theorem State.polOpFields_ctxPart {x : Nat} (h : x < 4096) : (s.polOpFields v).ctxPart x = s.ctxPart x :=
  State.f_congr (s.polOpFields_reg v (by unfold aCtxCfg aPolOp; omega)) _ _

theorem State.ctxPart_lt (x : Nat) : s.ctxPart x < 64 := Nat.mod_lt _ (by decide)

/-- Quotas, ceilings, thresholds and counts are read as before (R340). -/
theorem State.polOpFields_allocAllowed {c x : Nat} (hc : c < 6) (hx : x < 4096) (n kind : Nat) :
    (s.polOpFields v).allocAllowed c n (chargeOf x (s.ctxPart x)) kind =
      s.allocAllowed c n (chargeOf x (s.ctxPart x)) kind := by
  have hpart := s.ctxPart_lt x
  have hquota : (s.polOpFields v).quota x c = s.quota x c := by
    refine State.f_congr (s.polOpFields_reg v ?_) _ _
    split
    · unfold aCtxQuotaA aPolOp; omega
    · unfold aCtxQuotaB aPolOp; omega
  have hceil : (s.polOpFields v).ceil (s.ctxPart x) c = s.ceil (s.ctxPart x) c :=
    State.f_congr (s.polOpFields_reg v (by unfold aParCeil0 aPolOp; omega)) _ _
  have hfree (hi lo : Nat) : (s.polOpFields v).f (aPolFree c) hi lo = s.f (aPolFree c) hi lo :=
    State.f_congr (s.polOpFields_reg v (by unfold aPolFree aPolOp; omega)) _ _
  have hheld : (s.polOpFields v).heldCtx c x = s.heldCtx c x ∧
      (s.polOpFields v).heldPart c (s.ctxPart x) = s.heldPart c (s.ctxPart x) := ⟨rfl, rfl⟩
  unfold State.allocAllowed chargeOf
  dsimp only
  rw [hquota, hceil, hfree, hfree, hheld.1, hheld.2]

end Fields

/-! ## Partial writes (R328) -/

/-- The granule of a state entry in the metadata region is poisoned. -/
def State.worn (s : State) (c i : Nat) : Bool :=
  decide (s.entryAddr c i + 16 ≤ s.stack.metadata.1 + s.stack.metadata.2) && s.granulePoison (s.entryAddr c i / 32)

@[simp] theorem State.polOpFields_worn (s : State) (v : Word) (c i : Nat) : (s.polOpFields v).worn c i = s.worn c i := by
  simp only [State.worn, State.polOpFields_entryAddr, State.polOpFields_stack, State.polOpFields_granulePoison]

theorem State.any_poolGranules (s : State) (c i : Nat) (header : Bool) :
    (s.poolGranules c i header).any s.granulePoison = (header && s.granulePoison (s.bufAddr c i / 32) || s.worn c i) := by
  unfold State.poolGranules State.worn
  dsimp only
  rw [List.any_append]
  congr 1
  · cases header <;> simp
  · split <;> simp [*]

/-- Reads that meet no error leave the state; a poisoned granule gives outcome 3. -/
theorem State.rmwErrors_clean (s : State) {reads : EccReads} (hclean : ∀ g, findingOf reads g = .clean) (gs : List Nat) :
    s.rmwErrors gs reads = (if gs.any s.granulePoison then 3 else 0, s) := by
  have hone (g : Nat) : s.rmwError g (findingOf reads g) = (if s.granulePoison g then 3 else 0, s) := by
    rw [hclean, State.rmwError]
    split <;> rfl
  have hmax (n : Nat) (a b : Bool) :
      max (max n (if a then 3 else 0)) (if b then 3 else 0) = max n (if a || b then 3 else 0) := by
    cases a <;> cases b <;> simp
  have hall (gs : List Nat) (n : Nat) : gs.foldl (fun (a : Nat × State) g =>
      let r := a.2.rmwError g (findingOf reads g)
      (max a.1 r.1, r.2)) (n, s) = (max n (if gs.any s.granulePoison then 3 else 0), s) := by
    induction gs generalizing n with
    | nil => simp
    | cons g gs ih =>
      rw [List.foldl_cons, List.any_cons, ← hmax]
      dsimp only
      rw [hone]
      exact ih _
  exact (hall gs 0).trans (by rw [Nat.zero_max])

/-- The outcome of a write that reads no error: 3 over poison, else 0. -/
theorem State.outcome_partial (s : State) (w : Word) (b : Bool) (hd : s.dark = false) :
    (s.setReply w (if b then 3 else 0)).outcome = if b then 3 else 0 := by
  rw [State.outcome_setReply _ _ _ hd]
  cases b <;> rfl

/-! ## OP 1 (R340, R359) -/

/-- Of one buffer, an allocation that is allowed takes the head. -/
theorem State.allocN_one {s t : State} {c h kind : Nat} {w : Charge} (hready : (s.pool c).rebuilding = false)
    (hallow : s.allocAllowed c 1 w kind = true) (hpop : s.popOne c w = (some h, t)) : s.allocN c 1 w kind = (some [h], t) := by
  have hloop : takeLoop (2 * 1 + 2) c 1 w [] s = ([h], t) := by
    simp only [takeLoop, hpop, Nat.sub_self, beq_self_eq_true, if_true, Nat.one_ne_zero, beq_iff_eq, if_false, List.nil_append]
  simp only [State.allocN, hready, hallow, hloop, Bool.false_eq_true, if_false, if_true, Nat.one_ne_zero, beq_iff_eq,
    List.length_singleton]

theorem State.allocN_refused {s : State} {c kind : Nat} {w : Charge} (hready : (s.pool c).rebuilding = false)
    (hallow : s.allocAllowed c 1 w kind = false) : s.allocN c 1 w kind = (none, s) := by
  unfold State.allocN
  rw [hready]
  simp only [Bool.false_eq_true, if_false]
  rw [if_neg (by decide), if_neg (by rw [hallow]; decide)]

theorem handleIndex_handleOf {c i : Nat} (hi : i < 2 ^ 21) (gen : BitVec 32) : handleIndex (handleOf c i gen) = i := by
  have hsum : handleOf c i gen = i + 2 ^ 21 * (8 * c + 2048 * gen.toNat) := by
    unfold handleOf
    simp only [Nat.shiftLeft_eq]
    ring
  have hfld (n : Nat) : handleIndex n = n % 2 ^ 21 := rfl
  rw [hfld, hsum, Nat.add_mul_mod_self_left, Nat.mod_eq_of_lt hi]

section Operations

variable {s : State} {v : Word} {reads : EccReads} (hs : s.unitShut = false) (hd : s.dark = false)
  (hclean : ∀ g, findingOf reads g = .clean)

include hs hclean

section Alloc

variable {c x : Nat} (hcls : fld v.toNat 14 12 = c) (hctx : fld v.toNat 11 0 = x)

include hcls hctx

/-- OP 1 that is allowed: the head, whose entry is written in part. -/
theorem exec_polOpAlloc_takes {h : Nat} {t : State} (hc : c < 6)
    (halloc : (s.polOpFields v).allocN c 1 (chargeOf x (s.ctxPart x)) 1 = (some [h], t)) :
    exec (.polOpAlloc v reads) s =
      .next ((t.setReg aPolOpHandle (word h)).setReply 0 (if t.worn c (handleIndex h) then 3 else 0)) := by
  have hexec : exec (.polOpAlloc v reads) s = execPolOpAlloc v reads s := rfl
  have hx : x < 4096 := hctx ▸ Nat.mod_lt _ (by decide)
  have hwrite := t.rmwErrors_clean hclean (t.poolGranules c (handleIndex h) false)
  rw [State.any_poolGranules, Bool.false_and, Bool.false_or] at hwrite
  rw [hexec, execPolOpAlloc, hs]
  simp only [Bool.false_eq_true, if_false, s.polOpFields_f v (show 12 ≤ 14 by decide) (Nat.le_refl 14), hcls,
    s.polOpFields_f v (Nat.zero_le 11) (show 11 ≤ 14 by decide), hctx, s.polOpFields_ctxPart v hx, ge_iff_le,
    Nat.not_le.2 hc, hclean, State.readError_clean, ite_self, halloc, hwrite]

/-- OP 1 of no class, or that is not allowed. -/
theorem exec_polOpAlloc_refuses
    (h : 6 ≤ c ∨ (s.polOpFields v).allocN c 1 (chargeOf x (s.ctxPart x)) 1 = (none, s.polOpFields v)) :
    exec (.polOpAlloc v reads) s = .next (s.polOpFields v).refuse := by
  have hexec : exec (.polOpAlloc v reads) s = execPolOpAlloc v reads s := rfl
  have hx : x < 4096 := hctx ▸ Nat.mod_lt _ (by decide)
  rw [hexec, execPolOpAlloc, hs]
  simp only [Bool.false_eq_true, if_false, s.polOpFields_f v (show 12 ≤ 14 by decide) (Nat.le_refl 14), hcls,
    s.polOpFields_f v (Nat.zero_le 11) (show 11 ≤ 14 by decide), hctx, s.polOpFields_ctxPart v hx, ge_iff_le,
    hclean, State.readError_clean, ite_self]
  split
  · rfl
  · next hc => rw [h.resolve_left hc]

end Alloc

/-! ## OP 2 (R345 to R350, R359) -/

section Free

variable {h x c i : Nat} (hh : s.regN aPolOpHandle = h) (hctx : fld v.toNat 11 0 = x)

include hh hctx

omit hclean in
/-- A handle that may not be freed is refused, counted and flagged. -/
theorem exec_polOpFree_refuses (hbad : s.badFree h x false = true) :
    exec (.polOpFree v reads) s =
      .next ((((s.polOpFields v).bump aPolCntBadfree).errBit aPolErr 0 cPolBadfree).setReply 0 2) := by
  have hexec : exec (.polOpFree v reads) s = execPolOpFree v reads s := rfl
  rw [hexec, execPolOpFree, hs]
  simp only [Bool.false_eq_true, if_false, State.polOpFields_handle, hh,
    s.polOpFields_f v (Nat.zero_le 11) (show 11 ≤ 14 by decide), hctx, State.polOpFields_badFree, hbad, if_true, State.freeBuf]

/-- One that may is freed: the header of a buffer that goes back on its list, and its entry, are written in part. -/
theorem exec_polOpFree_frees (hbad : s.badFree h x false = false) (hc : handleClass h = c) (hi : handleIndex h = i) {back : Bool}
    (hback : (!(s.entry c i).quar &&
      (!(s.entry c i).framed || ((s.entry c i).use == 1 && !s.pol.marks.contains (s.entry c i).fh))) = back) :
    exec (.polOpFree v reads) s =
      .next ((if (s.entry c i).framed then (s.polOpFields v).dropUse c i else (s.polOpFields v).returnBuf c i).setReply 0
        (if back && s.granulePoison (s.bufAddr c i / 32) || s.worn c i then 3 else 0)) := by
  have hexec : exec (.polOpFree v reads) s = execPolOpFree v reads s := rfl
  have hwrite := (s.polOpFields v).rmwErrors_clean hclean ((s.polOpFields v).poolGranules c i back)
  rw [State.any_poolGranules, State.polOpFields_granulePoison, State.polOpFields_bufAddr, State.polOpFields_worn] at hwrite
  rw [hexec, execPolOpFree, hs]
  simp only [Bool.false_eq_true, if_false, State.polOpFields_handle, hh,
    s.polOpFields_f v (Nat.zero_le 11) (show 11 ≤ 14 by decide), hctx, State.polOpFields_badFree, hbad, State.polOpFields_entry,
    State.polOpFields_pol, hc, hi, hback, hwrite, State.freeBuf, Nat.max_zero]

end Free

end Operations

/-! ## What the operations show -/

theorem State.worn_congr {s t : State} (hl : SameLayout s t) (hp : t.stkPoison = s.stkPoison) (c i : Nat) :
    t.worn c i = s.worn c i := by
  unfold State.worn
  rw [hl.entryAddr, hl.stack, State.granulePoison_congr hp]

theorem State.headGood_lt {s : State} {c i : Nat} (h : s.headGood c i = true) : i < s.poolCount c := by
  simp only [State.headGood, Bool.and_eq_true, decide_eq_true_eq] at h
  exact h.1.1.1.1.1.1.2

theorem State.allocAllowed_free {s : State} {c n kind : Nat} {w : Charge} (h : s.allocAllowed c n w kind = true) :
    n ≤ s.f (aPolFree c) 20 0 := by
  simp only [State.allocAllowed, Bool.and_eq_true, decide_eq_true_eq] at h
  exact h.2

theorem State.badFree_class {s : State} {h x : Nat} {p : Bool} (hbad : s.badFree h x p = false) : handleClass h < 6 := by
  simp only [State.badFree, Bool.or_eq_false_iff, decide_eq_false_iff_not] at hbad
  omega

section Completes

variable {s : State} {v : Word} {reads : EccReads} (hs : s.unitShut = false) (hd : s.dark = false)

include hs hd

theorem polOpAlloc_takes (hclean : ∀ g, findingOf reads g = .clean) {c x j : Nat} (hcls : fld v.toNat 14 12 = c)
    (hctx : fld v.toNat 11 0 = x) (hc : c < 6) (hready : (s.pool c).rebuilding = false)
    (hallow : s.allocAllowed c 1 (chargeOf x (s.ctxPart x)) 1 = true) (hhead : (s.pool c).head = some j)
    (hgood : s.headGood c j = true) :
    Completes (.polOpAlloc v reads) s (fun t => t.outcome = (if s.worn c j then 3 else 0) ∧
      t.reg aPolOpHandle = word (handleOf c j ((s.entry c j).gen + 1)) ∧ (t.entry c j).alloc = true ∧
      (t.entry c j).owner = x) := by
  have hx : x < 4096 := hctx ▸ Nat.mod_lt _ (by decide)
  have hallow' : (s.polOpFields v).allocAllowed c 1 (chargeOf x (s.ctxPart x)) 1 = true :=
    (s.polOpFields_allocAllowed v hc hx 1 1).trans hallow
  obtain ⟨t, hpop, htaken⟩ := State.popOne_takes (chargeOf x (s.ctxPart x)) hc (s := s.polOpFields v) (i := j) hhead
    ((s.polOpFields_headGood v c j).trans hgood) (State.allocAllowed_free hallow')
  rw [State.polOpFields_entry] at hpop
  have hexec := exec_polOpAlloc_takes hs hclean hcls hctx hc (State.allocN_one hready hallow' hpop)
  have hj : j < 2 ^ 21 := (State.headGood_lt hgood).trans (s.poolCount_lt c)
  rw [handleIndex_handleOf hj, State.worn_congr htaken.layout htaken.stkPoison, State.polOpFields_worn] at hexec
  have hentry (w : Word) (n : Nat) : ((t.setReg aPolOpHandle w).setReply 0 n).entry c j = t.entry c j :=
    State.entry_congr (by rw [State.setReply_pol, State.setReg_pol]) _ _
  have hdark (w : Word) : (t.setReg aPolOpHandle w).dark = false := by
    have honly : PoolsOnly s (t.setReg aPolOpHandle w) :=
      ((s.polOpFields_only v).trans htaken.pools).trans (.setReg _ _ (by decide))
    rw [honly.dark, hd]
  refine ⟨_, hexec, State.outcome_partial _ _ _ (hdark _), ?_, ?_, ?_⟩
  · rw [State.reg_setReply, State.reg_setReg_same]
  · rw [hentry, htaken.entry]
    rfl
  · rw [hentry, htaken.entry]
    rfl

theorem polOpAlloc_refuses (hclean : ∀ g, findingOf reads g = .clean) {c x : Nat} (hcls : fld v.toNat 14 12 = c)
    (hctx : fld v.toNat 11 0 = x)
    (h : 6 ≤ c ∨ (s.pool c).rebuilding = false ∧ s.allocAllowed c 1 (chargeOf x (s.ctxPart x)) 1 = false) :
    Completes (.polOpAlloc v reads) s (fun t => t.outcome = 2 ∧ t.pol = s.pol) := by
  have hx : x < 4096 := hctx ▸ Nat.mod_lt _ (by decide)
  refine ⟨_, exec_polOpAlloc_refuses hs hclean hcls hctx ?_, State.outcome_refuse _ ?_, State.refuse_pol _⟩
  · by_cases hc : c < 6
    · obtain ⟨hready, hallow⟩ := h.resolve_left (Nat.not_le.2 hc)
      exact .inr (State.allocN_refused hready ((s.polOpFields_allocAllowed v hc hx 1 1).trans hallow))
    · exact .inl (Nat.not_lt.1 hc)
  · rw [(s.polOpFields_only v).dark, hd]

theorem polOpFree_refuses {h x : Nat} (hh : s.regN aPolOpHandle = h) (hctx : fld v.toNat 11 0 = x)
    (hbad : s.badFree h x false = true) :
    Completes (.polOpFree v reads) s (fun t => t.outcome = 2 ∧ t.pol = s.pol ∧ t.flag aPolErr 0 = true ∧
      t.reg aPolCntBadfree = s.reg aPolCntBadfree + 1) := by
  have honly : PoolsOnly s (((s.polOpFields v).bump aPolCntBadfree).errBit aPolErr 0 cPolBadfree) :=
    ((s.polOpFields_only v).trans (.bump _ (by decide))).trans (.errBit _ _ _ (by decide))
  refine ⟨_, exec_polOpFree_refuses hs hh hctx hbad, State.outcome_setReply _ _ _ ?_, ?_, ?_, ?_⟩
  · rw [honly.dark, hd]
  · rw [State.setReply_pol, State.errBit_pol, State.bump_pol, State.polOpFields_pol]
  · rw [State.flag_congr (State.reg_setReply _ _ _ _)]
    exact State.flag_errBit _ _ _ (by decide) (by decide)
  · rw [State.reg_setReply, State.reg_errBit_other _ _ _ (by decide) (by decide), State.reg_bump_same,
      s.polOpFields_reg v (by decide)]

section Frees

variable (hclean : ∀ g, findingOf reads g = .clean) {h x c i : Nat} (hh : s.regN aPolOpHandle = h)
  (hctx : fld v.toNat 11 0 = x) (hbad : s.badFree h x false = false) (hc : handleClass h = c) (hi : handleIndex h = i)

include hclean hh hctx hbad hc hi

/-- A buffer that is not framed, or whose last use an unmarked frame handle gives back, returns to its list. -/
theorem polOpFree_returns (hquar : (s.entry c i).quar = false)
    (huse : (s.entry c i).framed = false ∨ (s.entry c i).use = 1 ∧ s.pol.marks.contains (s.entry c i).fh = false) :
    Completes (.polOpFree v reads) s (fun t =>
      t.outcome = (if s.granulePoison (s.bufAddr c i / 32) || s.worn c i then 3 else 0) ∧
      t.entry c i = { polEntry0 with gen := (s.entry c i).gen } ∧ (t.pool c).head = some i ∧
      t.reg (aPolCntFree c) = s.reg (aPolCntFree c) + 1) := by
  have hc6 : c < 6 := hc ▸ State.badFree_class hbad
  have hback : (!(s.entry c i).quar &&
      (!(s.entry c i).framed || ((s.entry c i).use == 1 && !s.pol.marks.contains (s.entry c i).fh))) = true := by
    obtain hf | ⟨hu, hm⟩ := huse
    · rw [hquar, hf]
      rfl
    · rw [hquar, hu, hm]
      simp
  have hexec := exec_polOpFree_frees hs hclean hh hctx hbad hc hi hback
  have hcount : (s.polOpFields v).reg (aPolCntFree c) = s.reg (aPolCntFree c) :=
    s.polOpFields_reg v (by unfold aPolCntFree aPolOp; omega)
  obtain ⟨t, ht, honly, hentry, hhead, hfree⟩ : ∃ t,
      (if (s.entry c i).framed then (s.polOpFields v).dropUse c i else (s.polOpFields v).returnBuf c i) = t ∧ PoolsOnly s t ∧
      t.entry c i = { polEntry0 with gen := (s.entry c i).gen } ∧ (t.pool c).head = some i ∧
      t.reg (aPolCntFree c) = (s.polOpFields v).reg (aPolCntFree c) + 1 := by
    cases hf : (s.entry c i).framed with
    | true =>
      obtain ⟨hu, hm⟩ := huse.resolve_left (by simp [hf])
      exact ⟨_, rfl, (s.polOpFields_only v).trans (State.dropUse_only _ _ (by omega)),
        State.dropUse_frees (s := s.polOpFields v) hu hm hquar⟩
    | false =>
      exact ⟨_, rfl, (s.polOpFields_only v).trans (State.returnBuf_only _ _ (by omega)),
        State.returnBuf_frees (s := s.polOpFields v) hquar⟩
  rw [ht, Bool.true_and] at hexec
  refine ⟨_, hexec, State.outcome_partial _ _ _ (by rw [honly.dark, hd]), ?_, ?_, ?_⟩
  · rw [State.entry_congr (State.setReply_pol _ _ _), hentry]
  · rw [State.pool_congr (State.setReply_pol _ _ _), hhead]
  · rw [State.reg_setReply, hfree, hcount]

/-- A framed buffer that does not return to its list: what its entry becomes is what giving back a use makes of it. -/
theorem polOpFree_keeps (hframed : (s.entry c i).framed = true)
    (hkept : (s.entry c i).use ≠ 1 ∨ s.pol.marks.contains (s.entry c i).fh = true) {e : PolEntry}
    (hdrop : ((s.polOpFields v).dropUse c i).entry c i = e ∧
      (((s.polOpFields v).dropUse c i).pool c).head = (s.pool c).head) :
    Completes (.polOpFree v reads) s (fun t => t.outcome = (if s.worn c i then 3 else 0) ∧ t.entry c i = e ∧
      (t.pool c).head = (s.pool c).head) := by
  have hc6 : c < 6 := hc ▸ State.badFree_class hbad
  have hback : (!(s.entry c i).quar &&
      (!(s.entry c i).framed || ((s.entry c i).use == 1 && !s.pol.marks.contains (s.entry c i).fh))) = false := by
    obtain hu | hm := hkept
    · rw [hframed, beq_eq_false_iff_ne.2 hu]
      simp
    · rw [hframed, hm]
      simp
  have hexec := exec_polOpFree_frees hs hclean hh hctx hbad hc hi hback
  rw [Bool.false_and, Bool.false_or, if_pos hframed] at hexec
  have honly : PoolsOnly s ((s.polOpFields v).dropUse c i) :=
    (s.polOpFields_only v).trans (State.dropUse_only _ _ (by omega))
  refine ⟨_, hexec, State.outcome_partial _ _ _ (by rw [honly.dark, hd]), ?_, ?_⟩
  · rw [State.entry_congr (State.setReply_pol _ _ _), hdrop.1]
  · rw [State.pool_congr (State.setReply_pol _ _ _), hdrop.2]

theorem polOpFree_gives (hframed : (s.entry c i).framed = true) (huse : 2 ≤ (s.entry c i).use) :
    Completes (.polOpFree v reads) s (fun t => t.outcome = (if s.worn c i then 3 else 0) ∧
      t.entry c i = { s.entry c i with use := (s.entry c i).use - 1 } ∧ (t.pool c).head = (s.pool c).head) := by
  refine polOpFree_keeps hs hd hclean hh hctx hbad hc hi hframed (.inl (by omega)) ?_
  rw [State.dropUse_gives (s := s.polOpFields v) huse, State.entry_setEntry_same, State.setEntry_head]
  exact ⟨rfl, rfl⟩

theorem polOpFree_holds (hframed : (s.entry c i).framed = true) (huse : (s.entry c i).use = 1)
    (hmark : s.pol.marks.contains (s.entry c i).fh = true) :
    Completes (.polOpFree v reads) s (fun t => t.outcome = (if s.worn c i then 3 else 0) ∧
      t.entry c i = { s.entry c i with use := 0, held := true } ∧ (t.pool c).head = (s.pool c).head) :=
  polOpFree_keeps hs hd hclean hh hctx hbad hc hi hframed (.inr hmark)
    (State.dropUse_holds (s := s.polOpFields v) huse hmark)

end Frees

/-! ## OP 3 (R351, R359) -/

omit hd in
theorem exec_polOpQrel {h : Nat} (hh : s.regN aPolOpHandle = h) (clean : Bool) {n : Nat} {t : State}
    (hqrel : (s.polOpFields v).qrel h clean = (n, t)) : exec (.polOpQrel v clean) s = .next (t.setReply 0 n) := by
  have hexec : exec (.polOpQrel v clean) s = execPolOpQrel v clean s := rfl
  rw [hexec, execPolOpQrel, hs]
  simp only [Bool.false_eq_true, if_false, State.polOpFields_handle, hh, hqrel]

section Qrel

variable {h c i : Nat} (hh : s.regN aPolOpHandle = h) (hcls : handleClass h = c) (hidx : handleIndex h = i) (hc : c < 6)
  (hi : i < s.poolCount c) (hquar : (s.entry c i).quar = true) (halloc : (s.entry c i).alloc = false)

include hh hcls hidx hc hi hquar halloc

theorem polOpQrel_clean (hout : s.stack.metadata.1 + s.stack.metadata.2 ≤ s.bufAddr c i ∨
      s.bufAddr c i + classSize c ≤ s.stack.metadata.1) :
    Completes (.polOpQrel v true) s (fun t => t.outcome = 0 ∧ t.entry c i = { s.entry c i with quar := false } ∧
      ((s.pool c).off.contains i = true → (t.pool c).head = some i) ∧
      ∀ b, s.bufAddr c i + 16 ≤ b → b < s.bufAddr c i + classSize c → cellGet 0 t.stk b = 0) := by
  subst hcls hidx
  obtain ⟨t, hqrel, honly, hentry, hhead, hzeros⟩ := State.qrel_clean_effect (s := s.polOpFields v) hc
    (by rw [State.polOpFields_poolCount]; exact hi) hquar halloc (by rw [State.polOpFields_bufAddr]; exact hout)
  rw [State.polOpFields_bufAddr] at hzeros
  refine ⟨_, exec_polOpQrel hs hh true hqrel, State.outcome_setReply _ _ _ ?_, ?_, fun h => ?_, fun b h1 h2 => ?_⟩
  · rw [((s.polOpFields_only v).trans honly).dark, hd]
  · rw [State.entry_congr (State.setReply_pol _ _ _), hentry]
    rfl
  · rw [State.pool_congr (State.setReply_pol _ _ _)]
    exact hhead h
  · rw [State.setReply_stk]
    exact hzeros b h1 h2

theorem polOpQrel_unclean :
    Completes (.polOpQrel v false) s (fun t => t.outcome = 3 ∧ t.entry c i = s.entry c i ∧
      ∀ b, s.bufAddr c i ≤ b → b < s.bufAddr c i + classSize c → cellGet 0 t.stk b = 0) := by
  subst hcls hidx
  obtain ⟨t, hqrel, honly, hentry, hzeros⟩ := State.qrel_unclean_effect (s := s.polOpFields v) hc
    (by rw [State.polOpFields_poolCount]; exact hi) hquar halloc
  rw [State.polOpFields_bufAddr] at hzeros
  refine ⟨_, exec_polOpQrel hs hh false hqrel, State.outcome_setReply _ _ _ ?_, ?_, fun b h1 h2 => ?_⟩
  · rw [((s.polOpFields_only v).trans honly).dark, hd]
  · rw [State.entry_congr (State.setReply_pol _ _ _), hentry]
    rfl
  · rw [State.setReply_stk]
    exact hzeros b h1 h2

end Qrel

end Completes

/-! ## The obligation -/

/-- Settles O36: an operation works on the state whose fields the write has stored, where pools, entries and layout are as
before; the headers that a list writes lie outside every other buffer. -/
theorem poolOperationsOfSoftware : Obligations.PoolOperationsOfSoftware := by
  intro s v reads hs hd c x h k i e base top worn zeros hclean
  refine ⟨fun j hc hready hallow hhead hgood => polOpAlloc_takes hs hd hclean rfl rfl hc hready hallow hhead hgood,
    polOpAlloc_refuses hs hd hclean rfl rfl, fun hbad => polOpFree_returns hs hd hclean rfl rfl hbad rfl rfl,
    fun hbad => polOpFree_gives hs hd hclean rfl rfl hbad rfl rfl,
    fun hbad => polOpFree_holds hs hd hclean rfl rfl hbad rfl rfl, polOpFree_refuses hs hd rfl rfl, ?_⟩
  intro hc hi hquar halloc hout
  exact ⟨polOpQrel_clean hs hd rfl rfl rfl hc hi hquar halloc hout, polOpQrel_unclean hs hd rfl rfl rfl hc hi hquar halloc⟩

end Sys2Proof.Machine
end

section
/-! Nalmal headers (R367): each field stands at its own bits, so it reads back from a header that it was put into. -/

namespace Sys2Proof.Machine

/-! ## The obligation -/

/-- Fields that fit their widths do not overlap: the header is their sum, each at the weight of its lowest bit. -/
theorem toNat_nalHdr {vc op src dst ctx len poison ri addr tag stat : Nat} (hvc : vc < 8) (hop : op < 64)
    (hsrc : src < 16384) (hdst : dst < 16384) (hctx : ctx < 4096) (hlen : len < 8) (hpoison : poison < 2) (hri : ri < 2)
    (haddr : addr < 2 ^ 48) (htag : tag < 131072) (hstat : stat < 16) :
    (nalHdr vc op src dst ctx len poison ri addr tag stat).toNat = vc * 2 ^ 2 + op * 2 ^ 5 + src * 2 ^ 11 + dst * 2 ^ 25 +
      ctx * 2 ^ 39 + len * 2 ^ 51 + poison * 2 ^ 54 + ri * 2 ^ 57 + addr * 2 ^ 58 + tag * 2 ^ 106 + stat * 2 ^ 123 := by
  unfold nalHdr
  simp only [Nat.shiftLeft_eq, BitVec.toNat_ofNat]
  exact Nat.mod_eq_of_lt (by omega)

/-- A bit reads as a truth value where the number at its place is that of the truth value. -/
theorem bitAt_eq_decide {w n b : Nat} (h : w / 2 ^ n % 2 = b) : bitAt w n = decide (b = 1) := by
  rw [bitAt, Nat.shiftRight_eq_div_pow, h]
  rfl

/-- Settles O26: what stands below a field's lowest bit is lost to the shift, what stands above its highest to the
remainder. -/
theorem nalmalHeadersReadBack : Obligations.NalmalHeadersReadBack := by
  intro vc op src dst ctx len poison ri addr tag stat d hvc hop hsrc hdst hctx hlen hpoison hri haddr htag hstat p
  have hp : p.hdr.toNat = _ := toNat_nalHdr hvc hop hsrc hdst hctx hlen hpoison hri haddr htag hstat
  simp only [pVc, pOp, pSrc, pDst, pCtx, pLen, pPoison, pRi, pAddr, pTag, pStat, pGen, pTc, hp, fld,
    Nat.shiftRight_eq_div_pow]
  refine ⟨by omega, by omega, by omega, by omega, by omega, by omega, bitAt_eq_decide (by omega), bitAt_eq_decide (by omega),
    by omega, by omega, by omega, by omega, bitAt_eq_decide (b := 0) (by omega)⟩

end Sys2Proof.Machine
end

section
/-! What sending changes (R375 to R378, R385, R387, R410, R431): packets go out or wait, requests take tags, copies issue lines,
and the counts of what was sent rise; every other register, every memory and every other unit stays. -/

namespace Sys2Proof.Machine

/-! ## Frames -/

/-- The counts of what is sent: ACC, and the ports' counts of sent packets and bytes (R410, R507). -/
abbrev SendCount (a : Nat) : Prop :=
  0x80000 ≤ a ∧ a < 0xC0000 ∨ 0x140000 ≤ a ∧ a < 0x150000 ∧ (a % 0x1000 = 0x18 ∨ a % 0x1000 = 0x28)

/-- Two states differ at most in the packets handed to links, kept and held, and in the counts of what was sent. -/
def Sent (s t : State) : Prop :=
  ∃ regs out kept held, t = { s with regs := regs, fab := { s.fab with out := out, kept := kept, held := held } } ∧
    ∀ a, ¬SendCount a → t.reg a = s.reg a

/-- Two states differ at most in what sending changes, in the requests and copies in flight, and in the answer to a host
requester; no copy is added. -/
def Pumped (s t : State) : Prop :=
  ∃ regs out kept held reqs copies answer, t = { s with
      regs := regs
      fab := { s.fab with
        out := out, kept := kept, held := held, reqs := reqs, copies := copies, answer := answer } } ∧
    (∀ i, tabFind s.fab.copies i = none → tabFind copies i = none) ∧ ∀ a, ¬SendCount a → t.reg a = s.reg a

namespace Sent

variable {s t u : State}

theorem refl (s : State) : Sent s s := ⟨s.regs, s.fab.out, s.fab.kept, s.fab.held, rfl, fun _ _ => rfl⟩

theorem trans (h : Sent s t) (k : Sent t u) : Sent s u := by
  obtain ⟨_, _, _, _, rfl, hr⟩ := h
  obtain ⟨r, o, p, l, rfl, hr'⟩ := k
  exact ⟨r, o, p, l, rfl, fun a ha => (hr' a ha).trans (hr a ha)⟩

theorem setReg (s : State) {a : Nat} (v : Word) (h : SendCount a) : Sent s (s.setReg a v) :=
  ⟨_, s.fab.out, s.fab.kept, s.fab.held, rfl, fun _ hb => s.reg_setReg_other v fun e => hb (e ▸ h)⟩

theorem accAdd (s : State) {f : Nat → Nat} {x : Nat} (n : Nat) (h : SendCount (f x)) : Sent s (s.accAdd f x n) := by
  unfold State.accAdd
  split
  · exact .refl s
  · exact .setReg s _ h

theorem setOut (s : State) (l : List (Nat × Packet)) : Sent s { s with fab := { s.fab with out := l } } :=
  ⟨s.regs, l, s.fab.kept, s.fab.held, rfl, fun _ _ => rfl⟩

theorem setKept (s : State) (l : List (Nat × Packet)) : Sent s { s with fab := { s.fab with kept := l } } :=
  ⟨s.regs, s.fab.out, l, s.fab.held, rfl, fun _ _ => rfl⟩

theorem setHeld (s : State) (l : List (Nat × Packet)) : Sent s { s with fab := { s.fab with held := l } } :=
  ⟨s.regs, s.fab.out, s.fab.kept, l, rfl, fun _ _ => rfl⟩

theorem reg (h : Sent s t) {a : Nat} (ha : ¬SendCount a) : t.reg a = s.reg a := by
  obtain ⟨_, _, _, _, _, hr⟩ := h
  exact hr a ha

theorem sameMemory (h : Sent s t) : SameMemory s t := by
  obtain ⟨_, _, _, _, rfl, _⟩ := h
  exact ⟨rfl, rfl, rfl, rfl, rfl⟩

theorem rgm (h : Sent s t) : t.rgm = s.rgm := by
  obtain ⟨_, _, _, _, rfl, _⟩ := h
  rfl

theorem pumped (h : Sent s t) : Pumped s t := by
  obtain ⟨r, o, k, l, rfl, hr⟩ := h
  exact ⟨r, o, k, l, s.fab.reqs, s.fab.copies, s.fab.answer, rfl, fun _ => id, hr⟩

end Sent

namespace Pumped

variable {s t u : State}

theorem refl (s : State) : Pumped s s := (Sent.refl s).pumped

theorem trans (h : Pumped s t) (k : Pumped t u) : Pumped s u := by
  obtain ⟨_, _, _, _, _, _, _, rfl, hc, hr⟩ := h
  obtain ⟨r, o, p, l, q, c, w, rfl, hc', hr'⟩ := k
  exact ⟨r, o, p, l, q, c, w, rfl, fun i hi => hc' i (hc i hi), fun a ha => (hr' a ha).trans (hr a ha)⟩

theorem foldl {α : Type} (f : State → α → State) (h : ∀ s a, Pumped s (f s a)) (l : List α) (s : State) :
    Pumped s (l.foldl f s) := by
  induction l generalizing s with
  | nil => exact .refl s
  | cons a l ih => exact (h s a).trans (ih _)

theorem setReqs (s : State) (q : Tab Req) : Pumped s { s with fab := { s.fab with reqs := q } } :=
  ⟨s.regs, s.fab.out, s.fab.kept, s.fab.held, q, s.fab.copies, s.fab.answer, rfl, fun _ => id, fun _ _ => rfl⟩

theorem answerHost (s : State) (data : Bytes) (outcome : Nat) (poison : Bool) :
    Pumped s (s.answerHost data outcome poison) :=
  ⟨s.regs, s.fab.out, s.fab.kept, s.fab.held, s.fab.reqs, s.fab.copies, _, rfl, fun _ => id, fun _ _ => rfl⟩

/-- A copy in flight changes. -/
theorem putCopy {s : State} {i : Nat} {c : Copy} (h : tabFind s.fab.copies i = some c) (d : Copy) :
    Pumped s { s with fab := { s.fab with copies := tabPut s.fab.copies i d } } := by
  refine ⟨s.regs, s.fab.out, s.fab.kept, s.fab.held, s.fab.reqs, _, s.fab.answer, rfl, fun j hj => ?_, fun _ _ => rfl⟩
  have hne : j ≠ i := fun e => by rw [e, h] at hj; cases hj
  rwa [tabFind_tabPut_other _ _ hne]

theorem reg (h : Pumped s t) {a : Nat} (ha : ¬SendCount a) : t.reg a = s.reg a := by
  obtain ⟨_, _, _, _, _, _, _, _, _, hr⟩ := h
  exact hr a ha

theorem sameMemory (h : Pumped s t) : SameMemory s t := by
  obtain ⟨_, _, _, _, _, _, _, rfl, _, _⟩ := h
  exact ⟨rfl, rfl, rfl, rfl, rfl⟩

theorem rgm (h : Pumped s t) : t.rgm = s.rgm := by
  obtain ⟨_, _, _, _, _, _, _, rfl, _, _⟩ := h
  rfl

theorem noCopy (h : Pumped s t) {i : Nat} (hi : tabFind s.fab.copies i = none) : tabFind t.fab.copies i = none := by
  obtain ⟨_, _, _, _, _, _, _, rfl, hc, _⟩ := h
  exact hc i hi

/-- Whether anything answers, and the last end of a copy, stay. -/
theorem dark (h : Pumped s t) : t.dark = s.dark := by
  obtain ⟨_, _, _, _, _, _, _, rfl, _, hr⟩ := h
  exact State.dark_congr rfl (hr _ (by decide)) (hr _ (by decide))

theorem copyEnd (h : Pumped s t) : t.fab.copyEnd = s.fab.copyEnd := by
  obtain ⟨_, _, _, _, _, _, _, rfl, _, _⟩ := h
  rfl

/-- The mapping in force stays, and so does whether it is to change. -/
theorem mapping (h : Pumped s t) : t.fab.map = s.fab.map ∧ t.fab.remap = s.fab.remap := by
  obtain ⟨_, _, _, _, _, _, _, rfl, _, _⟩ := h
  exact ⟨rfl, rfl⟩

end Pumped

/-! ## One packet (R365, R410, R507) -/

/-- Handing a packet to a link changes only the list of packets handed over, in the fabric. -/
theorem State.sendOn_fab (s : State) {n : Nat} {p : Packet} (hmay : s.maySend p = true)
    (hcarry : s.carries n (pSrc p) (pDst p) (pVc p) = true) :
    (s.sendOn n p).fab = { s.fab with out := s.fab.out ++ [(n, s.dress n p)] } := by
  simp [State.sendOn, hmay, hcarry]

/-- A packet handed over is counted at its port, and charged to its context. -/
def State.sendCounts (s : State) (n : Nat) (q : Packet) : State :=
  ((s.bump (aFabCntTxpkt n)).addCtr (aFabCntTxbyte n) (pBytes q)).accAdd aAccFabTx (pCtx q) (pBytes q)

theorem State.sendCounts_reg (s : State) (n : Nat) (q : Packet) {a : Nat} (hacc : a < 0x80000 ∨ 0xC0000 ≤ a)
    (hbyte : a ≠ aFabCntTxbyte n) : (s.sendCounts n q).reg a = (s.bump (aFabCntTxpkt n)).reg a := by
  have hctx := pCtx_lt q
  have htx : a ≠ aAccFabTx (pCtx q) := by unfold aAccFabTx; omega
  exact (State.reg_accAdd_other _ htx).trans (State.reg_addCtr_other _ _ hbyte)

theorem State.sendOn_regs (s : State) (n : Nat) (p : Packet) : (s.sendOn n p).regs =
    if !s.maySend p || !s.carries n (pSrc p) (pDst p) (pVc p) then s.regs else (s.sendCounts n (s.dress n p)).regs := by
  unfold State.sendOn
  split
  · rfl
  · rfl

/-- It is counted once. -/
theorem State.sendOn_txpkt (s : State) {n : Nat} {p : Packet} (hmay : s.maySend p = true)
    (hcarry : s.carries n (pSrc p) (pDst p) (pVc p) = true) :
    (s.sendOn n p).reg (aFabCntTxpkt n) = s.reg (aFabCntTxpkt n) + 1 := by
  have hregs := s.sendOn_regs n p
  rw [hmay, hcarry] at hregs
  exact (State.reg_congr hregs _).trans ((s.sendCounts_reg n _ (by unfold aFabCntTxpkt; omega)
    (by unfold aFabCntTxpkt aFabCntTxbyte; omega)).trans (s.reg_bump_same _))

/-- Beside ACC and the counts of the port, sending leaves every register. -/
theorem State.sendOn_reg (s : State) (n : Nat) (p : Packet) {a : Nat} (hacc : a < 0x80000 ∨ 0xC0000 ≤ a)
    (hpkt : a ≠ aFabCntTxpkt n) (hbyte : a ≠ aFabCntTxbyte n) : (s.sendOn n p).reg a = s.reg a := by
  have hregs := s.sendOn_regs n p
  split at hregs
  · exact State.reg_congr hregs a
  · exact (State.reg_congr hregs a).trans ((s.sendCounts_reg n _ hacc hbyte).trans (s.reg_bump_other hpkt))

theorem State.sendOn_sent (s : State) {n : Nat} (p : Packet) (h : n < 16) : Sent s (s.sendOn n p) := by
  have hctx := pCtx_lt (s.dress n p)
  unfold State.sendOn
  split
  · exact .refl s
  · exact (((Sent.setReg s _ (by unfold SendCount aFabCntTxpkt; omega)).trans
      (.setReg _ _ (by unfold SendCount aFabCntTxbyte; omega))).trans
      (.accAdd _ _ (by unfold SendCount aAccFabTx; omega))).trans (.setOut _ _)

theorem State.portsIn_lt {s : State} {n : Nat} (h : n ∈ s.portsIn) : n < 16 :=
  List.mem_range.1 (List.mem_filter.1 h).1

theorem State.sendVia_sent (s : State) {ports : List Nat} (p : Packet) (h : ∀ n ∈ ports, n < 16) :
    Sent s (s.sendVia ports p) := by
  unfold State.sendVia
  split
  · next n hn => exact s.sendOn_sent p (h n (List.mem_of_find?_eq_some hn))
  · exact .refl s

theorem State.fmSend_sent (s : State) (kind chip survivor ctx : Nat) (data : Bytes) :
    Sent s (s.fmSend kind chip survivor ctx data) := s.sendVia_sent _ fun _ => State.portsIn_lt

theorem State.sendKept_sent (s : State) (p : Packet) : Sent s (s.sendKept p) := by
  unfold State.sendKept
  dsimp only
  split
  · exact .setHeld s _
  · split
    · exact .setHeld s _
    · next h => exact (s.sendOn_sent p (State.pickPort_lt h)).trans (.setKept _ _)

/-! ## What waits goes on (R377, R378, R385, R387) -/

theorem State.issue_pumped (s : State) (p : Packet) (lines : Nat) (copy : Option (Nat × Nat)) :
    Pumped s (s.issue p lines copy).2 := by
  unfold State.issue
  dsimp only
  split
  · exact .refl s
  · next h => exact (s.sendOn_sent _ (State.pickPort_lt h)).pumped.trans (.setReqs _ _)

theorem State.sendHeld_pumped (s : State) (e : Nat × Packet) : Pumped s (s.sendHeld e) := by
  have hissue := s.issue_pumped e.2 1 none
  unfold State.sendHeld
  dsimp only
  split
  · split
    · generalize s.issue e.2 1 none = r at hissue ⊢
      obtain ⟨b, t⟩ := r
      cases b
      · exact hissue.trans (.answerHost t _ _ _)
      · exact hissue
    · exact (Sent.setHeld s _).pumped
  split
  · split
    · exact (Sent.setHeld s _).pumped
    · next n hn =>
      have hsent := (s.sendOn_sent e.2 (State.pickPort_lt hn)).pumped
      split
      · exact hsent.trans (.setReqs _ _)
      · exact hsent
  · exact (s.sendKept_sent e.2).pumped

theorem pumpCopy_pumped (k i : Nat) (s : State) : Pumped s (pumpCopy k i s) := by
  induction k generalizing s with
  | zero => exact .refl s
  | succ k ih =>
    unfold pumpCopy
    dsimp only
    split
    · exact .refl s
    next c hc =>
    split
    · exact .refl s
    split
    · exact .refl s
    have hissue := s.issue_pumped (s.copyPacket c).2 (s.copyPacket c).1 (some (i, c.next))
    have hgo := CopiesGoOn.issue s (s.copyPacket c).2 (s.copyPacket c).1 (some (i, c.next))
    generalize s.issue (s.copyPacket c).2 (s.copyPacket c).1 (some (i, c.next)) = r at hissue hgo ⊢
    obtain ⟨b, t⟩ := r
    cases b
    · exact hissue
    · obtain ⟨n, hn⟩ := hgo.copies i c hc
      have hcharge : Pumped t (t.chargeHbm c.ctx (if c.pull then 0 else 128 * (s.copyPacket c).1)) :=
        (Sent.accAdd t _ (by unfold SendCount aAccHbm; omega)).pumped
      have hcopy : tabFind (t.chargeHbm c.ctx (if c.pull then 0 else 128 * (s.copyPacket c).1)).fab.copies i =
          some { c with next := n } := by
        rw [State.chargeHbm_fab]
        exact hn
      exact ((hissue.trans hcharge).trans (.putCopy hcopy _)).trans (ih _)

theorem State.pump_pumped (s : State) : Pumped s s.pump := by
  have hheld := (Sent.setHeld s []).pumped.trans (.foldl _ State.sendHeld_pumped s.fab.held _)
  unfold State.pump State.pumpCopies
  split
  · exact .refl s
  · exact hheld.trans (.foldl _ (fun u (e : Nat × Nat) => pumpCopy_pumped e.2 e.1 u) _ _)

/-- Where nothing waits and no copy is in flight, nothing goes on. -/
theorem State.pump_calm {s : State} (hheld : s.fab.held = []) (hcopies : s.fab.copies = []) : s.pump = s := by
  have hclear : ({ s with fab := { s.fab with held := [] } } : State) = s := by rw [← hheld]
  unfold State.pump
  rw [hheld, List.foldl_nil, hclear, State.pumpCopies, hcopies]
  exact ite_self s

end Sys2Proof.Machine
end

section
/-! The target of memory-semantic requests and copies (R379 to R384, R388 to R392, R400, R410): what it leaves in host memory, and
the reply it sends. -/

namespace Sys2Proof.Machine

/-! ## Replies (R365, R369) -/

/-- The reply to a packet that a state sends. -/
def State.replyPkt (s : State) (p : Packet) (op outcome : Nat) (poison : Bool) (addr : Nat) (data : Bytes) : Packet :=
  ⟨nalHdr 2 op (pDst p) (pSrc p) (pCtx p) (data.length / 128) (bit poison) 0 addr (pTag p) (s.stat outcome), data⟩

/-- What a reply from u on a port depends on is as in s. -/
structure RepliesAs (port : Nat) (s u : State) : Prop where
  port : u.reg (aFabState port) = s.reg (aFabState port)
  ports : ∀ n < 16, u.reg (aFabState n) = s.reg (aFabState n)
  twin : u.reg aTwnState = s.reg aTwnState
  lock : u.reg aSecStat = s.reg aSecStat
  level : u.reg aAtnCause = s.reg aAtnCause
  rgm : u.rgm = s.rgm
  pwr : u.pwr = s.pwr

namespace RepliesAs

variable {port : Nat} {s u v : State}

theorem trans (h : RepliesAs port s u) (k : RepliesAs port u v) : RepliesAs port s v where
  port := k.port.trans h.port
  ports := fun n hn => (k.ports n hn).trans (h.ports n hn)
  twin := k.twin.trans h.twin
  lock := k.lock.trans h.lock
  level := k.level.trans h.level
  rgm := k.rgm.trans h.rgm
  pwr := k.pwr.trans h.pwr

/-- Memories and fabric lists are none of it. -/
theorem of_same (hr : u.regs = s.regs) (hm : u.rgm = s.rgm) (hp : u.pwr = s.pwr) : RepliesAs port s u where
  port := State.reg_congr hr _
  ports := fun _ _ => State.reg_congr hr _
  twin := State.reg_congr hr _
  lock := State.reg_congr hr _
  level := State.reg_congr hr _
  rgm := hm
  pwr := hp

/-- Nor is any register but the ports' states, those of TWN and SEC that it reads, and ATN_CAUSE. -/
theorem setReg (s : State) {a : Nat} (v : Word) (hport : aFabState port ≠ a) (hports : ∀ n < 16, aFabState n ≠ a)
    (htwin : aTwnState ≠ a) (hlock : aSecStat ≠ a) (hlevel : aAtnCause ≠ a) : RepliesAs port s (s.setReg a v) where
  port := s.reg_setReg_other v hport
  ports := fun n hn => s.reg_setReg_other v (hports n hn)
  twin := s.reg_setReg_other v htwin
  lock := s.reg_setReg_other v hlock
  level := s.reg_setReg_other v hlevel
  rgm := s.setReg_rgm a v
  pwr := s.setReg_pwr a v

theorem carries (h : RepliesAs port s u) {n : Nat} (hn : n < 16 ∨ n = port) (src dst vc : Nat) :
    u.carries n src dst vc = s.carries n src dst vc := by
  have hreg : u.reg (aFabState n) = s.reg (aFabState n) := hn.elim (h.ports n) fun e => e ▸ h.port
  rw [State.carries, State.gen, State.f_congr hreg]
  rfl

theorem portsIn (h : RepliesAs port s u) : u.portsIn = s.portsIn := by
  refine List.filter_congr fun n hn => ?_
  have hreg := h.ports n (List.mem_range.1 hn)
  rw [State.portIn, State.link, State.f_congr hreg, State.flag_congr hreg]
  rfl

theorem replyPkt (h : RepliesAs port s u) (p : Packet) (op outcome : Nat) (poison : Bool) (addr : Nat) (data : Bytes) :
    u.replyPkt p op outcome poison addr data = s.replyPkt p op outcome poison addr data := by
  rw [State.replyPkt, State.stat, State.f_congr h.level]
  rfl

theorem dress (h : RepliesAs port s u) {n : Nat} (hn : n < 16 ∨ n = port) (p : Packet) : u.dress n p = s.dress n p := by
  have hreg : u.reg (aFabState n) = s.reg (aFabState n) := hn.elim (h.ports n) fun e => e ▸ h.port
  have htc (x : Nat) : u.ctxTchoice x = s.ctxTchoice x := by rw [State.ctxTchoice, h.rgm]; rfl
  rw [State.dress, State.gen, State.f_congr hreg, htc]
  rfl

/-- An engine that may talk may send any packet (R579, R605, R677). -/
theorem maySend (h : RepliesAs port s u) (htalk : s.mayTalk = true) (p : Packet) : u.maySend p = true := by
  simp only [State.mayTalk, Bool.and_eq_true, bne_iff_ne, ne_eq, Bool.not_eq_true'] at htalk
  obtain ⟨⟨hfence, hhalt⟩, hlock⟩ := htalk
  have hhalt' : u.pwr.halted = false := h.pwr ▸ hhalt
  rw [State.maySend, State.f_congr h.twin, State.flag_congr h.lock, hhalt', hlock]
  simp [hfence]

end RepliesAs

/-- A reply leaves on one of the ports, or on the one that the request came by. -/
theorem State.replyPort_some {s : State} {port n : Nat} {p : Packet} (h : s.replyPort port p = some n) :
    (n < 16 ∨ n = port) ∧ s.carries n (pDst p) (pSrc p) 2 = true := by
  have hcarry := List.find?_some (p := fun n => s.carries n (pDst p) (pSrc p) 2) h
  refine ⟨?_, hcarry⟩
  obtain rfl | hn := List.mem_cons.1 (List.mem_of_find?_eq_some h)
  · exact .inr rfl
  · exact .inl (State.portsIn_lt hn)

section Reply

variable {s u : State} {port : Nat} {p : Packet} {op outcome : Nat} (poison : Bool) {addr : Nat} {data : Bytes}

/-- The fields of a reply read back from it (R367, R369). -/
theorem State.replyPkt_fields (s : State) (hop : op < 64) (ho : outcome < 4) (haddr : addr < 2 ^ 48)
    (hdata : data.length / 128 < 8) :
    pSrc (s.replyPkt p op outcome poison addr data) = pDst p ∧ pDst (s.replyPkt p op outcome poison addr data) = pSrc p ∧
      pVc (s.replyPkt p op outcome poison addr data) = 2 := by
  have hbit : bit poison < 2 := by cases poison <;> decide
  have hlevel : s.f aAtnCause 35 34 < 4 := Nat.mod_lt _ (by decide)
  have hstat : s.stat outcome < 16 := by unfold State.stat; omega
  obtain ⟨hvc, -, hsrc, hdst, -⟩ := nalmalHeadersReadBack 2 op (pDst p) (pSrc p) (pCtx p) (data.length / 128) (bit poison) 0
    addr (pTag p) (s.stat outcome) data (by decide) hop (Nat.mod_lt _ (by decide)) (Nat.mod_lt _ (by decide)) (pCtx_lt p)
    hdata hbit (by decide) haddr (Nat.mod_lt _ (by decide)) hstat
  exact ⟨hsrc, hdst, hvc⟩

variable (h : RepliesAs port s u) (htalk : s.mayTalk = true) (hop : op < 64) (ho : outcome < 4) (haddr : addr < 2 ^ 48)
  (hdata : data.length / 128 < 8)

include h hop ho haddr hdata

/-- A reply goes out on the port it has in s, where it has one. -/
theorem RepliesAs.reply_eq : u.reply_ port p op outcome poison addr data =
    (s.replyPort port p).elim u (fun n => u.sendOn n (s.replyPkt p op outcome poison addr data)) := by
  have hsame : u.reply_ port p op outcome poison addr data =
      u.sendVia (port :: u.portsIn) (u.replyPkt p op outcome poison addr data) := rfl
  obtain ⟨hsrc, hdst, hvc⟩ := State.replyPkt_fields (p := p) poison s hop ho haddr hdata
  have hcarry : ∀ n ∈ port :: s.portsIn, u.carries n (pDst p) (pSrc p) 2 = s.carries n (pDst p) (pSrc p) 2 := by
    intro n hn
    obtain rfl | hn := List.mem_cons.1 hn
    · exact h.carries (.inr rfl) _ _ _
    · exact h.carries (.inl (State.portsIn_lt hn)) _ _ _
  rw [hsame, h.replyPkt, h.portsIn, State.sendVia, hsrc, hdst, hvc, List.find?_congr hcarry, ← State.replyPort]
  cases s.replyPort port p <;> rfl

include htalk

/-- The reply is the only packet handed to a link, and no other list of the fabric changes. -/
theorem RepliesAs.reply_fab : (u.reply_ port p op outcome poison addr data).fab = { u.fab with
    out := u.fab.out ++ (s.replyPort port p).toList.map fun n => (n, s.dress n (s.replyPkt p op outcome poison addr data)) } := by
  rw [h.reply_eq poison hop ho haddr hdata]
  obtain ⟨hsrc, hdst, hvc⟩ := State.replyPkt_fields (p := p) poison s hop ho haddr hdata
  cases hn : s.replyPort port p with
  | none => simp
  | some n =>
    obtain ⟨hlt, hcarry⟩ := State.replyPort_some hn
    have hcan : u.carries n (pSrc (s.replyPkt p op outcome poison addr data))
        (pDst (s.replyPkt p op outcome poison addr data)) (pVc (s.replyPkt p op outcome poison addr data)) = true := by
      rw [hsrc, hdst, hvc, h.carries hlt, hcarry]
    exact (u.sendOn_fab (h.maySend htalk _) hcan).trans (by rw [h.dress hlt]; rfl)

/-- So it answers the request. -/
theorem RepliesAs.replied (hout : u.fab.out = s.fab.out) :
    RepliedWith s (u.reply_ port p op outcome poison addr data) port p op outcome poison addr data := by
  unfold RepliedWith
  rw [h.reply_fab poison htalk hop ho haddr hdata, hout]
  rfl

/-- The port that carries it counts one packet sent (R410). -/
theorem RepliesAs.reply_txpkt (n : Nat) :
    (u.reply_ port p op outcome poison addr data).reg (aFabCntTxpkt n) =
      u.reg (aFabCntTxpkt n) + (if s.replyPort port p = some n then 1 else 0) := by
  rw [h.reply_eq poison hop ho haddr hdata]
  obtain ⟨hsrc, hdst, hvc⟩ := State.replyPkt_fields (p := p) poison s hop ho haddr hdata
  cases hk : s.replyPort port p with
  | none => simp
  | some k =>
    obtain ⟨hlt, hcarry⟩ := State.replyPort_some hk
    by_cases hkn : k = n
    · subst hkn
      rw [if_pos rfl]
      exact u.sendOn_txpkt (h.maySend htalk _) (by rw [hsrc, hdst, hvc, h.carries hlt, hcarry])
    · rw [if_neg fun e => hkn (Option.some.inj e)]
      exact (u.sendOn_reg k _ (by unfold aFabCntTxpkt; omega) (by unfold aFabCntTxpkt; omega)
        (by unfold aFabCntTxpkt aFabCntTxbyte; omega)).trans (by simp)

end Reply

theorem State.reply_sent (u : State) {port : Nat} (p : Packet) (op outcome : Nat) (poison : Bool) (addr : Nat) (data : Bytes)
    (hport : port < 16) : Sent u (u.reply_ port p op outcome poison addr data) := by
  refine u.sendVia_sent _ fun n hn => ?_
  obtain rfl | hn := List.mem_cons.1 hn
  · exact hport
  · exact State.portsIn_lt hn

/-! ## Receipt (R370, R410) -/

section Heard

variable {s : State} {port : Nat} {pkt : Packet} (hhear : s.hears port pkt = true)

theorem State.countRx_fab (s : State) (n : Nat) (p : Packet) : (s.countRx n p).fab = s.fab := by
  unfold State.countRx
  dsimp only
  split
  · rfl
  · exact State.accAdd_fab _ _ _ _

include hhear

theorem State.hears_port : port < 16 := by
  simp only [State.hears, Bool.and_eq_true, decide_eq_true_eq] at hhear
  obtain ⟨⟨⟨⟨hport, -⟩, -⟩, -⟩, -⟩ := hhear
  exact hport

theorem State.hears_packetOk : packetOk (s.gen port) pkt = true := by
  simp only [State.hears, Bool.and_eq_true] at hhear
  obtain ⟨⟨-, hok⟩, -⟩ := hhear
  exact hok

/-- The lines that a heard packet carries, and how many its operation allows (R367, R368). -/
theorem State.hears_length {vc lo hi : Nat} (hshape : opShape (pOp pkt) = some (vc, lo, hi)) :
    pkt.data.length = 128 * pLen pkt ∧ lo ≤ pLen pkt ∧ pLen pkt ≤ hi := by
  have hok := State.hears_packetOk hhear
  simp only [packetOk, hshape, Bool.and_eq_true, decide_eq_true_eq, beq_iff_eq] at hok
  obtain ⟨⟨⟨⟨⟨⟨⟨-, hlo⟩, hhi⟩, hlen⟩, -⟩, -⟩, -⟩, -⟩ := hok
  exact ⟨hlen, hlo, hhi⟩

omit hhear in
/-- Counting a packet's receipt leaves the registers that are not counts. -/
theorem State.countRx_reg_of_lt (s : State) {n : Nat} (p : Packet) {a : Nat} (hacc : a < 0x80000 ∨ 0xC0000 ≤ a)
    (hrx : a ≠ aFabCntRxpkt n) : (s.countRx n p).reg a = s.reg a := by
  have hctx := pCtx_lt p
  exact s.countRx_reg n p hrx (by unfold aAccFabRx; omega)

theorem State.countRx_repliesAs : RepliesAs port s (s.countRx port pkt) := by
  have hport := State.hears_port hhear
  have hstate (n : Nat) : (s.countRx port pkt).reg (aFabState n) = s.reg (aFabState n) :=
    s.countRx_reg_of_lt pkt (by unfold aFabState; omega) (by unfold aFabState aFabCntRxpkt; omega)
  have hlow {a : Nat} (ha : a < 0x80000 ∨ 0x170000 ≤ a) : (s.countRx port pkt).reg a = s.reg a :=
    s.countRx_reg_of_lt pkt (by omega) (by unfold aFabCntRxpkt; omega)
  obtain ⟨_, _, he, -⟩ := s.countRx_only pkt hport
  exact { port := hstate port, ports := fun n _ => hstate n, twin := hlow (by decide), lock := hlow (by decide),
          level := hlow (by decide), rgm := by rw [he], pwr := by rw [he] }

omit hhear in
theorem State.countRx_sameMemory (s : State) {n : Nat} (p : Packet) (hn : n < 16) : SameMemory s (s.countRx n p) :=
  (s.countRx_only p hn).stepsAndMemory.2

omit hhear in
/-- A received packet is counted once (R410). -/
theorem State.countRx_rxpkt (s : State) (n : Nat) (p : Packet) :
    (s.countRx n p).reg (aFabCntRxpkt n) = s.reg (aFabCntRxpkt n) + 1 := by
  have hctx := pCtx_lt p
  unfold State.countRx
  dsimp only
  split
  · exact s.reg_bump_same _
  · exact (State.reg_accAdd_other _ (by unfold aFabCntRxpkt aAccFabRx; omega)).trans (s.reg_bump_same _)

omit hhear in
theorem State.countRx_chip (s : State) (n : Nat) (p : Packet) : (s.countRx n p).chip = s.chip :=
  State.f_congr (s.countRx_reg_of_lt p (by decide) (by unfold aMsfChip aFabCntRxpkt; omega)) _ _

omit hhear in
/-- A request under this engine's own identity and in its own slot is performed at its line (R400, R578). -/
theorem State.serve_own (hown : s.toAssumed pkt = false) (hslot : s.slotOk pkt = true) (isRead : Bool)
    (k : State → Nat → State) :
    (s.countRx port pkt).serve port pkt isRead k = k (s.countRx port pkt) (pAddr pkt % 2 ^ 39) := by
  have hchip := s.countRx_chip port pkt
  have hown' : (s.countRx port pkt).toAssumed pkt = false := by rwa [State.toAssumed, hchip]
  have hslot' : (s.countRx port pkt).slotOk pkt = true := by rwa [State.slotOk, hchip]
  rw [State.serve, hown', hslot']
  rfl

end Heard

/-! ## What an answered packet leaves -/

/-- The state m that has counted a packet's receipt and changed at most host memory and counters of arrivals answers it: one
packet received, one sent, the rest as m has it. -/
structure Answers (s m t : State) (port : Nat) (pkt : Packet) (op outcome : Nat) (poison : Bool) (addr : Nat)
    (data : Bytes) : Prop where
  replied : RepliedWith s t port pkt op outcome poison addr data
  sent : Sent m t
  txpkt : ∀ n < 16, t.reg (aFabCntTxpkt n) = m.reg (aFabCntTxpkt n) + (if s.replyPort port pkt = some n then 1 else 0)

theorem pAddr_lt (p : Packet) : pAddr p < 2 ^ 48 := Nat.mod_lt _ (by decide)

theorem RepliesAs.answers {s m : State} {port : Nat} {pkt : Packet} {op outcome : Nat} {addr : Nat} {data : Bytes}
    (h : RepliesAs port s m) (hport : port < 16) (htalk : s.mayTalk = true) (hout : m.fab.out = s.fab.out) (hop : op < 64)
    (ho : outcome < 4) (haddr : addr < 2 ^ 48) (hdata : data.length / 128 < 8) (poison : Bool) :
    Answers s m (m.reply_ port pkt op outcome poison addr data) port pkt op outcome poison addr data where
  replied := h.replied poison htalk hop ho haddr hdata hout
  sent := m.reply_sent pkt op outcome poison addr data hport
  txpkt := fun n _ => h.reply_txpkt poison htalk hop ho haddr hdata n

/-- An ACK is a reply without data. -/
theorem RepliesAs.acks {s m : State} {port : Nat} {pkt : Packet} {outcome : Nat} (h : RepliesAs port s m)
    (hport : port < 16) (htalk : s.mayTalk = true) (hout : m.fab.out = s.fab.out) (ho : outcome < 4) :
    Answers s m (m.ackTo_ port pkt outcome) port pkt 0x21 outcome false 0 [] :=
  h.answers hport htalk hout (by decide) ho (by decide) (by decide) false

section Serves

variable {s m t : State} {port : Nat} {pkt : Packet} {op outcome : Nat} {poison : Bool} {addr : Nat} {data : Bytes}
  (h : Answers s m t port pkt op outcome poison addr data) (hport : port < 16)

include h

/-- What m leaves of the memories, the answer leaves too. -/
theorem Answers.memory : SameMemory m t := h.sent.sameMemory

include hport

/-- One packet received, and one sent on the port that carries the reply (R410); only host memory may have changed. -/
theorem Answers.counts (hm : m.regs = (s.countRx port pkt).regs) (hrgm : m.rgm = (s.countRx port pkt).rgm)
    (hstk : m.stk = s.stk) (hflash : m.flash = s.flash) :
    t.reg (aFabCntRxpkt port) = s.reg (aFabCntRxpkt port) + 1 ∧
      (∀ n < 16, t.reg (aFabCntTxpkt n) = s.reg (aFabCntTxpkt n) + (if s.replyPort port pkt = some n then 1 else 0)) ∧
      t.stk = s.stk ∧ t.flash = s.flash ∧ t.rgm = s.rgm := by
  obtain ⟨-, -, hstk', -, hflash'⟩ := h.memory
  have hrx : ¬SendCount (aFabCntRxpkt port) := by unfold SendCount aFabCntRxpkt; omega
  refine ⟨?_, fun n hn => ?_, hstk'.trans hstk, hflash'.trans hflash, ?_⟩
  · rw [h.sent.reg hrx, State.reg_congr hm, s.countRx_rxpkt]
  · rw [h.txpkt n hn, State.reg_congr hm,
      s.countRx_reg_of_lt pkt (by unfold aFabCntTxpkt; omega) (by unfold aFabCntTxpkt aFabCntRxpkt; omega)]
  · rw [h.sent.rgm, hrgm]
    obtain ⟨_, _, he, -⟩ := s.countRx_only pkt hport
    rw [he]

end Serves

end Sys2Proof.Machine
end

section
/-! O27. Lines at their target (R379, R383, R384, R400, R410): what a read answers, and what a write and a masked write leave. -/

namespace Sys2Proof.Machine

/-! ## Bytes and numbers (R7) -/

theorem length_hbmRead (s : State) (a n : Nat) : (s.hbmRead a n).length = n := by simp [State.hbmRead, cellRead]

theorem leNat_natLe (n v : Nat) : leNat (natLe n v) = v % 256 ^ n := by
  induction n generalizing v with
  | zero => simp [natLe, leNat, Nat.mod_one]
  | succ n ih => rw [natLe, leNat, ih, BitVec.toNat_ofNat, pow_succ' 256, Nat.mod_mul]

theorem leNat_lt (bs : Bytes) : leNat bs < 256 ^ bs.length := by
  induction bs with
  | nil => exact Nat.one_pos
  | cons b bs ih =>
    have hb : b.toNat < 256 := b.isLt
    rw [leNat, List.length_cons, pow_succ']
    omega

theorem length_sliceBytes (bs : Bytes) (ofs n : Nat) : (sliceBytes bs ofs n).length = n := by
  have htake := List.length_take_le n (bs.drop ofs)
  rw [sliceBytes, List.length_append, List.length_replicate]
  omega

theorem fieldAt_lt (bs : Bytes) (ofs n : Nat) : fieldAt bs ofs n < 256 ^ n := by
  have h := leNat_lt (sliceBytes bs ofs n)
  rwa [length_sliceBytes] at h

theorem wrapN_lt (n : Nat) (i : Int) : wrapN n i < 2 ^ n := by
  have hpos : (0 : Int) < 2 ^ n := by positivity
  have hlt := Int.emod_lt_of_pos i hpos
  have hnonneg := Int.emod_nonneg i hpos.ne'
  unfold wrapN
  zify
  rw [Int.toNat_of_nonneg hnonneg]
  exact hlt

theorem hbmNat_lt (s : State) (a n : Nat) : s.hbmNat a n < 256 ^ n := by
  have h := leNat_lt (s.hbmRead a n)
  rwa [length_hbmRead] at h

/-- A byte string that host memory holds is what a read of it returns. -/
theorem HbmHolds.read {t : State} {a : Nat} {bs : Bytes} (h : HbmHolds t a bs) : t.hbmRead a bs.length = bs := by
  refine List.ext_getElem (length_hbmRead t a _) fun i _ h' => ?_
  simp only [State.hbmRead, cellRead, List.getElem_map, List.getElem_range]
  exact h i h'

/-- Memories that agree read alike, marks included. -/
theorem SameMemory.hbmRead {s t : State} (h : SameMemory s t) (a n : Nat) : t.hbmRead a n = s.hbmRead a n := by
  rw [State.hbmRead, h.1]
  rfl

theorem SameMemory.hbmNat {s t : State} (h : SameMemory s t) (a n : Nat) : t.hbmNat a n = s.hbmNat a n :=
  congrArg leNat (h.hbmRead a n)

theorem SameMemory.hbmPoisoned {s t : State} (h : SameMemory s t) (a n : Nat) : t.hbmPoisoned a n = s.hbmPoisoned a n := by
  obtain ⟨-, hmarks, -⟩ := h
  rw [State.hbmPoisoned, hmarks]
  rfl

/-! ## Bytes that a request stores -/

/-- Host memory with bytes stored from an address on, and these lines marked poisoned. -/
def State.stored (s : State) (a : Nat) (bs : Bytes) (marks : List Nat) : State :=
  { s with hbm := cellWrite 0 s.hbm a bs, hbmPoison := marks }

theorem State.hbmPatch_stored (s : State) (a : Nat) (bs : Bytes) (poison : Bool) :
    ∃ marks, s.hbmPatch a bs poison = s.stored a bs marks := by
  unfold State.hbmPatch
  dsimp only
  split
  · exact ⟨_, rfl⟩
  · split
    · exact ⟨_, rfl⟩
    · exact ⟨_, rfl⟩

/-- What a state with the bytes stored shows of host memory. -/
theorem hbm_of_stored {s t : State} {a : Nat} {bs : Bytes} (h : t.hbm = cellWrite 0 s.hbm a bs) :
    HbmHolds t a bs ∧ SameHbmBut a bs.length s t := by
  refine ⟨fun i hi => ?_, fun b hb => ?_⟩
  · rw [h]
    exact cellGet_cellWrite_inside 0 s.hbm a bs i hi
  · rw [h]
    exact cellGet_cellWrite_other 0 s.hbm a bs b hb

/-! ## Requests that are performed -/

theorem outcome_of_poison (b : Bool) : (if b then 3 else 0) < 4 := by cases b <;> decide

/-- One packet received and one sent on the port that carries the reply; stack, flash and steps as they were (R410). -/
def OneInOneOut (s t : State) (port : Nat) (pkt : Packet) : Prop :=
  t.reg (aFabCntRxpkt port) = s.reg (aFabCntRxpkt port) + 1 ∧
    (∀ n < 16, t.reg (aFabCntTxpkt n) = s.reg (aFabCntTxpkt n) + (if s.replyPort port pkt = some n then 1 else 0)) ∧
    t.stk = s.stk ∧ t.flash = s.flash ∧ t.rgm = s.rgm

section Request

variable {s : State} {port : Nat} {pkt : Packet} (hhear : s.hears port pkt = true) (hown : s.toAssumed pkt = false)
  (htalk : s.mayTalk = true)

include hhear

theorem State.countRx_memory : SameMemory s (s.countRx port pkt) :=
  s.countRx_sameMemory pkt (State.hears_port hhear)

/-- A request that is performed answers on the state that has counted it. -/
theorem State.receive_serves (hown : s.toAssumed pkt = false) (hslot : s.slotOk pkt = true) {op : Nat} (hop : pOp pkt = op)
    (isRead : Bool) (k : State → Nat → State) :
    s.receive port pkt (· == op) (fun u => u.serve port pkt isRead k) =
      .next (k (s.countRx port pkt) (pAddr pkt % 2 ^ 39)) := by
  rw [State.receive_heard hhear (by simp [hop]), State.serve_own hown hslot]

theorem State.stored_repliesAs (a : Nat) (bs : Bytes) (marks : List Nat) :
    RepliesAs port s ((s.countRx port pkt).stored a bs marks) :=
  (State.countRx_repliesAs hhear).trans (.of_same rfl rfl rfl)

/-- An answer without a write leaves every memory. -/
theorem Answers.unwritten {t : State} {op outcome addr : Nat} {poison : Bool} {data : Bytes}
    (h : Answers s (s.countRx port pkt) t port pkt op outcome poison addr data) :
    SameMemory s t ∧ OneInOneOut s t port pkt := by
  obtain ⟨-, -, hstk, -, hflash⟩ := State.countRx_memory hhear
  exact ⟨(State.countRx_memory hhear).trans h.memory, h.counts (State.hears_port hhear) rfl rfl hstk hflash⟩

/-- An answer after a write leaves the bytes written, and all other bytes as they were. -/
theorem Answers.written {t : State} {a op outcome addr : Nat} {bs : Bytes} {marks : List Nat} {poison : Bool}
    {data : Bytes} (h : Answers s ((s.countRx port pkt).stored a bs marks) t port pkt op outcome poison addr data) :
    HbmHolds t a bs ∧ SameHbmBut a bs.length s t ∧ OneInOneOut s t port pkt := by
  obtain ⟨hhbm, -, hstk, -, hflash⟩ := State.countRx_memory hhear
  have hbytes : t.hbm = cellWrite 0 s.hbm a bs := h.memory.1.trans (congrArg (fun m => cellWrite 0 m a bs) hhbm)
  obtain ⟨hholds, hother⟩ := hbm_of_stored hbytes
  exact ⟨hholds, hother, h.counts (State.hears_port hhear) rfl rfl hstk hflash⟩

include htalk

theorem State.countRx_answers {op outcome addr : Nat} {data : Bytes} (hop : op < 64) (ho : outcome < 4)
    (haddr : addr < 2 ^ 48) (hdata : data.length / 128 < 8) (poison : Bool) :
    Answers s (s.countRx port pkt) ((s.countRx port pkt).reply_ port pkt op outcome poison addr data) port pkt op outcome
      poison addr data :=
  (State.countRx_repliesAs hhear).answers (State.hears_port hhear) htalk (by rw [State.countRx_fab]) hop ho haddr hdata
    poison

theorem State.stored_answers (a : Nat) (bs : Bytes) (marks : List Nat) {op outcome addr : Nat} {data : Bytes} (hop : op < 64)
    (ho : outcome < 4) (haddr : addr < 2 ^ 48) (hdata : data.length / 128 < 8) (poison : Bool) :
    Answers s ((s.countRx port pkt).stored a bs marks)
      (((s.countRx port pkt).stored a bs marks).reply_ port pkt op outcome poison addr data) port pkt op outcome poison addr
      data :=
  (State.stored_repliesAs hhear a bs marks).answers (State.hears_port hhear) htalk
    (congrArg Fab.out (s.countRx_fab port pkt)) hop ho haddr hdata poison

/-! ## Lines (R379, R383) -/

include hown

variable (hslot : s.slotOk pkt = true)

include hslot

theorem rd_completes (hop : pOp pkt = 0x01) :
    let a := pAddr pkt % 2 ^ 39
    let bad := s.hbmPoisoned a 128
    Completes (.rd port pkt) s (fun t =>
      RepliedWith s t port pkt 0x20 (if bad then 3 else 0) bad (pAddr pkt) (s.hbmRead a 128) ∧ SameMemory s t ∧
        OneInOneOut s t port pkt) := by
  intro a bad
  have hmem := State.countRx_memory hhear
  have hexec : exec (.rd port pkt) s = .next ((s.countRx port pkt).reply_ port pkt 0x20 (if bad then 3 else 0) bad
      (pAddr pkt) (s.hbmRead a 128)) := by
    rw [← hmem.hbmRead]
    refine (State.receive_serves hhear hown hslot hop _ _).trans ?_
    rw [hmem.hbmPoisoned]
  have hans := State.countRx_answers hhear htalk (op := 0x20) (by decide) (outcome_of_poison bad) (pAddr_lt pkt)
    (data := s.hbmRead a 128) (by rw [length_hbmRead]; decide) bad
  exact ⟨_, hexec, hans.replied, hans.unwritten hhear⟩

theorem wr_completes (hop : pOp pkt = 0x02) :
    let a := pAddr pkt % 2 ^ 39
    Completes (.wr port pkt) s (fun t =>
      RepliedWith s t port pkt 0x21 (if pPoison pkt then 3 else 0) false 0 [] ∧ HbmHolds t a pkt.data ∧
        SameHbmBut a 128 s t ∧ OneInOneOut s t port pkt) := by
  intro a
  have hans := State.stored_answers hhear htalk a pkt.data
    (markLines (s.countRx port pkt).hbmPoison a pkt.data.length (pPoison pkt)) (op := 0x21) (by decide)
    (outcome_of_poison (pPoison pkt)) (addr := 0) (by decide) (data := []) (by decide) false
  obtain ⟨hlen, hlo, hhi⟩ := State.hears_length hhear (vc := 1) (lo := 1) (hi := 1) (by rw [hop]; rfl)
  have h128 : pkt.data.length = 128 := by omega
  obtain ⟨hholds, hother, hcounts⟩ := hans.written hhear
  exact ⟨_, State.receive_serves hhear hown hslot hop _ _, hans.replied, hholds, h128 ▸ hother, hcounts⟩

theorem wrm_completes (hop : pOp pkt = 0x03) :
    let a := pAddr pkt % 2 ^ 39
    let mask := leNat ((pkt.data.drop 128).take 16)
    Completes (.wrm port pkt) s (fun t =>
      RepliedWith s t port pkt 0x21 (if pPoison pkt then 3 else 0) false 0 [] ∧ SameHbmBut a 128 s t ∧
        OneInOneOut s t port pkt ∧
        ∀ i < 128, cellGet 0 t.hbm (a + i) = if bitAt mask i then pkt.data.getD i 0 else cellGet 0 s.hbm (a + i)) := by
  intro a mask
  have hmem := State.countRx_memory hhear
  obtain ⟨new, hnew⟩ : ∃ new, new = maskBytes mask (s.hbmRead a 128) (pkt.data.take 128) := ⟨_, rfl⟩
  obtain ⟨marks, hexec⟩ : ∃ marks, exec (.wrm port pkt) s =
      .next (((s.countRx port pkt).stored a new marks).ackTo_ port pkt (if pPoison pkt then 3 else 0)) := by
    have hserved := State.receive_serves hhear hown hslot hop false (fun s a =>
      let mask := leNat ((pkt.data.drop 128).take 16)
      let new := maskBytes mask (s.hbmRead a 128) (pkt.data.take 128)
      let keep := s.hbmPoison
      let s := s.hbmWriteP a new (pPoison pkt)
      let s := if pPoison pkt || mask == 2 ^ 128 - 1 then s else { s with hbmPoison := keep }
      s.ackTo_ port pkt (if pPoison pkt then 3 else 0))
    have hexec : exec (.wrm port pkt) s = _ := hserved
    rw [hexec, hnew, ← hmem.hbmRead]
    dsimp only
    split
    · exact ⟨_, rfl⟩
    · exact ⟨_, rfl⟩
  have hans := State.stored_answers hhear htalk a new marks (op := 0x21) (by decide) (outcome_of_poison (pPoison pkt))
    (addr := 0) (by decide) (data := []) (by decide) false
  obtain ⟨hholds, hother, hcounts⟩ := hans.written hhear
  have hlen : new.length = 128 := by rw [hnew]; simp [maskBytes]
  refine ⟨_, hexec, hans.replied, hlen ▸ hother, hcounts, fun i hi => ?_⟩
  refine (hholds i (hlen ▸ hi)).trans ?_
  subst hnew
  simp [maskBytes, State.hbmRead, cellRead, hi]

end Request

/-- Settles O27: each of the three answers on the state that has counted it, RD without a write, WR and WRM after theirs. -/
theorem targetReadsAndWritesLines : Obligations.TargetReadsAndWritesLines := by
  intro s port pkt hhear hown hslot htalk a bad mask C ack
  exact ⟨rd_completes hhear hown htalk hslot, wr_completes hhear hown htalk hslot, wrm_completes hhear hown htalk hslot⟩

end Sys2Proof.Machine
end

section
/-! O28. Atomics at the target (R380 to R384): the cell takes its new value, and a fetching operation answers the old. -/

namespace Sys2Proof.Machine

/-- The cell of n bytes holds `new` and nothing else has changed; the reply carries the old cell for a fetching operation, and
says whether the cell or the request is poisoned (R380, R384). -/
def CellAnswered (s t : State) (port : Nat) (pkt : Packet) (n : Nat) (fetch : Bool) (new : Nat) : Prop :=
  let a := pAddr pkt % 2 ^ 39
  let bad := s.hbmPoisoned a n || pPoison pkt
  t.hbmNat a n = new ∧ SameHbmBut a n s t ∧ t.stk = s.stk ∧ t.flash = s.flash ∧ t.rgm = s.rgm ∧
    (if fetch then RepliedWith s t port pkt 0x20 (if bad then 3 else 0) bad (pAddr pkt)
        (natLe n (s.hbmNat a n) ++ List.replicate (128 - n) 0)
      else RepliedWith s t port pkt 0x21 (if bad then 3 else 0) false 0 [])

section Atomic

variable {s : State} {port : Nat} {pkt : Packet} (hhear : s.hears port pkt = true)

include hhear

/-- An answer after a cell has been stored. -/
theorem Answers.cell {t : State} {n new op outcome addr : Nat} {marks : List Nat} {poison : Bool} {data : Bytes}
    (h : Answers s ((s.countRx port pkt).stored (pAddr pkt % 2 ^ 39) (natLe n new) marks) t port pkt op outcome poison addr
      data) (hnew : new < 256 ^ n) :
    t.hbmNat (pAddr pkt % 2 ^ 39) n = new ∧ SameHbmBut (pAddr pkt % 2 ^ 39) n s t ∧ t.stk = s.stk ∧ t.flash = s.flash ∧
      t.rgm = s.rgm := by
  obtain ⟨hholds, hother, -, -, hstk, hflash, hrgm⟩ := h.written hhear
  have hread := hholds.read
  rw [length_natLe] at hread hother
  refine ⟨?_, hother, hstk, hflash, hrgm⟩
  rw [State.hbmNat, hread, leNat_natLe, Nat.mod_eq_of_lt hnew]

variable (hown : s.toAssumed pkt = false) (htalk : s.mayTalk = true) (hslot : s.slotOk pkt = true)

include hown htalk hslot

/-- An atomic that stores f of the old cell and the payload. -/
theorem atomic_completes {c : Instr} {op n : Nat} {fetch : Bool} {f : Nat → Bytes → Nat}
    (hexec : exec c s = s.receive port pkt (· == op) (fun u => u.atomic port pkt n fetch f)) (hn : n ≤ 128)
    (hnew : f (s.hbmNat (pAddr pkt % 2 ^ 39) n) pkt.data < 256 ^ n) (hop : pOp pkt = op) :
    Completes c s fun t => CellAnswered s t port pkt n fetch (f (s.hbmNat (pAddr pkt % 2 ^ 39) n) pkt.data) := by
  have hmem := State.countRx_memory hhear
  obtain ⟨marks, hmarks⟩ := (s.countRx port pkt).hbmPatch_stored (pAddr pkt % 2 ^ 39)
    (natLe n (f (s.hbmNat (pAddr pkt % 2 ^ 39) n) pkt.data)) (pPoison pkt)
  rw [Completes, hexec]
  simp only [State.atomic]
  rw [State.receive_serves hhear hown hslot hop, hmem.hbmPoisoned, hmem.hbmNat, hmarks]
  have hlen : (natLe n (s.hbmNat (pAddr pkt % 2 ^ 39) n) ++ List.replicate (128 - n) (0 : Byte)).length / 128 < 8 := by
    rw [List.length_append, length_natLe, List.length_replicate]
    omega
  cases fetch with
  | true =>
    have hans := State.stored_answers hhear htalk (pAddr pkt % 2 ^ 39)
      (natLe n (f (s.hbmNat (pAddr pkt % 2 ^ 39) n) pkt.data)) marks (op := 0x20) (by decide)
      (outcome_of_poison (s.hbmPoisoned (pAddr pkt % 2 ^ 39) n || pPoison pkt)) (pAddr_lt pkt) hlen
      (s.hbmPoisoned (pAddr pkt % 2 ^ 39) n || pPoison pkt)
    obtain ⟨hcell, hother, hstk, hflash, hrgm⟩ := hans.cell hhear hnew
    exact ⟨_, rfl, hcell, hother, hstk, hflash, hrgm, hans.replied⟩
  | false =>
    have hans := State.stored_answers hhear htalk (pAddr pkt % 2 ^ 39)
      (natLe n (f (s.hbmNat (pAddr pkt % 2 ^ 39) n) pkt.data)) marks (op := 0x21) (by decide)
      (outcome_of_poison (s.hbmPoisoned (pAddr pkt % 2 ^ 39) n || pPoison pkt)) (addr := 0) (by decide) (data := [])
      (by decide) false
    obtain ⟨hcell, hother, hstk, hflash, hrgm⟩ := hans.cell hhear hnew
    exact ⟨_, rfl, hcell, hother, hstk, hflash, hrgm, hans.replied⟩

/-- The exact sum of the cell and the operand as integers of n bits (R381). -/
def exactSum (s : State) (pkt : Packet) (n : Nat) : Int :=
  signedN n (s.hbmNat (pAddr pkt % 2 ^ 39) 16) + signedN n (fieldAt pkt.data 0 16)

/-- The sum lies within n bits of two's complement. -/
def SumFits (s : State) (pkt : Packet) (n : Nat) : Prop :=
  -(2 ^ (n - 1) : Int) ≤ exactSum s pkt n ∧ exactSum s pkt n < 2 ^ (n - 1)

variable {c : Instr} {op n : Nat} (hexec : exec c s = s.receive port pkt (· == op) (fun u => u.exactAdd port pkt n))

include hexec

omit htalk in
/-- What an exact add does with its sum. -/
theorem exactAdd_eq (hop : pOp pkt = op) : exec c s = .next
    (if decide (-(2 ^ (n - 1) : Int) ≤ exactSum s pkt n) && decide (exactSum s pkt n < 2 ^ (n - 1)) then
      ((s.countRx port pkt).hbmPatch (pAddr pkt % 2 ^ 39) (natLe 16 (wrapN 128 (exactSum s pkt n))) (pPoison pkt)).ackTo_
        port pkt (if s.hbmPoisoned (pAddr pkt % 2 ^ 39) 16 || pPoison pkt then 3 else 0)
    else (s.countRx port pkt).ackTo_ port pkt 2) := by
  have hmem := State.countRx_memory hhear
  rw [hexec]
  simp only [State.exactAdd]
  rw [State.receive_serves hhear hown hslot hop, hmem.hbmPoisoned, hmem.hbmNat]
  rfl

theorem exactAdd_fits_completes (hfits : SumFits s pkt n) (hop : pOp pkt = op) :
    Completes c s fun t => CellAnswered s t port pkt 16 false (wrapN 128 (exactSum s pkt n)) := by
  obtain ⟨marks, hmarks⟩ := (s.countRx port pkt).hbmPatch_stored (pAddr pkt % 2 ^ 39)
    (natLe 16 (wrapN 128 (exactSum s pkt n))) (pPoison pkt)
  have heq := exactAdd_eq hhear hown hslot hexec hop
  rw [decide_eq_true hfits.1, decide_eq_true hfits.2, Bool.and_self, if_pos rfl, hmarks] at heq
  have hans := State.stored_answers hhear htalk (pAddr pkt % 2 ^ 39) (natLe 16 (wrapN 128 (exactSum s pkt n))) marks
    (op := 0x21) (by decide) (outcome_of_poison (s.hbmPoisoned (pAddr pkt % 2 ^ 39) 16 || pPoison pkt)) (addr := 0)
    (by decide) (data := []) (by decide) false
  obtain ⟨hcell, hother, hstk, hflash, hrgm⟩ := hans.cell hhear (wrapN_lt 128 _)
  exact ⟨_, heq, hcell, hother, hstk, hflash, hrgm, hans.replied⟩

/-- A sum out of range is answered with outcome 2, and the cell is left alone (R381). -/
theorem exactAdd_refuses (hop : pOp pkt = op) (hfits : ¬SumFits s pkt n) :
    Completes c s fun t => RepliedWith s t port pkt 0x21 2 false 0 [] ∧ SameMemory s t := by
  have heq := exactAdd_eq hhear hown hslot hexec hop
  have hout : (decide (-(2 ^ (n - 1) : Int) ≤ exactSum s pkt n) && decide (exactSum s pkt n < 2 ^ (n - 1))) = false := by
    rwa [← Bool.decide_and, decide_eq_false_iff_not]
  rw [hout, if_neg Bool.false_ne_true] at heq
  have hans := State.countRx_answers hhear htalk (op := 0x21) (outcome := 2) (by decide) (by decide) (addr := 0) (by decide)
    (data := []) (by decide) false
  exact ⟨_, heq, hans.replied, (hans.unwritten hhear).1⟩

end Atomic

/-- Settles O28: seven atomics store a function of the cell and the payload, and two an exact sum where it fits. -/
theorem targetAtomicsChangeTheCell : Obligations.TargetAtomicsChangeTheCell := by
  intro s port pkt hhear hown hslot htalk a arg A exact fits
  have hcas : (if s.hbmNat a 8 = arg 8 then fieldAt pkt.data 8 8 else s.hbmNat a 8) < 256 ^ 8 := by
    split
    · exact fieldAt_lt _ _ _
    · exact hbmNat_lt _ _ _
  have h32 (k : Nat) : k % 2 ^ 32 < 256 ^ 4 := Nat.mod_lt k (by decide)
  have h64 (k : Nat) : k % 2 ^ 64 < 256 ^ 8 := Nat.mod_lt k (by decide)
  refine ⟨atomic_completes (f := fun c d => (c + fieldAt d 0 4) % 2 ^ 32) hhear hown htalk hslot rfl (by decide) (h32 _),
    atomic_completes (f := fun c d => (c + fieldAt d 0 8) % 2 ^ 64) hhear hown htalk hslot rfl (by decide) (h64 _),
    atomic_completes (f := fun c d => (c + fieldAt d 0 4) % 2 ^ 32) hhear hown htalk hslot rfl (by decide) (h32 _),
    atomic_completes (f := fun c d => (c + fieldAt d 0 8) % 2 ^ 64) hhear hown htalk hslot rfl (by decide) (h64 _),
    atomic_completes (f := fun _ d => fieldAt d 0 4) hhear hown htalk hslot rfl (by decide) (fieldAt_lt _ _ _),
    atomic_completes (f := fun _ d => fieldAt d 0 8) hhear hown htalk hslot rfl (by decide) (fieldAt_lt _ _ _), ?_,
    exactAdd_fits_completes hhear hown htalk hslot rfl, exactAdd_fits_completes hhear hown htalk hslot rfl,
    exactAdd_refuses hhear hown htalk hslot rfl, exactAdd_refuses hhear hown htalk hslot rfl⟩
  have hnew := atomic_completes (c := .cas64 port pkt) (n := 8) hhear hown htalk hslot rfl (by decide)
    (by simpa only [beq_iff_eq] using hcas)
  simp only [beq_iff_eq] at hnew
  exact hnew

end Sys2Proof.Machine
end

section
/-! O29. Copies at their other end (R388, R389, R392): a push is written, counted and acknowledged, a pull answered. -/

namespace Sys2Proof.Machine

section Copies

variable {s : State} {port : Nat} {pkt : Packet} (hhear : s.hears port pkt = true) (hown : s.toAssumed pkt = false)
  (htalk : s.mayTalk = true)

include hhear hown

omit hhear in
theorem State.countRx_own : (s.countRx port pkt).toAssumed pkt = false := by
  rwa [State.toAssumed, s.countRx_chip]

/-- What a push leaves before its reply (R388, R389). -/
def State.pushed (s : State) (pkt : Packet) : State :=
  let a := pAddr pkt
  let w := s.hbmWriteP ((fld a 38 7) <<< 7) pkt.data (pPoison pkt)
  if pRi pkt then w.countUp ((fld a 47 39) <<< 7 + fld a 6 0) (pLen pkt) else w

omit hhear hown in
theorem aCtr_not_sendCount (c : Nat) : ¬SendCount (aCtr c) := by unfold SendCount aCtr; omega

omit hhear hown in
/-- An arrival counter is none of the registers a reply depends on. -/
theorem RepliesAs.countUp (s : State) {port : Nat} (hport : port < 16) (c n : Nat) : RepliesAs port s (s.countUp c n) := by
  have hne (m : Nat) (hm : m < 16) : aFabState m ≠ aCtr (c % 65536) := by unfold aFabState aCtr; omega
  exact .setReg s _ (hne port hport) hne (by unfold aTwnState aCtr; omega) (by unfold aSecStat aCtr; omega)
    (by unfold aAtnCause aCtr; omega)

include htalk

theorem cpy_completes (hop : pOp pkt = 0x18) :
    let a := (fld (pAddr pkt) 38 7) <<< 7
    let c := aCtr (((fld (pAddr pkt) 47 39) <<< 7 + fld (pAddr pkt) 6 0) % 65536)
    Completes (.cpy port pkt) s (fun t => HbmHolds t a pkt.data ∧ SameHbmBut a pkt.data.length s t ∧
      t.reg c = (if pRi pkt then s.reg c + BitVec.ofNat 64 (pLen pkt) else s.reg c) ∧
      RepliedWith s t port pkt 0x21 (if pPoison pkt then 3 else 0) false 0 [] ∧ t.stk = s.stk ∧ t.flash = s.flash) := by
  intro a c
  have hport := State.hears_port hhear
  have hexec : exec (.cpy port pkt) s =
      .next (((s.countRx port pkt).pushed pkt).ackTo_ port pkt (if pPoison pkt then 3 else 0)) := by
    rw [show exec (.cpy port pkt) s = execCpy port pkt s from rfl, execCpy, State.receive_heard hhear (by rw [hop]; rfl),
      State.countRx_own hown]
    rfl
  have hwritten := State.stored_repliesAs hhear a pkt.data
    (markLines (s.countRx port pkt).hbmPoison a pkt.data.length (pPoison pkt))
  have hreplies : RepliesAs port s ((s.countRx port pkt).pushed pkt) := by
    unfold State.pushed
    dsimp only
    split
    · exact hwritten.trans (.countUp _ hport _ _)
    · exact hwritten
  obtain ⟨hhbm, -, hstk, -, hflash⟩ := State.countRx_memory hhear
  obtain ⟨hhbm', hstk', hflash', hfab, hctr⟩ : ((s.countRx port pkt).pushed pkt).hbm = cellWrite 0 s.hbm a pkt.data ∧
      ((s.countRx port pkt).pushed pkt).stk = s.stk ∧ ((s.countRx port pkt).pushed pkt).flash = s.flash ∧
      ((s.countRx port pkt).pushed pkt).fab = s.fab ∧ ((s.countRx port pkt).pushed pkt).reg c =
        (if pRi pkt then s.reg c + BitVec.ofNat 64 (pLen pkt) else s.reg c) := by
    have hbytes : (cellWrite 0 (s.countRx port pkt).hbm a pkt.data) = cellWrite 0 s.hbm a pkt.data := by rw [hhbm]
    have hreg : (s.countRx port pkt).reg c = s.reg c :=
      s.countRx_reg_of_lt pkt (by unfold c aCtr; omega) (by unfold c aCtr aFabCntRxpkt; omega)
    rw [← hreg]
    unfold State.pushed
    dsimp only
    split
    · exact ⟨hbytes, hstk, hflash, s.countRx_fab _ _, State.reg_addCtr_same _ _ _⟩
    · exact ⟨hbytes, hstk, hflash, s.countRx_fab _ _, rfl⟩
  have hans := hreplies.acks (pkt := pkt) hport htalk (congrArg Fab.out hfab) (outcome_of_poison (pPoison pkt))
  obtain ⟨hm1, -, hm3, -, hm5⟩ := hans.memory
  obtain ⟨hholds, hother⟩ := hbm_of_stored (hm1.trans hhbm')
  exact ⟨_, hexec, hholds, hother, (hans.sent.reg (aCtr_not_sendCount _)).trans hctr, hans.replied, hm3.trans hstk',
    hm5.trans hflash'⟩

theorem cpyrd_completes (hop : pOp pkt = 0x19) (hslot : s.slotOk pkt = true) :
    let k := fld (pAddr pkt) 1 0 + 1
    let a := ((fld (pAddr pkt) 47 7) <<< 7) % 2 ^ 39
    s.hbmPoisoned a (128 * k) = false →
    Completes (.cpyrd port pkt) s (fun t => SameMemory s t ∧
      RepliedWith s t port pkt 0x20 0 false (pAddr pkt) (s.hbmRead a (128 * k))) := by
  intro k a hclean
  have hmem := State.countRx_memory hhear
  have hslot' : (s.countRx port pkt).slotOk pkt = true := by rwa [State.slotOk, s.countRx_chip]
  have hexec : exec (.cpyrd port pkt) s =
      .next ((s.countRx port pkt).reply_ port pkt 0x20 0 false (pAddr pkt) (s.hbmRead a (128 * k))) := by
    rw [show exec (.cpyrd port pkt) s = execCpyrd port pkt s from rfl, execCpyrd, State.receive_heard hhear (by rw [hop]; rfl),
      State.countRx_own hown, hslot']
    change Host.Outcome.next (if (s.countRx port pkt).hbmPoisoned a (128 * k) then _ else
      (s.countRx port pkt).reply_ port pkt 0x20 0 false (pAddr pkt) ((s.countRx port pkt).hbmRead a (128 * k))) = _
    rw [hmem.hbmPoisoned, hclean, hmem.hbmRead]
    rfl
  have hk : k < 5 := Nat.succ_lt_succ (Nat.mod_lt _ (by decide))
  have hans := State.countRx_answers hhear htalk (op := 0x20) (outcome := 0) (by decide) (by decide) (pAddr_lt pkt)
    (data := s.hbmRead a (128 * k)) (by rw [length_hbmRead]; omega) false
  exact ⟨_, hexec, (hans.unwritten hhear).1, hans.replied⟩

end Copies

/-- Settles O29: a push stores its lines and counts them before it is acknowledged, and a pull's lines are read. -/
theorem targetServesCopies : Obligations.TargetServesCopies := by
  intro s port pkt hhear hown htalk
  exact ⟨cpy_completes hhear hown htalk, cpyrd_completes hhear hown htalk⟩

end Sys2Proof.Machine
end

section
/-! Requests of the host (R363, R379, R385, R399), and copies submitted at the register port (R387, R391): which go out, which
wait, and which are refused. -/

namespace Sys2Proof.Machine

/-! ## Checks (R394 to R396, R399) -/

/-- What an ownership check leaves: entries in the cache (R396). -/
theorem State.ownNote_only (s : State) (lo n : Nat) : CacheOnly s (s.ownNote lo n) := by
  unfold State.ownNote
  refine .foldl _ (fun u r => ?_) _ s
  split
  · exact .refl u
  · split
    · exact ⟨_, rfl⟩
    · exact .refl u

/-- A refused access is counted once, and nothing is sent (R399). -/
theorem CacheOnly.refused {s u : State} (h : CacheOnly s u) (e : CheckFail) :
    (u.checkRefused e).fab.out = s.fab.out ∧ (u.checkRefused e).fab.reqs = s.fab.reqs ∧ SameMemory s (u.checkRefused e) ∧
      (u.checkRefused e).reg aMsfCntRefuse = s.reg aMsfCntRefuse + 1 := by
  have hfab : (u.checkRefused e).fab = u.fab := by simp [State.checkRefused]
  have hmem : SameMemory u (u.checkRefused e) := by simp [State.checkRefused, SameMemory]
  have hcount : (u.checkRefused e).reg aMsfCntRefuse = u.reg aMsfCntRefuse + 1 :=
    (State.reg_errBit_other _ _ _ (by decide) (by decide)).trans (u.reg_bump_same _)
  have hnoted : u.fab.out = s.fab.out ∧ u.fab.reqs = s.fab.reqs ∧ SameMemory s u ∧
      u.reg aMsfCntRefuse = s.reg aMsfCntRefuse := by
    obtain ⟨_, rfl⟩ := h
    exact ⟨rfl, rfl, .refl s, rfl⟩
  obtain ⟨hout, hreqs, hsame, hreg⟩ := hnoted
  exact ⟨(congrArg Fab.out hfab).trans hout, (congrArg Fab.reqs hfab).trans hreqs, hsame.trans hmem,
    hcount.trans (by rw [hreg])⟩

theorem State.answerHost_reg (s : State) (data : Bytes) (outcome : Nat) (poison : Bool) (a : Nat) :
    (s.answerHost data outcome poison).reg a = s.reg a := rfl

/-! ## A port for a packet (R365, R375) -/

/-- The port that a hash picks can carry the packet. -/
theorem State.pickPort_carries {s : State} {a src dst vc n : Nat} (h : s.pickPort a src dst vc = some n) :
    s.carries n src dst vc = true := by
  unfold State.pickPort at h
  dsimp only at h
  split at h
  · cases h
  · have hmem := (List.mem_filter.1 (List.mem_of_getElem? h)).2
    exact (Bool.and_eq_true_iff.1 hmem).2

/-! ## A request that issues (R385) -/

/-- A request under the lowest free tag. -/
def State.tagged (s : State) (p : Packet) : Packet :=
  { p with hdr := BitVec.ofNat 128 (withFld p.hdr.toNat 122 106 (freeTag 0 s.fab.reqs)) }

/-- The port that R375 gives a request. -/
def State.portOf (s : State) (p : Packet) : Option Nat :=
  s.pickPort ((pDst p) <<< 41 ||| (lineAddr p >>> 7)) (pSrc p) (pDst p) (pVc p)

/-- A host request of one line is in flight from s on, on a port. -/
def Flies (s : State) (p : Packet) (n : Nat) (r : Req) : Prop :=
  r.ctx = pCtx p ∧ r.port = n ∧ r.pkt = p ∧ r.lines = 1 ∧ r.issued = s.tclk ∧ r.timedOut = false ∧ r.copy = none

/-- A host request that a port can carry goes out under the lowest free tag, with its entry in the table. -/
theorem State.issue_host {s : State} {p : Packet} {n : Nat} (htalk : s.mayTalk = true)
    (hport : s.portOf (s.tagged p) = some n) : ∃ t, s.issue p 1 none = (true, t) ∧
      (∃ r, tabFind t.fab.reqs (freeTag 0 s.fab.reqs) = some r ∧ Flies s (s.tagged p) n r) ∧
      t.fab.out = s.fab.out ++ [(n, s.dress n (s.tagged p))] ∧ SameMemory s t := by
  have hmay := (RepliesAs.of_same (port := 0) rfl rfl rfl : RepliesAs 0 s s).maySend htalk (s.tagged p)
  have hfab := s.sendOn_fab hmay (State.pickPort_carries hport)
  have hmem := (s.sendOn_sent (s.tagged p) (State.pickPort_lt hport)).sameMemory
  have hissue : s.issue p 1 none = (match s.portOf (s.tagged p) with
    | none => (false, s)
    | some n => (true, { s.sendOn n (s.tagged p) with fab := { (s.sendOn n (s.tagged p)).fab with
        reqs := tabPut (s.sendOn n (s.tagged p)).fab.reqs (freeTag 0 s.fab.reqs)
          { ctx := pCtx (s.tagged p), port := n, pkt := s.tagged p, lines := 1, issued := s.tclk, timedOut := false
            retried := false, copy := none, got := []
            serial := (s.fab.reqs.foldl (fun n e => max n e.2.serial) 0) + 1 } } })) := rfl
  rw [hissue, hport]
  refine ⟨_, rfl, ⟨_, tabFind_tabPut_same _ _ _, rfl, rfl, rfl, rfl, rfl, rfl, rfl⟩, ?_, hmem⟩
  rw [hfab]

/-! ## MS_REQUEST -/

section Request

variable {s : State} {x : Nat} {pkt : Packet}

/-- The request that a host access becomes. -/
def State.hostPkt (s : State) (x : Nat) (pkt : Packet) : Packet :=
  let data := if pOp pkt = 0x03 then pkt.data.take 144 ++ List.replicate 112 0 else pkt.data
  ⟨nalHdr 1 (pOp pkt) (s.srcOf x) ((s.chip / 128) <<< 7 + fld (pAddr pkt) 45 39) x (data.length / 128)
    (bit (pPoison pkt)) 0 (pAddr pkt) 0 0, data⟩

/-- A host access of a lawful form. -/
def State.lawfulAccess (s : State) (x lo : Nat) (pkt : Packet) : Prop :=
  pkt.data.length = 128 * lo ∧ addrOk (s.hostPkt x pkt) = true ∧ fld (pAddr pkt) 47 46 = 0 ∧
    s.noChip (pDst (s.hostPkt x pkt)) = false

/-- The sender's check of a host access. -/
def State.accessCheck (s : State) (x : Nat) (pkt : Packet) : Option CheckFail :=
  s.checkAccess x (pAddr pkt) (accessOf (pOp pkt)).1 (accessOf (pOp pkt)).2.1 (accessOf (pOp pkt)).2.2

/-- What the check leaves in the ownership cache. -/
def State.accessNote (s : State) (x : Nat) (pkt : Packet) : State :=
  if (accessOf (pOp pkt)).2.2 && s.accessCheck x pkt != some .window then s.ownNote (pAddr pkt) (accessOf (pOp pkt)).1 else s

theorem State.accessNote_only (s : State) (x : Nat) (pkt : Packet) : CacheOnly s (s.accessNote x pkt) := by
  unfold State.accessNote
  split
  · exact s.ownNote_only _ _
  · exact .refl s

variable {lo hi : Nat} (hshape : opShape (pOp pkt) = some (1, lo, hi)) (hopen : s.tenantShut = false)

include hshape hopen

/-- What MS_REQUEST does with a lawful access. -/
theorem State.execMsRequest_lawful (h : s.lawfulAccess x lo pkt) : execMsRequest x pkt s =
    match s.accessCheck x pkt with
    | some e => .next (((s.accessNote x pkt).checkRefused e).answerHost [] 2 false)
    | none =>
      if (s.accessNote x pkt).canIssue 1 then
        match (s.accessNote x pkt).issue (s.hostPkt x pkt) 1 none with
        | (true, t) => .next t
        | (false, t) => .next (t.answerHost [] 2 false)
      else .next { s.accessNote x pkt with fab := { (s.accessNote x pkt).fab with
        held := (s.accessNote x pkt).fab.held ++ [(1, s.hostPkt x pkt)] } } := by
  obtain ⟨hlen, haddr, htop, hchip⟩ := h
  unfold State.hostPkt at haddr hchip
  unfold execMsRequest
  simp only [hshape, hopen, hlen, beq_iff_eq, haddr, htop, hchip, bne_self_eq_false, decide_true, Bool.not_true,
    Bool.or_self, Bool.false_eq_true, if_false] <;> rfl

/-- What it does with another. -/
theorem State.execMsRequest_unlawful (h : ¬s.lawfulAccess x lo pkt) :
    execMsRequest x pkt s = .next (s.answerHost [] 2 false) := by
  unfold State.lawfulAccess State.hostPkt at h
  unfold execMsRequest
  simp only [hshape, hopen, beq_iff_eq]
  refine if_pos ?_
  simp only [Bool.or_eq_true, Bool.not_eq_true', decide_eq_false_iff_not, bne_iff_ne, Bool.false_eq_true, false_or]
  by_contra hno
  push Not at hno
  obtain ⟨⟨⟨hlen, haddr⟩, htop⟩, hchip⟩ := hno
  exact h ⟨hlen, by simpa using haddr, htop, by simpa using hchip⟩

/-- A checked request with a tag and a port goes out. -/
theorem State.msRequest_issues {n : Nat} (h : s.lawfulAccess x lo pkt) (hcheck : s.accessCheck x pkt = none)
    (hcan : s.canIssue 1 = true) (htalk : s.mayTalk = true) (hport : s.portOf (s.tagged (s.hostPkt x pkt)) = some n) :
    Completes (.msRequest x pkt) s (fun t =>
      (∃ r, tabFind t.fab.reqs (freeTag 0 s.fab.reqs) = some r ∧ Flies s (s.tagged (s.hostPkt x pkt)) n r) ∧
      t.fab.out = s.fab.out ++ [(n, s.dress n (s.tagged (s.hostPkt x pkt)))] ∧ SameMemory s t) := by
  have hexec : exec (.msRequest x pkt) s = execMsRequest x pkt s := rfl
  obtain ⟨cache, hnote⟩ := s.accessNote_only x pkt
  obtain ⟨t, ht, hreq, hout, hmem⟩ :=
    State.issue_host (s := { s with fab := { s.fab with ownCache := cache } }) (p := s.hostPkt x pkt) htalk hport
  refine ⟨t, ?_, hreq, hout, hmem⟩
  have hcan' : ({ s with fab := { s.fab with ownCache := cache } } : State).canIssue 1 = true := hcan
  rw [hexec, State.execMsRequest_lawful hshape hopen h, hcheck, hnote]
  simp only [hcan', if_true, ht]

/-- One without a tag waits behind the others. -/
theorem State.msRequest_waits (h : s.lawfulAccess x lo pkt) (hcheck : s.accessCheck x pkt = none)
    (hcan : s.canIssue 1 = false) :
    Completes (.msRequest x pkt) s (fun t => t.fab.held = s.fab.held ++ [(1, s.hostPkt x pkt)] ∧
      t.fab.reqs = s.fab.reqs ∧ t.fab.out = s.fab.out ∧ SameRegsBut [] s t ∧ SameMemory s t) := by
  have hexec : exec (.msRequest x pkt) s = execMsRequest x pkt s := rfl
  obtain ⟨cache, hnote⟩ := s.accessNote_only x pkt
  have hcan' : ({ s with fab := { s.fab with ownCache := cache } } : State).canIssue 1 = false := hcan
  rw [Completes, hexec, State.execMsRequest_lawful hshape hopen h, hcheck, hnote]
  simp only [hcan', Bool.false_eq_true, if_false]
  exact ⟨_, rfl, rfl, rfl, rfl, fun _ _ => rfl, rfl, rfl, rfl, rfl, rfl⟩

/-- A request that is turned down: outcome 2, and nothing sent. -/
def TurnedDown (s t : State) : Prop :=
  t.fab.answer = ([], 2, false) ∧ t.fab.out = s.fab.out ∧ t.fab.reqs = s.fab.reqs ∧ SameMemory s t

omit hshape hopen in
theorem TurnedDown.answerHost {u : State} (hout : u.fab.out = s.fab.out) (hreqs : u.fab.reqs = s.fab.reqs)
    (hmem : SameMemory s u) : TurnedDown s (u.answerHost [] 2 false) := ⟨rfl, hout, hreqs, hmem⟩

/-- One that a check refuses is counted. -/
theorem State.msRequest_refused (h : s.lawfulAccess x lo pkt) (hcheck : s.accessCheck x pkt ≠ none) :
    Completes (.msRequest x pkt) s (fun t => TurnedDown s t ∧ t.reg aMsfCntRefuse = s.reg aMsfCntRefuse + 1) := by
  have hexec : exec (.msRequest x pkt) s = execMsRequest x pkt s := rfl
  have hnote := s.accessNote_only x pkt
  obtain ⟨e, he⟩ := Option.ne_none_iff_exists'.1 hcheck
  rw [Completes, hexec, State.execMsRequest_lawful hshape hopen h, he]
  obtain ⟨hout, hreqs, hmem, hreg⟩ := hnote.refused e
  exact ⟨_, rfl, .answerHost hout hreqs hmem, (State.answerHost_reg _ _ _ _ _).trans hreg⟩

/-- One of an unlawful form is answered at once. -/
theorem State.msRequest_malformed (h : ¬s.lawfulAccess x lo pkt) :
    Completes (.msRequest x pkt) s (fun t => TurnedDown s t ∧ SameRegsBut [] s t) := by
  have hexec : exec (.msRequest x pkt) s = execMsRequest x pkt s := rfl
  rw [Completes, hexec, State.execMsRequest_unlawful hshape hopen h]
  exact ⟨_, rfl, ⟨rfl, rfl, rfl, rfl, rfl, rfl, rfl, rfl⟩, fun _ _ => rfl⟩

end Request

/-! ## MSF_CPY (R387, R391) -/

section Copies

variable {s : State} {v : Word} (hopen : s.tenantShut = false) (hdark : s.dark = false)

/-- The copy that a write of MSF_CPY names. -/
def State.hostCopy (s : State) (v : Word) : Copy := copyOf (s.hbmRead (fld v.toNat 47 0) 64) (fld v.toNat 59 48) none [] 0 false

/-- Its descriptor is aligned, unpoisoned and lawful, and there is room for one more copy. -/
def State.lawfulCopy (s : State) (v : Word) : Prop :=
  fld v.toNat 47 0 % 64 = 0 ∧ s.hbmPoisoned (fld v.toNat 47 0) 64 = false ∧
    copyDescOk (s.hbmRead (fld v.toNat 47 0) 64) false = true ∧ s.fab.copies.length < 16384

/-- The port that could carry it. -/
def State.hostCopyPort (s : State) (v : Word) : Option Nat := s.pickPort 0 (s.srcOf (fld v.toNat 59 48)) (s.hostCopy v).peer 6

/-- A copy that is refused leaves nothing but the refusal. -/
def CopyRefused (s t : State) : Prop :=
  t.fab.copies = s.fab.copies ∧ t.fab.out = s.fab.out ∧ t.outcome = 2 ∧ SameMemory s t

/-- What MSF_CPY leaves of a lawful copy, by its check and the port that could carry it. -/
def State.copyAnswered (s : State) (c : Copy) (port : Option Nat) : Option CopyFail → State
  | some (.check e) => (s.copyRefused c e).refuse
  | some _ => s.refuse
  | none => if port.isNone then (s.copyNote c).refuse else ((s.copyNote c).submitCopy c).2.done

theorem CopyRefused.refuse {s t : State} (hdark : t.dark = false) (hcopies : t.fab.copies = s.fab.copies)
    (hout : t.fab.out = s.fab.out) (hmem : SameMemory s t) : CopyRefused s t.refuse :=
  ⟨by rwa [State.refuse_fab], by rwa [State.refuse_fab], t.outcome_refuse hdark, hmem.trans t.sameMemory_refuse⟩

/-- A copy that a check refuses leaves whether anything answers. -/
theorem State.copyRefused_dark (s : State) (c : Copy) (e : CheckFail) : (s.copyRefused c e).dark = s.dark := by
  have hnoted : EndKeeps s (if e = .owner then s.copyNote c else s) := by
    split
    · obtain ⟨_, he⟩ := s.copyNote_only c
      rw [he]
      exact .of_same rfl rfl rfl
    · exact .refl s
  exact ((hnoted.trans (.setReg _ _ (by decide))).trans (.errBit _ _ _ (by decide))).dark

include hopen

/-- What MSF_CPY does with a lawful descriptor. -/
theorem State.execMsfCpy_lawful (h : s.lawfulCopy v) :
    execMsfCpy v s = .next (s.copyAnswered (s.hostCopy v) (s.hostCopyPort v) (s.copyCheck (s.hostCopy v))) := by
  obtain ⟨halign, hclean, hdesc, hroom⟩ := h
  have hroom' : s.copyRoom = true := decide_eq_true hroom
  have hform : ¬(s.tenantShut || fld v.toNat 47 0 % 64 != 0 || s.hbmPoisoned (fld v.toNat 47 0) 64 ||
      !copyDescOk (s.hbmRead (fld v.toNat 47 0) 64) false || !s.copyRoom) = true := by
    simp [hopen, halign, hclean, hdesc, hroom']
  refine (if_neg hform).trans ?_
  unfold State.hostCopyPort State.hostCopy
  dsimp only
  generalize copyOf _ _ _ _ _ _ = c
  obtain ⟨hport, hsrc⟩ := (s.copyNote_only c).pickPort (x := fld v.toNat 59 48) 0 (s.srcOf (fld v.toNat 59 48)) c.peer 6
  cases s.copyCheck c with
  | none =>
    dsimp only
    rw [hsrc, hport]
    exact (apply_ite Host.Outcome.next _ _ _).symm
  | some e => cases e <;> rfl

include hdark

/-- A lawful copy that its checks pass and a port can carry is submitted. -/
theorem State.msfCpy_submits (h : s.lawfulCopy v) (hcheck : s.copyCheck (s.hostCopy v) = none)
    (hport : s.hostCopyPort v ≠ none) : Completes (.msfCpy v) s (fun t =>
      (∃ k, tabFind t.fab.copies s.freeCopy = some { s.hostCopy v with next := k }) ∧ t.outcome = 0) := by
  have hexec : exec (.msfCpy v) s = execMsfCpy v s := rfl
  obtain ⟨cache, hnote⟩ := s.copyNote_only (s.hostCopy v)
  rw [Completes, hexec, State.execMsfCpy_lawful hopen h, hcheck]
  simp only [State.copyAnswered, Option.isNone_iff_eq_none, hport, if_false]
  rw [hnote]
  refine ⟨_, rfl, ?_, State.outcome_done _ ?_⟩
  · rw [State.done_fab]
    exact (State.submitCopy_effect { s with fab := { s.fab with ownCache := cache } } (s.hostCopy v)).2
  · exact (State.pump_pumped _).dark.trans hdark

/-- Any other is refused. -/
theorem State.msfCpy_refused (h : ¬s.lawfulCopy v ∨ s.copyCheck (s.hostCopy v) ≠ none ∨ s.hostCopyPort v = none) :
    Completes (.msfCpy v) s (CopyRefused s) := by
  have hexec : exec (.msfCpy v) s = execMsfCpy v s := rfl
  have hplain : CopyRefused s s.refuse := .refuse hdark rfl rfl (.refl s)
  rw [Completes, hexec]
  by_cases hlaw : s.lawfulCopy v
  · rw [State.execMsfCpy_lawful hopen hlaw]
    cases hcheck : s.copyCheck (s.hostCopy v) with
    | none =>
      obtain ⟨cache, hnote⟩ := s.copyNote_only (s.hostCopy v)
      have hport := (h.resolve_left (not_not_intro hlaw)).resolve_left (not_not_intro hcheck)
      simp only [State.copyAnswered, hport, Option.isNone_none, if_true]
      rw [hnote]
      exact ⟨_, rfl, .refuse hdark rfl rfl ⟨rfl, rfl, rfl, rfl, rfl⟩⟩
    | some e =>
      cases e with
      | check e =>
        obtain ⟨-, hcopies, hout, hmem⟩ := s.copyRefused_effect (s.hostCopy v) e
        exact ⟨_, rfl, .refuse ((s.copyRefused_dark _ e).trans hdark) hcopies hout hmem⟩
      | malformed => exact ⟨_, rfl, hplain⟩
      | full => exact ⟨_, rfl, hplain⟩
  · have hbad : execMsfCpy v s = .next s.refuse := by
      refine if_pos ?_
      simp only [hopen, Bool.or_eq_true, Bool.not_eq_true', bne_iff_ne, Bool.false_eq_true, false_or, State.copyRoom,
        decide_eq_false_iff_not]
      by_contra hno
      push Not at hno
      obtain ⟨⟨⟨halign, hclean⟩, hdesc⟩, hroom⟩ := hno
      exact hlaw ⟨halign, by simpa using hclean, by simpa using hdesc, hroom⟩
    exact ⟨_, hbad, hplain⟩

end Copies

/-- Settles O30: a request by its form, its check, its tag and its port, a copy by its form, its check and its port. -/
theorem requestsTakeATag : Obligations.RequestsTakeATag := by
  unfold Obligations.RequestsTakeATag
  intro s x hopen hdark
  refine ⟨?_, ?_⟩
  · intro pkt lo hi op a data p tag w check turned hshape
    refine ⟨fun hlen haddr htop hchip => ?_, fun hbad => ?_⟩
    · have hlaw : s.lawfulAccess x lo pkt := ⟨hlen, haddr, htop, hchip⟩
      refine ⟨fun hcheck => ⟨?_, fun hcan => ?_⟩, fun hcheck => ?_⟩
      · intro hcan htalk p' n hport
        exact State.msRequest_issues hshape hopen hlaw hcheck hcan htalk hport
      · exact State.msRequest_waits hshape hopen hlaw hcheck hcan
      · exact State.msRequest_refused hshape hopen hlaw hcheck
    · refine State.msRequest_malformed hshape hopen fun ⟨hlen, haddr, htop, hchip⟩ => ?_
      obtain h | h | h | h := hbad
      · exact h hlen
      · exact absurd (haddr.symm.trans h) (by decide)
      · exact h htop
      · exact absurd (hchip.symm.trans h) (by decide)
  · rintro v rfl a d c lawful port
    exact ⟨State.msfCpy_submits hopen hdark, State.msfCpy_refused hopen hdark⟩

end Sys2Proof.Machine
end

section
/-! The teardown of a context and the end of a copy (R390, R404, R517, R518): what both leave, and what a context reads once it is
torn down. -/

namespace Sys2Proof.Machine

/-! ## What a teardown keeps -/

/-- Each step of t was one of s, with at least the operations in the air. -/
def StepsFrom (s t : State) : Prop :=
  ∀ w ∈ t.rgm.steps, ∃ u ∈ s.rgm.steps, w.desc = u.desc ∧ ∀ a ∈ w.asyncs, a ∈ u.asyncs

namespace StepsFrom

variable {s t u : State}

theorem of_steps (h : t.rgm.steps = s.rgm.steps) : StepsFrom s t := fun w hw => ⟨w, h ▸ hw, rfl, fun _ => id⟩

theorem trans (h : StepsFrom s t) (k : StepsFrom t u) : StepsFrom s u := by
  intro w hw
  obtain ⟨v, hv, hdesc, hasync⟩ := k w hw
  obtain ⟨r, hr, hdesc', hasync'⟩ := h v hv
  exact ⟨r, hr, hdesc.trans hdesc', fun a ha => hasync' a (hasync a ha)⟩

theorem modStep (s : State) (x : Nat) (step : Word) {f : Step → Step} (hdesc : ∀ u, (f u).desc = u.desc)
    (hasync : ∀ u, ∀ a ∈ (f u).asyncs, a ∈ u.asyncs) : StepsFrom s (s.modStep x step f) := by
  intro w hw
  obtain ⟨u, hu, rfl⟩ := List.mem_map.1 hw
  refine ⟨u, hu, ?_⟩
  split
  · exact ⟨hdesc u, hasync u⟩
  · exact ⟨rfl, fun _ => id⟩

/-- A step is frozen in place. -/
theorem setStep {u v : Step} (h : u ∈ s.rgm.steps) (hdesc : v.desc = u.desc) (hasync : v.asyncs = u.asyncs) :
    StepsFrom s (s.setStep v) := by
  intro w hw
  obtain ⟨r, hr, rfl⟩ := List.mem_map.1 hw
  split
  · exact ⟨u, h, hdesc, fun a ha => hasync ▸ ha⟩
  · exact ⟨r, hr, rfl, fun _ => id⟩

end StepsFrom

/-- What the end of steps, copies and contexts keeps: the registers of CTX, host memory, the requests in flight and the answer
to a host requester; no copy and no operation in the air is added. -/
structure TeardownKeeps (s t : State) : Prop where
  regs : ∀ a, 0x40000 ≤ a → a < 0x80000 → t.reg a = s.reg a
  hbm : t.hbm = s.hbm
  reqs : t.fab.reqs = s.fab.reqs
  answer : t.fab.answer = s.fab.answer
  noCopy : ∀ i, tabFind s.fab.copies i = none → tabFind t.fab.copies i = none
  steps : StepsFrom s t

namespace TeardownKeeps

theorem refl (s : State) : TeardownKeeps s s := ⟨fun _ _ _ => rfl, rfl, rfl, rfl, fun _ => id, .of_steps rfl⟩

theorem trans {s t u : State} (h : TeardownKeeps s t) (k : TeardownKeeps t u) : TeardownKeeps s u where
  regs := fun a ha hb => (k.regs a ha hb).trans (h.regs a ha hb)
  hbm := k.hbm.trans h.hbm
  reqs := k.reqs.trans h.reqs
  answer := k.answer.trans h.answer
  noCopy := fun i hi => k.noCopy i (h.noCopy i hi)
  steps := h.steps.trans k.steps

theorem foldl {α : Type} (f : State → α → State) (h : ∀ s a, TeardownKeeps s (f s a)) (l : List α) (s : State) :
    TeardownKeeps s (l.foldl f s) := by
  induction l generalizing s with
  | nil => exact .refl s
  | cons a l ih => exact (h s a).trans (ih _)

theorem ite {s t u : State} (c : Prop) [Decidable c] (ht : TeardownKeeps s t) (hu : TeardownKeeps s u) :
    TeardownKeeps s (if c then t else u) := by split <;> assumption

/-- Any other part of the state may change. -/
theorem of_same {s t : State} (hr : t.regs = s.regs) (hm : t.hbm = s.hbm) (hf : t.fab = s.fab)
    (hs : t.rgm.steps = s.rgm.steps) : TeardownKeeps s t where
  regs := fun a _ _ => State.reg_congr hr a
  hbm := hm
  reqs := by rw [hf]
  answer := by rw [hf]
  noCopy := by rw [hf]; exact fun _ => id
  steps := .of_steps hs

theorem setReg (s : State) {a : Nat} (v : Word) (h : a < 0x40000 ∨ 0x80000 ≤ a) : TeardownKeeps s (s.setReg a v) where
  regs := fun b hb hb' => s.reg_setReg_other v (by omega)
  hbm := rfl
  reqs := rfl
  answer := rfl
  noCopy := fun _ => id
  steps := .of_steps rfl

theorem of_stepsFrom {s t : State} (hr : t.regs = s.regs) (hm : t.hbm = s.hbm) (hf : t.fab = s.fab) (hs : StepsFrom s t) :
    TeardownKeeps s t where
  regs := fun a _ _ => State.reg_congr hr a
  hbm := hm
  reqs := by rw [hf]
  answer := by rw [hf]
  noCopy := by rw [hf]; exact fun _ => id
  steps := hs

theorem modStep (s : State) (x : Nat) (step : Word) {f : Step → Step} (hdesc : ∀ u, (f u).desc = u.desc)
    (hasync : ∀ u, ∀ a ∈ (f u).asyncs, a ∈ u.asyncs) : TeardownKeeps s (s.modStep x step f) :=
  .of_stepsFrom rfl rfl rfl (.modStep s x step hdesc hasync)

theorem setLane (s : State) (n : Nat) (l : Lane) : TeardownKeeps s (s.setLane n l) := .of_same rfl rfl rfl rfl

theorem setCtx (s : State) (x : Nat) (c : Ctx) : TeardownKeeps s (s.setCtx x c) := .of_same rfl rfl rfl rfl

theorem setCol (s : State) (c : Col) : TeardownKeeps s { s with col := c } := .of_same rfl rfl rfl rfl

/-- Route programs, sequences and joins may change. -/
theorem setRgm (s : State) (r : Rgm) (h : r.steps = s.rgm.steps) : TeardownKeeps s { s with rgm := r } :=
  .of_same rfl rfl rfl h

/-- A step loses one operation in the air. -/
theorem dropAsync (s : State) (x : Nat) (step : Word) (a : AsyncOp) :
    TeardownKeeps s (s.modStep x step (fun t => { t with asyncs := t.asyncs.filter (· != a) })) :=
  .modStep s x step (fun _ => rfl) fun _ _ hb => (List.mem_filter.1 hb).1

end TeardownKeeps

theorem AttentionOnly.teardown {s t : State} (h : AttentionOnly s t) : TeardownKeeps s t := by
  obtain ⟨_, _, _, rfl, hr⟩ := h
  exact ⟨fun a ha _ => hr a (by omega), rfl, rfl, rfl, fun _ => id, .of_steps rfl⟩

theorem PoolsOnly.teardown {s t : State} (h : PoolsOnly s t) : TeardownKeeps s t := by
  obtain ⟨⟨_, _, _, _, _, _, rfl⟩, hr, -⟩ := h
  exact ⟨fun a ha hb => hr a (by omega), rfl, rfl, rfl, fun _ => id, .of_steps rfl⟩

theorem Sent.teardown {s t : State} (h : Sent s t) : TeardownKeeps s t := by
  obtain ⟨_, _, _, _, rfl, hr⟩ := h
  exact ⟨fun a ha hb => hr a (by unfold SendCount; omega), rfl, rfl, rfl, fun _ => id, .of_steps rfl⟩

theorem TeardownKeeps.errBit (s : State) {a : Nat} (n c : Nat) (h : a < 0x40000 ∨ 0x80000 ≤ a) :
    TeardownKeeps s (s.errBit a n c) :=
  (TeardownKeeps.setReg s _ h).trans (State.raise_only _ _).teardown

/-! ## Steps that stop (R303, R304) -/

theorem State.voidOn_teardown (s : State) (n : Nat) (f : DPkt → Bool) : TeardownKeeps s (s.voidOn n f) := by
  unfold State.voidOn
  dsimp only
  split
  · exact .refl s
  · next h =>
    have hn : n < 128 := by
      by_contra e
      simp [not_lt.1 e] at h
    exact (TeardownKeeps.setLane s _ _).trans (.setReg _ _ (by unfold aLanCntVoid; omega))

theorem State.voidAll_teardown (s : State) (f : DPkt → Bool) : TeardownKeeps s (s.voidAll f) :=
  .foldl _ (fun s n => s.voidOn_teardown n f) _ s

theorem State.headsGone_teardown (s : State) (t : Step) : TeardownKeeps s (s.headsGone t) :=
  .foldl _ (fun s _ => .foldl _ (fun s _ => .ite _ (.setLane s _ _) (.refl s)) _ s) _ s

theorem State.stopStep_teardown (s : State) (t : Step) (endc : Nat) : TeardownKeeps s (s.stopStep t endc) := by
  have hvoid := (s.voidAll_teardown fun p => p.ctx == t.desc.ctx && p.step == t.desc.step).trans
    (State.headsGone_teardown _ t)
  have hrest (u : State) (c : Car) (l : Col) (d : Shd) (x : Nat) (k : Ctx) (f : Step → Step)
      (hdesc : ∀ u, (f u).desc = u.desc) (hasync : ∀ u, ∀ a ∈ (f u).asyncs, a ∈ u.asyncs) : TeardownKeeps u
      ((({ u with car := c, col := l, shd := d } : State).setCtx x k).modStep t.desc.ctx t.desc.step f) :=
    .of_stepsFrom rfl rfl rfl (.modStep _ _ _ hdesc hasync)
  exact (hvoid.trans (hrest _ _ _ _ _ _ (Step.stopped endc) (fun _ => rfl) fun _ _ => id)).trans
    (.setReg _ _ (by unfold aRgmCntAbort; omega))

theorem State.undoStep_teardown (s : State) (t : Step) : TeardownKeeps s (s.undoStep t) := by
  have hbufs (u : State) (b : Tab (List Nat)) : TeardownKeeps u { u with rgm := { u.rgm with seqBufs := b } } :=
    .setRgm u _ rfl
  have htable (u : State) (q : Tab SeqEntry) (b : Tab (List Join)) :
      TeardownKeeps u { u with rgm := { u.rgm with seqs := q, pending := b } } := .setRgm u _ rfl
  unfold State.undoStep
  split
  · exact .refl s
  · exact (((TeardownKeeps.foldl _ (fun u (e : Nat × List Nat) => (u.freeAll_only e.2).teardown.trans (hbufs _ _)) _ s).trans
      (.setCtx _ _ _)).trans (.foldl _ (fun u _ => hbufs u _) _ _)).trans (htable _ _ _)

theorem State.dropStep_teardown (s : State) (t : Step) (endc : Nat) : TeardownKeeps s (s.dropStep t endc) :=
  ((s.undoStep_teardown t).trans (State.stopStep_teardown _ t endc)).trans (.modStep _ _ _ (fun _ => rfl) fun _ _ => id)

/-! ## The lock-step entry that freezes (R541, R543) -/

/-- The running step of a context is frozen. -/
theorem TeardownKeeps.freeze {s t : State} {x : Nat} {u : Step} (h : TeardownKeeps s t) (hrgm : t.rgm = s.rgm)
    (hu : s.running x = some u) : TeardownKeeps s (t.setStep { u with frozen := true }) := by
  have hmem : u ∈ t.rgm.steps := hrgm ▸ (State.running_some hu).1
  exact h.trans (.of_stepsFrom rfl rfl rfl (.setStep hmem rfl rfl))

theorem State.lsMark_teardown (s : State) {i : Nat} (h : i < 16) : TeardownKeeps s (s.lsMark i) := by
  have hfar : aWayLsCfg i < 0x40000 ∨ 0x80000 ≤ aWayLsCfg i := by unfold aWayLsCfg; omega
  have hcfg : TeardownKeeps s (s.setF (aWayLsCfg i) 34 33 2) := .setReg s _ hfar
  unfold State.lsMark
  dsimp only
  split
  · next u hu => exact hcfg.freeze (State.setF_rgm s _ _ _ _) hu
  · exact hcfg

theorem State.recordToFlash_teardown (s : State) (b : Bytes) (mismatch : Bool) :
    TeardownKeeps s (s.recordToFlash b mismatch) := by
  unfold State.recordToFlash State.queueFlash
  dsimp only
  split
  · next h =>
    split at h
    · cases h
    · cases h
      exact .of_same rfl rfl rfl rfl
  · exact ((TeardownKeeps.setReg s _ (by decide)).trans (.setReg _ _ (by decide))).trans (State.raise_only _ _).teardown

theorem State.lsFill_teardown (s : State) {i : Nat} (stage layer lane lo hi : Nat) (h : i < 16) :
    TeardownKeeps s (s.lsFill i stage layer lane lo hi) := by
  have hmm : aWayLsMm i < 0x40000 ∨ 0x80000 ≤ aWayLsMm i := by unfold aWayLsMm; omega
  have htok : aWayLsTok i < 0x40000 ∨ 0x80000 ≤ aWayLsTok i := by unfold aWayLsTok; omega
  have hrecord (u : State) (x : Nat) (t : Step) (ws : List Word) (c : Word) (b : Bytes) :
      TeardownKeeps u ((u.formRecord x t ws c).2.recordToFlash b true) := by
    obtain ⟨way, he⟩ := u.formRecord_only x t ws c
    have hform : TeardownKeeps u { u.bump aWayCntRec with way := way } :=
      (TeardownKeeps.setReg u _ (by decide)).trans (.of_same rfl rfl rfl rfl)
    have hlog := (u.formRecord x t ws c).2.recordToFlash_teardown b true
    rw [he] at hlog ⊢
    exact hform.trans hlog
  unfold State.lsFill
  dsimp only
  exact (((TeardownKeeps.setReg s _ hmm).trans (.setReg _ _ htok)).trans (hrecord _ _ _ _ _ _)).trans
    (.errBit _ _ _ (by decide))

theorem State.lsSend_teardown (s : State) (x : Nat) (step : Word) (layer kind stage first count : Nat) (body : Bytes) :
    TeardownKeeps s (s.lsSend x step layer kind stage first count body) := by
  have hsend (p : Packet) := (s.sendKept_sent p).teardown
  unfold State.lsSend
  exact hsend _

theorem State.lsStop_teardown (s : State) {i : Nat} (stage : Nat) (tell : Bool) (h : i < 16) :
    TeardownKeeps s (s.lsStop i stage tell) := by
  unfold State.lsStop State.lsFreeze
  split
  · exact .refl s
  · dsimp only
    have hfill := (s.lsMark_teardown h).trans
      ((s.lsMark i).lsFill_teardown stage (s.layerNow (s.f (aWayLsCfg i) 11 0)) 0xFF 0 0x3FFFFF h)
    split
    · exact hfill.trans (State.lsSend_teardown _ _ _ _ _ _ _ _ _)
    · exact hfill

theorem State.lsAbort_teardown (s : State) (x : Nat) : TeardownKeeps s (s.lsAbort x) := by
  unfold State.lsAbort
  split
  · next i hi => exact s.lsStop_teardown 7 true (List.mem_range.1 (List.mem_of_find?_eq_some hi))
  · exact .refl s

/-! ## Copies and groups that end (R390, R404, R453) -/

theorem tabFind_tabErase_none {α : Type} {t : Tab α} {i : Nat} (j : Nat) (h : tabFind t i = none) :
    tabFind (tabErase t j) i = none := by
  induction t with
  | nil => rfl
  | cons e t ih =>
    obtain ⟨k, x⟩ := e
    simp only [tabFind] at h
    split at h
    · cases h
    · next hk =>
      unfold tabErase
      split
      · exact ih h
      · rw [tabFind, if_neg hk]
        exact ih h

theorem State.eraseCopy_teardown (s : State) (i : Nat) :
    TeardownKeeps s { s with fab := { s.fab with copies := tabErase s.fab.copies i } } where
  regs := fun _ _ _ => rfl
  hbm := rfl
  reqs := rfl
  answer := rfl
  noCopy := fun _ => tabFind_tabErase_none i
  steps := .of_steps rfl

theorem State.noteCopy_teardown (s : State) (x outcome : Nat) : TeardownKeeps s (s.noteCopy x outcome) :=
  ⟨fun _ _ _ => rfl, rfl, rfl, rfl, fun _ => id, .of_steps rfl⟩

theorem State.endCopy_teardown (s : State) (i outcome : Nat) : TeardownKeeps s (s.endCopy i outcome) := by
  unfold State.endCopy
  split
  · exact .refl s
  · next c _ =>
    dsimp only
    have hgone := (s.freeAll_only c.staging).teardown.trans (State.eraseCopy_teardown _ i)
    split
    · exact (hgone.trans (.dropAsync _ _ _ _)).trans (State.noteCopy_teardown _ _ _)
    · exact hgone.trans (State.noteCopy_teardown _ _ _)

theorem State.clearFab_teardown (s : State) (x : Nat) : TeardownKeeps s (s.clearFab x) :=
  (TeardownKeeps.foldl _ (fun u (e : Nat × Copy) => u.endCopy_teardown e.1 3) _ s).trans
    ⟨fun _ _ _ => rfl, rfl, rfl, rfl, fun _ => id, .of_steps rfl⟩

theorem State.dropGroups_teardown (s : State) (x : Nat) : TeardownKeeps s (s.dropGroups x) := by
  have hqueue (u : State) (i : Nat) (l : List ColReq) : TeardownKeeps u (l.foldl (fun s q =>
      q.step.elim s (fun st => s.modStep x st (fun t => { t with
        asyncs := t.asyncs.filter (· != AsyncOp.coll i q.seq) }))) u) := by
    refine .foldl _ (fun v q => ?_) l u
    cases q.step with
    | none => exact .refl v
    | some st => exact .dropAsync v x st _
  exact ((TeardownKeeps.foldl _ (fun u (e : Nat × ColGroup) => hqueue u e.1 e.2.queue) _ s).trans
    (.foldl _ (fun u (e : Nat × ColGroup) => (u.freeAll_only e.2.bufs).teardown) _ _)).trans (.setCol _ _)

/-! ## The teardown (R517, R518) -/

/-- What CTX_CMD reads of a context that is torn down: state FAULTED, and the cause. A FREE or FAULTED one stays. -/
def State.faultMarked (s : State) (x cause : Nat) : State :=
  if s.ctxState x == 0 || s.ctxState x == 7 then s else (s.setF (aCtxCmd x) 2 0 7).setF (aCtxCmd x) 15 8 cause

/-- The steps of a context that is torn down stop, or are dropped, and its lock-step entry freezes. -/
def State.stopCtx (s : State) (x : Nat) : State :=
  let run := s.rgm.steps.filter (fun t => t.desc.ctx == x && t.abort == 0)
  let s := run.reverse.foldl (fun s t =>
    if t.phase == .running || t.phase == .draining then s.stopStep t 0x34 else s.dropStep t 0x23) s
  if run.isEmpty then s else s.lsAbort x

/-- Its slots, packets, groups, sequences, ring traffic and copies go. -/
def State.clearCtx (s : State) (x : Nat) : State :=
  let s := s.abandon (fun p => p.ctx == x)
  let s := s.voidAll (fun p => p.ctx == x && !p.remote)
  let s := (s.colAbort (fun q => q.ctx == x)).dropGroups x
  ((s.clearSeqs x).clearRing x).clearFab x

/-- Its tables and buffers go, and the fabric manager is told. -/
def State.unloadCtx (s : State) (x : Nat) : State :=
  let c := s.ctx x
  let s := s.setCtx x { c with
    place := none, placeBufs := [], placeRaw := [], weightBufs := [], shadows := [], routers := [], parkAt := none
    parkCut := false, saved := none, leaving := [] }
  let s := s.releaseCtx x
  s.fmSend fmContextDown s.chip 0 x []

theorem State.stopCtx_teardown (s : State) (x : Nat) : TeardownKeeps s (s.stopCtx x) := by
  unfold State.stopCtx
  exact (TeardownKeeps.foldl _ (fun u t => .ite _ (u.stopStep_teardown t 0x34) (u.dropStep_teardown t 0x23)) _ s).trans
    (.ite _ (.refl _) (State.lsAbort_teardown _ x))

theorem State.clearCtx_teardown (s : State) (x : Nat) : TeardownKeeps s (s.clearCtx x) := by
  have hslots : TeardownKeeps s (s.abandon (fun p => p.ctx == x)) := .of_same rfl rfl rfl rfl
  have hring (u : State) : TeardownKeeps u ((u.clearSeqs x).clearRing x) := .of_same rfl rfl rfl rfl
  exact ((((hslots.trans (State.voidAll_teardown _ _)).trans (.setCol _ _)).trans (State.dropGroups_teardown _ x)).trans
    (hring _)).trans (State.clearFab_teardown _ x)

theorem State.unloadCtx_teardown (s : State) (x : Nat) : TeardownKeeps s (s.unloadCtx x) :=
  ((TeardownKeeps.setCtx s x _).trans (State.releaseCtx_only _ x).teardown).trans (State.fmSend_sent _ _ _ _ _ _).teardown

theorem State.faultCtx_teardown (s : State) (x cause : Nat) : TeardownKeeps (s.faultMarked x cause) (s.faultCtx x cause) := by
  by_cases h : (s.ctxState x == 0 || s.ctxState x == 7) = true
  · rw [show s.faultMarked x cause = s from if_pos h, show s.faultCtx x cause = s from if_pos h]
    exact .refl s
  · rw [show s.faultMarked x cause = (s.setF (aCtxCmd x) 2 0 7).setF (aCtxCmd x) 15 8 cause from if_neg h,
      show s.faultCtx x cause = (((((s.setF (aCtxCmd x) 2 0 7).setF (aCtxCmd x) 15 8 cause).raise cCtxFault).stopCtx x).clearCtx
        x).unloadCtx x from if_neg h]
    exact (((State.raise_only _ cCtxFault).teardown.trans (State.stopCtx_teardown _ x)).trans (State.clearCtx_teardown _ x)).trans
      (State.unloadCtx_teardown _ x)

/-- A context that is torn down reads FAULTED with the cause. -/
theorem State.faultCtx_faults (s : State) {x cause : Nat} (hx : x < 4096) (hstate : s.ctxState x ∉ [0, 7]) :
    (s.faultCtx x cause).ctxState x = 7 ∧ (s.faultCtx x cause).f (aCtxCmd x) 15 8 = cause % 256 := by
  have hlive : ¬(s.ctxState x == 0 || s.ctxState x == 7) = true := by simpa using hstate
  have hmark : s.faultMarked x cause = (s.setF (aCtxCmd x) 2 0 7).setF (aCtxCmd x) 15 8 cause := if_neg hlive
  have hkeep := (s.faultCtx_teardown x cause).regs (aCtxCmd x) (by unfold aCtxCmd; omega) (by unfold aCtxCmd; omega)
  unfold State.ctxState
  rw [State.f_congr hkeep, State.f_congr hkeep, hmark]
  exact ⟨(State.f_setF_apart _ _ _ (by decide) (by decide) (by decide) (by decide)).trans
    (s.f_setF_same _ 2 0 7 (by decide) (by decide)), State.f_setF_same _ _ 15 8 cause (by decide) (by decide)⟩

/-- Beside the registers of CTX, a teardown keeps what the end of a step and of a copy keeps. -/
theorem State.faultMarked_fields (s : State) (x cause : Nat) : (s.faultMarked x cause).fab = s.fab ∧
    (s.faultMarked x cause).hbm = s.hbm ∧ (s.faultMarked x cause).rgm = s.rgm := by
  unfold State.faultMarked
  split
  · exact ⟨rfl, rfl, rfl⟩
  · exact ⟨rfl, rfl, rfl⟩

end Sys2Proof.Machine
end

section
/-! Replies to requests, requests that get none, and the end of copies (R384, R385, R388 to R391, R403 to R405, R443, R444). -/

namespace Sys2Proof.Machine

/-! ## Replies that arrive (R369, R405) -/

/-- A reply has been counted, and its attention level where it has one. -/
def State.replyHeard (s : State) (port : Nat) (pkt : Packet) : State :=
  if pStat pkt / 4 == 0 then s.countRx port pkt else (s.countRx port pkt).bump (aFabCntRatn port)

/-- A tag is no longer in use. -/
def State.untagged (s : State) (tag : Nat) : State := { s with fab := { s.fab with reqs := tabErase s.fab.reqs tag } }

/-- A step that a retried request belongs to takes note of it (R307, R385). -/
def State.copyRetried (s : State) (r : Req) (c : Copy) : State :=
  if r.retried then c.step.elim s (fun st => s.noteRetry c.ctx st 1) else s

theorem State.copyRetried_same (s : State) (r : Req) (c : Copy) : (s.copyRetried r c).fab = s.fab ∧
    (s.copyRetried r c).regs = s.regs ∧ SameMemory s (s.copyRetried r c) := by
  unfold State.copyRetried
  split
  · cases c.step with
    | none => exact ⟨rfl, rfl, .refl s⟩
    | some st => exact ⟨rfl, rfl, s.modStep_sameMemory _ _ _⟩
  · exact ⟨rfl, rfl, .refl s⟩

/-- An exact sum out of range sets its error bit (R382). -/
def State.badSum (s : State) (r : Req) (pkt : Packet) : State :=
  if (pOp r.pkt == 0x0F || pOp r.pkt == 0x10) && reqOutcome r pkt == 2 then s.setBit aMsfErr 4 else s

theorem State.badSum_same (s : State) (r : Req) (pkt : Packet) : (s.badSum r pkt).fab = s.fab ∧
    SameMemory s (s.badSum r pkt) := by
  unfold State.badSum
  split
  · exact ⟨s.setBit_fab _ _, rfl, rfl, rfl, rfl, rfl⟩
  · exact ⟨rfl, .refl s⟩

/-- A copy takes note of what a reply settled. -/
def State.settled (s : State) (cid : Nat) (r : Req) (c d : Copy) : State :=
  let w := s.copyRetried r c
  { w with fab := { w.fab with copies := tabPut w.fab.copies cid d } }

/-- The host's requester is answered, and the tag is free. -/
def Shown (tag outcome : Nat) (data : Bytes) (poison : Bool) (u : State) : Prop :=
  u.fab.answer = (data, outcome, poison) ∧ tabFind u.fab.reqs tag = none

/-- The state u without the tag, in which the host is answered, goes on with what waits; where nothing waits, it stays. -/
theorem State.answerHost_shows {s u : State} {tag : Nat} (hfab : u.fab = { s.fab with reqs := tabErase s.fab.reqs tag })
    (hmem : SameMemory s u) (data : Bytes) (outcome : Nat) (poison : Bool) :
    let t := (u.answerHost data outcome poison).pump
    SameMemory s t ∧ (∃ m : State, t = m.pump ∧ Shown tag outcome data poison m) ∧
      (s.fab.held = [] ∧ s.fab.copies = [] → Shown tag outcome data poison t) := by
  intro t
  have hshown : Shown tag outcome data poison (u.answerHost data outcome poison) := by
    refine ⟨rfl, ?_⟩
    rw [show (u.answerHost data outcome poison).fab.reqs = u.fab.reqs from rfl, hfab]
    exact tabFind_tabErase_same _ _
  refine ⟨hmem.trans (State.pump_pumped (u.answerHost data outcome poison)).sameMemory, ⟨_, rfl, hshown⟩, ?_⟩
  rintro ⟨hheld, hcopies⟩
  have hcalm : t = u.answerHost data outcome poison :=
    State.pump_calm ((congrArg Fab.held hfab).trans hheld) ((congrArg Fab.copies hfab).trans hcopies)
  rwa [hcalm]

/-- Lines that a pull brings are written at their place, and counted where the copy counts them (R388, R389). -/
theorem State.pullLines_effect (s : State) (c : Copy) (r : Req) (pkt : Packet) (first : Nat) :
    (s.pullLines c r pkt first).hbm =
        cellWrite 0 s.hbm (c.dst + 128 * (first + (fld (pAddr pkt) 47 7 - fld (pAddr r.pkt) 47 7))) pkt.data ∧
      (s.pullLines c r pkt first).stk = s.stk ∧ (s.pullLines c r pkt first).reg (aCtr (c.rctr % 65536)) =
        (if c.rinc then s.reg (aCtr (c.rctr % 65536)) + BitVec.ofNat 64 (pLen pkt) else s.reg (aCtr (c.rctr % 65536))) := by
  have hcharge (u : State) (n : Nat) : Sent u (u.chargeHbm c.ctx n) := .accAdd u _ (by unfold SendCount aAccHbm; omega)
  unfold State.pullLines
  dsimp only
  generalize c.dst + 128 * (first + (fld (pAddr pkt) 47 7 - fld (pAddr r.pkt) 47 7)) = a
  have hsent := hcharge (s.hbmWriteP a pkt.data (pPoison pkt)) pkt.data.length
  obtain ⟨hhbm, -, hstk, -⟩ := hsent.sameMemory
  have hctr := hsent.reg (aCtr_not_sendCount (c.rctr % 65536))
  split
  · exact ⟨hhbm, hstk, (State.reg_addCtr_same _ _ _).trans (by rw [hctr]; rfl)⟩
  · exact ⟨hhbm, hstk, hctr⟩

section Replies

variable {s : State} {port tag : Nat} {pkt : Packet} {r : Req} (hreq : tabFind s.fab.reqs tag = some r)
  (hhear : s.hears port pkt = true) (htag : pTag pkt = tag) (hlive : r.timedOut = false) (hchip : pDst r.pkt = pSrc pkt)

include hhear in
/-- Counting a reply changes no memory, no list of the fabric and no arrival counter. -/
theorem State.replyHeard_same : (s.replyHeard port pkt).fab = s.fab ∧ SameMemory s (s.replyHeard port pkt) ∧
    ∀ a, 0x180000 ≤ a → (s.replyHeard port pkt).reg a = s.reg a := by
  have hport := State.hears_port hhear
  have hfab := s.countRx_fab port pkt
  have hmem := s.countRx_sameMemory pkt hport
  have hreg (a : Nat) (ha : 0x180000 ≤ a) : (s.countRx port pkt).reg a = s.reg a :=
    s.countRx_reg_of_lt pkt (by omega) (by unfold aFabCntRxpkt; omega)
  unfold State.replyHeard
  split
  · exact ⟨hfab, hmem, hreg⟩
  · exact ⟨(State.bump_fab _ _).trans hfab, hmem.trans ⟨rfl, rfl, rfl, rfl, rfl⟩, fun a ha =>
      (State.reg_bump_other _ (by unfold aFabCntRatn; omega)).trans (hreg a ha)⟩

include hreq hhear htag hlive hchip

/-- A DATA reply to a request in flight. -/
theorem State.dataReply_runs (hop : pOp pkt = 0x20) : exec (.dataReply port pkt) s = .next (
    let u := s.replyHeard port pkt
    let drop := u.untagged tag
    match r.copy with
    | none => (drop.answerHost pkt.data (reqOutcome r pkt) (pPoison pkt)).pump
    | some (cid, first) =>
      match tabFind u.fab.copies cid with
      | none => drop.pump
      | some c =>
        if pStat pkt % 4 == 2 then
          ({ drop with fab := { drop.fab with copies := tabPut drop.fab.copies cid (c.settle r.lines 2 false) } }).pump
        else
          let i := fld (pAddr pkt) 47 7 - fld (pAddr r.pkt) 47 7
          let got := (List.range (pLen pkt)).foldl (fun g k => setInsert g (i + k)) r.got
          let v := (u.pullLines c r pkt first).copyRetried r c
          ({ v with fab := { v.fab with
            reqs := if decide (r.lines ≤ got.length) then tabErase v.fab.reqs tag
              else tabPut v.fab.reqs tag { r with got := got }
            copies := tabPut v.fab.copies cid
              (c.settle (got.length - r.got.length) (reqOutcome r pkt) (pPoison pkt)) } }).pump) := by
  obtain ⟨hfab, -⟩ := State.replyHeard_same hhear
  rw [show exec (.dataReply port pkt) s = execDataReply port pkt s from rfl, execDataReply,
    State.receive_heard hhear (by rw [hop]; rfl)]
  have hreq' : tabFind (s.replyHeard port pkt).fab.reqs (pTag pkt) = some r := by rw [hfab, htag, hreq]
  unfold State.replyHeard at hreq' ⊢
  dsimp only at hreq' ⊢
  rw [hreq']
  simp only [hlive, hchip, bne_self_eq_false, Bool.or_self, Bool.false_eq_true, if_false, htag] <;> rfl

/-- An ACK to a request in flight. -/
theorem State.ackReply_runs (hop : pOp pkt = 0x21) : exec (.ackReply port pkt) s = .next (
    let u := s.replyHeard port pkt
    let drop := u.untagged tag
    let v := drop.badSum r pkt
    match r.copy with
    | none => (v.answerHost [] (reqOutcome r pkt) false).pump
    | some (cid, _) =>
      match tabFind v.fab.copies cid with
      | none => v.pump
      | some c =>
        (v.settled cid r c (c.settle r.lines (reqOutcome r pkt) (pPoison r.pkt && reqOutcome r pkt == 3))).pump) := by
  obtain ⟨hfab, -⟩ := State.replyHeard_same hhear
  rw [show exec (.ackReply port pkt) s = execAckReply port pkt s from rfl, execAckReply,
    State.receive_heard hhear (by rw [hop]; rfl)]
  have hreq' : tabFind (s.replyHeard port pkt).fab.reqs (pTag pkt) = some r := by rw [hfab, htag, hreq]
  unfold State.replyHeard at hreq' ⊢
  dsimp only at hreq' ⊢
  rw [hreq']
  simp only [hlive, hchip, bne_self_eq_false, Bool.or_self, Bool.false_eq_true, if_false, htag] <;> rfl

/-- A reply to a request of the host answers it. -/
theorem State.hostReply_answers (hcopy : r.copy = none) :
    let answers := fun (c : Instr) (data : Bytes) (poison : Bool) => Completes c s (fun t => SameMemory s t ∧
      (∃ m : State, t = m.pump ∧ Shown tag (reqOutcome r pkt) data poison m) ∧
      (s.fab.held = [] ∧ s.fab.copies = [] → Shown tag (reqOutcome r pkt) data poison t))
    (pOp pkt = 0x20 → answers (.dataReply port pkt) pkt.data (pPoison pkt)) ∧
      (pOp pkt = 0x21 → answers (.ackReply port pkt) [] false) := by
  intro answers
  obtain ⟨hfab, hmem, -⟩ := State.replyHeard_same hhear
  have hrest : ((s.replyHeard port pkt).untagged tag).fab = { s.fab with reqs := tabErase s.fab.reqs tag } := by
    rw [← hfab]
    rfl
  refine ⟨fun hop => ?_, fun hop => ?_⟩
  · have hrun := State.dataReply_runs hreq hhear htag hlive hchip hop
    rw [hcopy] at hrun
    exact ⟨_, hrun, State.answerHost_shows hrest hmem _ _ _⟩
  · obtain ⟨hfab', hmem'⟩ := State.badSum_same ((s.replyHeard port pkt).untagged tag) r pkt
    have hrun := State.ackReply_runs hreq hhear htag hlive hchip hop
    rw [hcopy] at hrun
    exact ⟨_, hrun, State.answerHost_shows (hfab'.trans hrest) (SameMemory.trans hmem hmem') _ _ _⟩

/-- A DATA reply to a pull writes its lines and raises the copy's counter by them (R388, R389). -/
theorem State.dataReply_pulls {cid first : Nat} {c : Copy} (hcopy : r.copy = some (cid, first))
    (hin : tabFind s.fab.copies cid = some c) (hop : pOp pkt = 0x20) (hstat : pStat pkt % 4 ≠ 2) :
    let a := c.dst + 128 * (first + (fld (pAddr pkt) 47 7 - fld (pAddr r.pkt) 47 7))
    let k := aCtr (c.rctr % 65536)
    Completes (.dataReply port pkt) s (fun t => HbmHolds t a pkt.data ∧ SameHbmBut a pkt.data.length s t ∧ t.stk = s.stk ∧
      t.reg k = (if c.rinc then s.reg k + BitVec.ofNat 64 (pLen pkt) else s.reg k)) := by
  intro a k
  obtain ⟨hfab, ⟨hhbm, -, hstk, -⟩, hreg⟩ := State.replyHeard_same hhear
  obtain ⟨f, hrun⟩ : ∃ f, exec (.dataReply port pkt) s =
      .next ({ ((s.replyHeard port pkt).pullLines c r pkt first).copyRetried r c with fab := f }).pump := by
    have hrun := State.dataReply_runs hreq hhear htag hlive hchip hop
    have hin' : tabFind (s.replyHeard port pkt).fab.copies cid = some c := by rw [hfab, hin]
    simp only [hcopy, hin', beq_iff_eq, hstat, if_false] at hrun
    exact ⟨_, hrun⟩
  obtain ⟨hwrite, hwriteStk, hcount⟩ := (s.replyHeard port pkt).pullLines_effect c r pkt first
  obtain ⟨-, hr, hretried, -, hretriedStk, -⟩ := ((s.replyHeard port pkt).pullLines c r pkt first).copyRetried_same r c
  generalize ((s.replyHeard port pkt).pullLines c r pkt first).copyRetried r c = v at hrun hr hretried hretriedStk
  have hpump := State.pump_pumped { v with fab := f }
  obtain ⟨hsent, -, hsentStk, -⟩ := hpump.sameMemory
  obtain ⟨hholds, hother⟩ := hbm_of_stored (s := s) (hsent.trans (hretried.trans (hwrite.trans (by rw [hhbm]))))
  refine ⟨_, hrun, hholds, hother, hsentStk.trans (hretriedStk.trans (hwriteStk.trans hstk)), ?_⟩
  have hctr : v.reg k = (if c.rinc then s.reg k + BitVec.ofNat 64 (pLen pkt) else s.reg k) :=
    (State.reg_congr hr k).trans (hcount.trans (by rw [hreg k (by unfold k aCtr; omega)]))
  exact (hpump.reg (aCtr_not_sendCount _)).trans hctr

/-- An ACK to a copy's request settles the lines it answers. -/
theorem State.ackReply_settles {cid first : Nat} {c : Copy} (hcopy : r.copy = some (cid, first))
    (hin : tabFind s.fab.copies cid = some c) (hop : pOp pkt = 0x21) :
    Completes (.ackReply port pkt) s (fun t => SameMemory s t ∧ ∃ m : State, t = m.pump ∧
      tabFind m.fab.reqs tag = none ∧ tabFind m.fab.copies cid =
        some (c.settle r.lines (reqOutcome r pkt) (pPoison r.pkt && reqOutcome r pkt == 3))) := by
  obtain ⟨hfab, hmem, -⟩ := State.replyHeard_same hhear
  obtain ⟨hfab', hmem'⟩ := State.badSum_same ((s.replyHeard port pkt).untagged tag) r pkt
  have hrun := State.ackReply_runs hreq hhear htag hlive hchip hop
  simp only [hcopy] at hrun
  have hv : (((s.replyHeard port pkt).untagged tag).badSum r pkt).fab = { s.fab with reqs := tabErase s.fab.reqs tag } := by
    rw [hfab', ← hfab]
    rfl
  have hmemv : SameMemory s (((s.replyHeard port pkt).untagged tag).badSum r pkt) := SameMemory.trans hmem hmem'
  generalize ((s.replyHeard port pkt).untagged tag).badSum r pkt = v at hrun hv hmemv
  have hin' : tabFind v.fab.copies cid = some c := by rw [hv, hin]
  rw [hin'] at hrun
  obtain ⟨hfabw, -, hmemw⟩ := v.copyRetried_same r c
  have hreqs : tabFind (v.copyRetried r c).fab.reqs tag = none := by
    rw [hfabw, hv]
    exact tabFind_tabErase_same _ _
  refine ⟨_, hrun, ?_, _, rfl, hreqs, tabFind_tabPut_same _ _ _⟩
  exact SameMemory.trans (hmemv.trans hmemw) (State.pump_pumped (v.settled cid r c _)).sameMemory

end Replies

/-! ## Copies that end (R390, R404) -/

theorem State.endCopy_gone (s : State) (cid outcome : Nat) : tabFind (s.endCopy cid outcome).fab.copies cid = none := by
  unfold State.endCopy
  split
  · next h => exact h
  · dsimp only
    split <;> exact tabFind_tabErase_same _ _

/-! ## Requests without a reply (R403 to R405) -/

section Timeouts

variable {s : State} {tag : Nat} {r : Req} (hreq : tabFind s.fab.reqs tag = some r)

/-- The data a timed-out request is answered with (R403). -/
def State.deadData (s : State) (op : Nat) : Bytes :=
  if op == 0x01 then s.fillBytes 128
  else if op == 0x0A || op == 0x0C then s.fillBytes 4
  else if op == 0x0B || op == 0x0D || op == 0x0E then s.fillBytes 8 else []

/-- The requester of a dead target is answered, or its copy ends, and its tag is marked (R403, R405). -/
def State.timedOut (s : State) (tag : Nat) (r : Req) : State :=
  let u := match r.copy with
    | none => s.answerHost (s.deadData (pOp r.pkt)) 3 false
    | some (cid, _) => s.endCopy cid 3
  { u with fab := { u.fab with reqs := tabPut u.fab.reqs tag { r with timedOut := true } } }

/-- The event is counted and told (R404, R406). -/
def State.deadTold (s : State) (r : Req) : State :=
  let s := ((s.bump aMsfCntDead).setBit aMsfErr 2).raise cMsfDead
  if s.flag aMsfCtrl 7 then s.fmSend fmTargetDead (pDst r.pkt) 0 r.ctx [] else s

theorem State.deadTold_teardown (s : State) (r : Req) : TeardownKeeps s (s.deadTold r) := by
  have hraised : TeardownKeeps s (((s.bump aMsfCntDead).setBit aMsfErr 2).raise cMsfDead) :=
    (TeardownKeeps.setReg s _ (by decide)).trans (.errBit _ _ _ (by decide))
  exact hraised.trans (.ite _ (State.fmSend_sent _ _ _ _ _ _).teardown (.refl _))

/-- A teardown leaves host memory, the requests, and the answer; no copy is added. -/
theorem State.faultCtx_inFlight (s : State) (x cause : Nat) :
    (s.faultCtx x cause).hbm = s.hbm ∧ (s.faultCtx x cause).fab.reqs = s.fab.reqs ∧
      (s.faultCtx x cause).fab.answer = s.fab.answer ∧
      ∀ i, tabFind s.fab.copies i = none → tabFind (s.faultCtx x cause).fab.copies i = none := by
  have hfault := s.faultCtx_teardown x cause
  obtain ⟨hfab, hhbm, -⟩ := s.faultMarked_fields x cause
  exact ⟨hfault.hbm.trans hhbm, hfault.reqs.trans (by rw [hfab]), hfault.answer.trans (by rw [hfab]), fun i hi =>
    hfault.noCopy i (by rw [hfab]; exact hi)⟩

include hreq

theorem State.requestTimeout_completes (hlive : r.timedOut = false) (hlate : r.issued + s.tdead ≤ s.tclk) :
    Completes (.requestTimeout tag) s (fun t =>
      (r.copy = none → (pOp r.pkt = 0x01 → t.fab.answer = (s.fillBytes 128, 3, false)) ∧ t.fab.answer.2 = (3, false)) ∧
      (∀ cid first, r.copy = some (cid, first) → tabFind t.fab.copies cid = none) ∧
      tabFind t.fab.reqs tag = some { r with timedOut := true } ∧ t.hbm = s.hbm) := by
  have hnow : decide (s.tclk < r.issued + s.tdead) = false := decide_eq_false (Nat.not_lt.2 hlate)
  have hrun : exec (.requestTimeout tag) s = .next (((s.timedOut tag r).deadTold r).faultCtx r.ctx 2) := by
    rw [show exec (.requestTimeout tag) s = execRequestTimeout tag s from rfl, execRequestTimeout, hreq]
    simp only [hlive, hnow, Bool.or_self, Bool.false_eq_true, if_false]
    rfl
  have htold := (s.timedOut tag r).deadTold_teardown r
  obtain ⟨hhbm, hreqs, hanswer, hcopies⟩ := ((s.timedOut tag r).deadTold r).faultCtx_inFlight r.ctx 2
  refine ⟨_, hrun, fun hcopy => ?_, fun cid first hcopy => hcopies cid (htold.noCopy cid ?_), ?_,
    (hhbm.trans htold.hbm).trans ?_⟩
  · have hshown : (s.timedOut tag r).fab.answer = (s.deadData (pOp r.pkt), 3, false) := by
      unfold State.timedOut
      rw [hcopy]
      rfl
    rw [hanswer, htold.answer, hshown]
    exact ⟨fun hop => by rw [State.deadData, hop]; rfl, rfl⟩
  · unfold State.timedOut
    rw [hcopy]
    exact s.endCopy_gone cid 3
  · rw [hreqs, htold.reqs]
    exact tabFind_tabPut_same _ _ _
  · unfold State.timedOut
    cases r.copy with
    | none => rfl
    | some e => exact (s.endCopy_teardown e.1 3).hbm

/-- A timed-out tag is freed once four times T_dead have passed. -/
theorem State.tagFreeExpire_completes (hdead : r.timedOut = true) (hlate : r.issued + 4 * s.tdead ≤ s.tclk) :
    Completes (.tagFreeExpire tag) s (fun t => SameMemory s t ∧
      (∃ m : State, t = m.pump ∧ tabFind m.fab.reqs tag = none ∧ m.regs = s.regs) ∧
      (s.fab.held = [] ∧ s.fab.copies = [] → tabFind t.fab.reqs tag = none ∧ SameRegsBut [] s t)) := by
  have hrun : exec (.tagFreeExpire tag) s = .next (s.untagged tag).pump := by
    rw [show exec (.tagFreeExpire tag) s = execTagFreeExpire tag s from rfl, execTagFreeExpire, hreq]
    simp only [hdead, hlate, decide_true, Bool.and_self, if_true]
    rfl
  have hfree : tabFind (s.untagged tag).fab.reqs tag = none := tabFind_tabErase_same _ _
  refine ⟨_, hrun, (State.pump_pumped (s.untagged tag)).sameMemory, ⟨_, rfl, hfree, rfl⟩, ?_⟩
  rintro ⟨hheld, hcopies⟩
  rw [State.pump_calm (s := s.untagged tag) hheld hcopies]
  exact ⟨hfree, fun _ _ => rfl⟩

end Timeouts

/-- Settles O31: a reply by the request it answers, a request without one by its age. -/
theorem repliesFreeTheirTag : Obligations.RepliesFreeTheirTag := by
  unfold Obligations.RepliesFreeTheirTag
  intro s tag r hreq calm
  refine ⟨?_, ?_, ?_⟩
  · intro port pkt hhear htag hlive hchip answers
    refine ⟨State.hostReply_answers hreq hhear htag hlive hchip, fun cid first c hcopy hin => ⟨?_, ?_⟩⟩
    · exact State.dataReply_pulls hreq hhear htag hlive hchip hcopy hin
    · exact State.ackReply_settles hreq hhear htag hlive hchip hcopy hin
  · exact State.requestTimeout_completes hreq
  · exact State.tagFreeExpire_completes hreq

end Sys2Proof.Machine
end

section
/-! COPY_END (R390, R391, R443, R444): the copy that ends, what counts it, and the weight check that fails. -/

namespace Sys2Proof.Machine

/-! ## The copy is gone -/

/-- No copy bears the number, host memory stays, and the step that issued the copy no longer holds it. -/
def CopyGone (cid : Nat) (c : Copy) (s t : State) : Prop :=
  tabFind t.fab.copies cid = none ∧ t.hbm = s.hbm ∧
    ∀ st, c.step = some st → ∀ u ∈ t.rgm.steps, u.is c.ctx st = true → AsyncOp.copy cid ∉ u.asyncs

theorem CopyGone.of_kept {cid : Nat} {c : Copy} {s u t : State} (h : CopyGone cid c s u) (hhbm : t.hbm = u.hbm)
    (hcopies : ∀ i, tabFind u.fab.copies i = none → tabFind t.fab.copies i = none) (hsteps : StepsFrom u t) :
    CopyGone cid c s t := by
  obtain ⟨hnone, hsame, hlist⟩ := h
  refine ⟨hcopies cid hnone, hhbm.trans hsame, fun st hst w hw his hin => ?_⟩
  obtain ⟨v, hv, hdesc, hasync⟩ := hsteps w hw
  obtain ⟨hctx, hstep⟩ := Step.is_iff.1 his
  exact hlist st hst v hv (Step.is_iff.2 ⟨hdesc ▸ hctx, hdesc ▸ hstep⟩) (hasync _ hin)

theorem CopyGone.teardown {cid : Nat} {c : Copy} {s u t : State} (h : CopyGone cid c s u) (hk : TeardownKeeps u t) :
    CopyGone cid c s t := h.of_kept hk.hbm hk.noCopy hk.steps

theorem CopyGone.pump {cid : Nat} {c : Copy} {s u : State} (h : CopyGone cid c s u) : CopyGone cid c s u.pump := by
  have hpump := u.pump_pumped
  exact h.of_kept hpump.sameMemory.1 (fun _ => hpump.noCopy) (.of_steps (congrArg Rgm.steps hpump.rgm))

theorem CopyGone.faultCtx {cid : Nat} {c : Copy} {s u : State} (h : CopyGone cid c s u) (x cause : Nat) :
    CopyGone cid c s (u.faultCtx x cause) := by
  obtain ⟨hfab, hhbm, hrgm⟩ := u.faultMarked_fields x cause
  have hmark : CopyGone cid c s (u.faultMarked x cause) :=
    h.of_kept hhbm (by rw [hfab]; exact fun _ => id) (.of_steps (congrArg Rgm.steps hrgm))
  exact hmark.teardown (u.faultCtx_teardown x cause)

section Ends

variable {s : State} {cid : Nat} {c : Copy} (hin : tabFind s.fab.copies cid = some c)

/-- The step that issued a copy, where one did, loses it. -/
def State.copyLeft (s : State) (cid : Nat) (c : Copy) : State :=
  match c.step with
  | some st => s.modStep c.ctx st (fun t => { t with asyncs := t.asyncs.filter (· != AsyncOp.copy cid) })
  | none => s

theorem State.copyLeft_same (s : State) (cid : Nat) (c : Copy) : (s.copyLeft cid c).fab = s.fab ∧
    (s.copyLeft cid c).regs = s.regs ∧ SameMemory s (s.copyLeft cid c) := by
  unfold State.copyLeft
  split
  · exact ⟨rfl, rfl, s.modStep_sameMemory _ _ _⟩
  · exact ⟨rfl, rfl, .refl s⟩

theorem State.copyLeft_asyncs (s : State) (cid : Nat) (c : Copy) {st : Word} (hst : c.step = some st) :
    ∀ u ∈ (s.copyLeft cid c).rgm.steps, u.is c.ctx st = true → AsyncOp.copy cid ∉ u.asyncs := by
  unfold State.copyLeft
  rw [hst]
  intro w hw his hasync
  obtain ⟨u, -, rfl⟩ := List.mem_map.1 hw
  by_cases h : u.is c.ctx st = true
  · rw [if_pos h] at hasync
    simpa using (List.mem_filter.1 hasync).2
  · rw [if_neg h] at his
    exact h his

include hin

theorem State.endCopy_eq (outcome : Nat) : s.endCopy cid outcome =
    (({ s.freeAll c.staging with fab := { (s.freeAll c.staging).fab with
      copies := tabErase (s.freeAll c.staging).fab.copies cid } } : State).copyLeft cid c).noteCopy c.ctx outcome := by
  unfold State.endCopy
  rw [hin]
  rfl

/-- What the end of a copy shows, and what it leaves (R339, R390). -/
theorem State.endCopy_ends (outcome : Nat) : CopyGone cid c s (s.endCopy cid outcome) ∧
    (s.endCopy cid outcome).fab.copyEnd = (c.ctx, outcome) ∧
    ∀ a, 0x130000 ≤ a → (s.endCopy cid outcome).reg a = s.reg a := by
  have heq := State.endCopy_eq hin outcome
  obtain ⟨-, hpool, -⟩ := s.freeAll_only c.staging
  have hregs : ∀ a, 0x130000 ≤ a → (s.endCopy cid outcome).reg a = s.reg a := by
    intro a ha
    obtain ⟨-, hr, -⟩ := State.copyLeft_same { s.freeAll c.staging with fab := { (s.freeAll c.staging).fab with
      copies := tabErase (s.freeAll c.staging).fab.copies cid } } cid c
    rw [heq]
    exact (State.reg_congr hr a).trans (hpool a (by omega))
  refine ⟨⟨s.endCopy_gone cid outcome, (s.endCopy_teardown cid outcome).hbm, fun st hst => ?_⟩, ?_, hregs⟩
  · rw [heq]
    exact State.copyLeft_asyncs _ cid c hst
  · rw [heq]
    rfl

/-- A copy without staging leaves every register and every memory, and what else waits. -/
theorem State.endCopy_alone (outcome : Nat) (hstaging : c.staging = []) : SameRegsBut [] s (s.endCopy cid outcome) ∧
    SameMemory s (s.endCopy cid outcome) ∧ (s.endCopy cid outcome).fab.held = s.fab.held ∧
    (s.endCopy cid outcome).fab.copies = tabErase s.fab.copies cid := by
  have heq := State.endCopy_eq hin outcome
  rw [hstaging, show s.freeAll [] = s from rfl] at heq
  obtain ⟨hfab, hregs, hmem⟩ := State.copyLeft_same { s with fab := { s.fab with copies := tabErase s.fab.copies cid } } cid c
  generalize State.copyLeft _ cid c = u at heq hfab hregs hmem
  rw [heq]
  have hheld : u.fab.held = s.fab.held := by rw [hfab]
  have hcopies : u.fab.copies = tabErase s.fab.copies cid := by rw [hfab]
  exact ⟨fun a _ => State.reg_congr (s := s) hregs a, hmem, hheld, hcopies⟩

end Ends

/-! ## COPY_END -/

section CopyEnd

variable {s : State} {cid : Nat} {c : Copy} (hin : tabFind s.fab.copies cid = some c) (hwhole : c.len / 128 ≤ c.done)

/-- The bytes that a copy fetched pass its weight check (R444). -/
def WeightsPass (s : State) (c : Copy) (w : BitVec 32) : Prop :=
  c.poisoned = false ∧ c.outcome < 2 ∧ crc32c (s.hbmRead c.dst c.len) = w

/-- A copy that ends counts, at its counter and among the copies that came through (R389, R390). -/
def State.copyCounted (s : State) (c : Copy) : State :=
  let s := if c.sinc then s.countUp c.sctr 1 else s
  if c.outcome < 2 then s.bump aMsfCntCpy else s

theorem State.copyCounted_same (s : State) (c : Copy) : (s.copyCounted c).fab = s.fab ∧ (s.copyCounted c).rgm = s.rgm ∧
    SameMemory s (s.copyCounted c) := by
  unfold State.copyCounted State.countUp
  dsimp only
  split <;> split <;> simp [SameMemory]

theorem State.copyCounted_reg (s : State) (c : Copy) :
    (s.copyCounted c).reg aMsfCntCpy = s.reg aMsfCntCpy + (if c.outcome < 2 then 1 else 0) ∧
      (s.copyCounted c).reg (aCtr (c.sctr % 65536)) = s.reg (aCtr (c.sctr % 65536)) + (if c.sinc then 1 else 0) ∧
      SameRegsBut [aMsfCntCpy, aCtr (c.sctr % 65536)] s (s.copyCounted c) := by
  have hne : aMsfCntCpy ≠ aCtr (c.sctr % 65536) := by unfold aMsfCntCpy aCtr; omega
  have hup : ∃ u, u = (if c.sinc then s.countUp c.sctr 1 else s) ∧
      u.reg (aCtr (c.sctr % 65536)) = s.reg (aCtr (c.sctr % 65536)) + (if c.sinc then 1 else 0) ∧
      SameRegsBut [aCtr (c.sctr % 65536)] s u := by
    refine ⟨_, rfl, ?_⟩
    split
    · exact ⟨s.reg_addCtr_same _ _, fun a ha => s.reg_addCtr_other _ (by simpa using ha)⟩
    · exact ⟨(BitVec.add_zero _).symm, fun _ _ => rfl⟩
  obtain ⟨u, hu, hctr, hother⟩ := hup
  unfold State.copyCounted
  dsimp only
  rw [← hu]
  split
  · refine ⟨(u.reg_bump_same _).trans (by rw [hother _ (by simpa using hne)]), (u.reg_bump_other hne.symm).trans hctr,
      fun a ha => ?_⟩
    obtain ⟨hcpy, hk⟩ := not_or.1 (fun h => ha (by simpa using h) : ¬(a = aMsfCntCpy ∨ a = aCtr (c.sctr % 65536)))
    exact (u.reg_bump_other hcpy).trans (hother a (by simpa using hk))
  · exact ⟨(hother _ (by simpa using hne)).trans (BitVec.add_zero _).symm, hctr, hother.mono (by simp)⟩

include hin hwhole

/-- COPY_END of a copy whose every line is settled: its weight check decides. -/
theorem State.copyEnd_runs : exec (.copyEnd cid) s = .next (
    if (c.wcrc.elim false fun w => c.poisoned || decide (2 ≤ c.outcome) || crc32c (s.hbmRead c.dst c.len) != w) = true
    then (((s.endCopy cid c.outcome).raise cFetchCrc).faultCtx c.ctx 4).pump
    else ((s.endCopy cid c.outcome).copyCounted c).pump) := by
  have hnow : decide (c.done < c.len / 128) = false := decide_eq_false (Nat.not_lt.2 hwhole)
  have hread : (s.endCopy cid c.outcome).hbmRead c.dst c.len = s.hbmRead c.dst c.len := by
    rw [State.hbmRead, (s.endCopy_teardown cid c.outcome).hbm, State.hbmRead]
  rw [show exec (.copyEnd cid) s = execCopyEnd cid s from rfl, execCopyEnd, hin]
  simp only [hnow, Bool.false_eq_true, if_false, hread]
  cases c.wcrc with
  | none => rfl
  | some w => exact (apply_ite Host.Outcome.next _ _ _).symm

/-- A copy without a check, or whose bytes pass it, ends and counts. -/
theorem State.copyEnd_counts (hpass : ∀ w, c.wcrc = some w → WeightsPass s c w) :
    Completes (.copyEnd cid) s (fun t => CopyGone cid c s t ∧ t.fab.copyEnd = (c.ctx, c.outcome) ∧
      t.reg aMsfCntCpy = s.reg aMsfCntCpy + (if c.outcome < 2 then 1 else 0) ∧
      t.reg (aCtr (c.sctr % 65536)) = s.reg (aCtr (c.sctr % 65536)) + (if c.sinc then 1 else 0) ∧
      (c.staging = [] → s.fab.held = [] → s.fab.copies = [(cid, c)] →
        SameRegsBut [aMsfCntCpy, aCtr (c.sctr % 65536)] s t ∧ SameMemory s t)) := by
  have hgood : ¬(c.wcrc.elim false fun w => c.poisoned || decide (2 ≤ c.outcome) || crc32c (s.hbmRead c.dst c.len) != w) =
      true := by
    cases hw : c.wcrc with
    | none => simp
    | some w =>
      obtain ⟨hclean, hout, hcrc⟩ := hpass w hw
      simp [hclean, hcrc, hout]
  have hrun := State.copyEnd_runs hin hwhole
  rw [if_neg hgood] at hrun
  obtain ⟨hgone, hshown, hreg⟩ := State.endCopy_ends hin c.outcome
  have hcall := State.endCopy_alone hin c.outcome
  generalize s.endCopy cid c.outcome = u at hrun hgone hshown hreg hcall
  obtain ⟨hfab, hrgm, hmem⟩ := u.copyCounted_same c
  obtain ⟨hcpy, hctr, hother⟩ := u.copyCounted_reg c
  have hpump := (u.copyCounted c).pump_pumped
  have hcounted : CopyGone cid c s (u.copyCounted c) :=
    hgone.of_kept hmem.1 (by rw [hfab]; exact fun _ => id) (.of_steps (congrArg Rgm.steps hrgm))
  refine ⟨_, hrun, hcounted.pump, ?_, ?_, ?_, fun hstaging hheld hcopies => ?_⟩
  · rw [hpump.copyEnd, hfab, hshown]
  · rw [hpump.reg (by decide), hcpy, hreg _ (by decide)]
  · rw [hpump.reg (aCtr_not_sendCount _), hctr, hreg _ (by unfold aCtr; omega)]
  · obtain ⟨hsame, hsameMem, hheld', hcopies'⟩ := hcall hstaging
    have hnone : u.fab.copies = [] := by rw [hcopies', hcopies]; simp [tabErase]
    rw [State.pump_calm (by rw [hfab, hheld', hheld]) (by rw [hfab, hnone])]
    exact ⟨(hsame.mono (by simp)).trans hother, hsameMem.trans hmem⟩

/-- Where the bytes do not pass, the context is torn down (R444). -/
theorem State.copyEnd_faults {w : BitVec 32} (hw : c.wcrc = some w) (hfail : ¬WeightsPass s c w) (hctx : c.ctx < 4096)
    (hlive : s.ctxState c.ctx ∉ [0, 7]) :
    Completes (.copyEnd cid) s (fun t => CopyGone cid c s t ∧ t.ctxState c.ctx = 7 ∧ t.f (aCtxCmd c.ctx) 15 8 = 4) := by
  have hbad : (c.wcrc.elim false fun w => c.poisoned || decide (2 ≤ c.outcome) || crc32c (s.hbmRead c.dst c.len) != w) =
      true := by
    rw [hw, Option.elim]
    by_contra hno
    simp only [Bool.or_eq_true, decide_eq_true_eq, bne_iff_ne, ne_eq, not_or, not_le, not_not, Bool.not_eq_true] at hno
    obtain ⟨⟨hclean, hout⟩, hcrc⟩ := hno
    exact hfail ⟨hclean, hout, hcrc⟩
  have hrun := State.copyEnd_runs hin hwhole
  rw [if_pos hbad] at hrun
  obtain ⟨hgone, -⟩ := State.endCopy_ends hin c.outcome
  have hraise := ((s.endCopy cid c.outcome).raise_only cFetchCrc).teardown
  have hstate : ((s.endCopy cid c.outcome).raise cFetchCrc).ctxState c.ctx = s.ctxState c.ctx :=
    State.f_congr (((s.endCopy_teardown cid c.outcome).trans hraise).regs _ (by unfold aCtxCmd; omega)
      (by unfold aCtxCmd; omega)) _ _
  have hraised := hgone.teardown hraise
  generalize (s.endCopy cid c.outcome).raise cFetchCrc = u at hrun hstate hraised
  obtain ⟨hfaulted, hcause⟩ := u.faultCtx_faults (cause := 4) hctx (hstate ▸ hlive)
  have hcmd : (u.faultCtx c.ctx 4).pump.reg (aCtxCmd c.ctx) = (u.faultCtx c.ctx 4).reg (aCtxCmd c.ctx) :=
    (State.pump_pumped _).reg (by unfold SendCount aCtxCmd; omega)
  exact ⟨_, hrun, (hraised.faultCtx c.ctx 4).pump, (State.f_congr hcmd _ _).trans hfaulted,
    (State.f_congr hcmd _ _).trans hcause⟩

end CopyEnd

/-- Settles O32: by the weight check of the copy that ends. -/
theorem copiesEnd : Obligations.CopiesEnd := by
  unfold Obligations.CopiesEnd
  intro s cid c hin hwhole k checked gone
  exact ⟨State.copyEnd_counts hin hwhole, fun w => State.copyEnd_faults hin hwhole⟩

end Sys2Proof.Machine
end

section
/-! Links and ports (R364, R377, R378, R401, R402, R407, R410, R431): what an event of one port leaves of another, and what a port
reads after each. -/

namespace Sys2Proof.Machine

/-! ## What an event of one port leaves -/

/-- The fabric's lists, every memory, and every register beyond ATN but the state of one port, are kept. -/
structure PortOnly (n : Nat) (s t : State) : Prop where
  regs : ∀ a, 0x2000 ≤ a → a ≠ aFabState n → t.reg a = s.reg a
  fab : t.fab = s.fab
  mem : SameMemory s t

namespace PortOnly

variable {n : Nat} {s t u : State}

theorem refl (n : Nat) (s : State) : PortOnly n s s := ⟨fun _ _ _ => rfl, rfl, .refl s⟩

theorem trans (h : PortOnly n s t) (k : PortOnly n t u) : PortOnly n s u where
  regs := fun a ha hne => (k.regs a ha hne).trans (h.regs a ha hne)
  fab := k.fab.trans h.fab
  mem := h.mem.trans k.mem

theorem ite (c : Prop) [Decidable c] (ht : PortOnly n s t) (hu : PortOnly n s u) : PortOnly n s (if c then t else u) := by
  split <;> assumption

theorem setF (n : Nat) (s : State) (hi lo v : Nat) : PortOnly n s (s.setF (aFabState n) hi lo v) where
  regs := fun _ _ hne => s.reg_setReg_other _ hne
  fab := rfl
  mem := ⟨rfl, rfl, rfl, rfl, rfl⟩

end PortOnly

/-- What an event of a port may change does not concern another's state and errors. -/
structure PortKept (n : Nat) (s t : State) : Prop where
  state : t.reg (aFabState n) = s.reg (aFabState n)
  err : t.reg (aFabErr n) = s.reg (aFabErr n)
  mem : SameMemory s t

namespace PortKept

variable {n : Nat} {s t u : State}

theorem refl (n : Nat) (s : State) : PortKept n s s := ⟨rfl, rfl, .refl s⟩

theorem trans (h : PortKept n s t) (k : PortKept n t u) : PortKept n s u :=
  ⟨k.state.trans h.state, k.err.trans h.err, h.mem.trans k.mem⟩

theorem of_same (hr : t.regs = s.regs) (hm : SameMemory s t) : PortKept n s t :=
  ⟨State.reg_congr hr _, State.reg_congr hr _, hm⟩

theorem of_pumped (h : Pumped s t) : PortKept n s t :=
  ⟨h.reg (by unfold SendCount aFabState; omega), h.reg (by unfold SendCount aFabErr; omega), h.sameMemory⟩

theorem setReg (n : Nat) (s : State) {a : Nat} (v : Word) (hs : aFabState n ≠ a) (he : aFabErr n ≠ a) :
    PortKept n s (s.setReg a v) :=
  ⟨s.reg_setReg_other v hs, s.reg_setReg_other v he, ⟨rfl, rfl, rfl, rfl, rfl⟩⟩

theorem link (h : PortKept n s t) : t.link n = s.link n := State.f_congr h.state _ _

theorem flag (h : PortKept n s t) (i : Nat) : t.flag (aFabState n) i = s.flag (aFabState n) i := State.flag_congr h.state i

end PortKept

theorem PortOnly.kept {j n : Nat} {s t : State} (h : PortOnly j s t) (hne : j ≠ n) : PortKept n s t where
  state := h.regs _ (by unfold aFabState; omega) (by unfold aFabState; omega)
  err := h.regs _ (by unfold aFabErr; omega) (by unfold aFabErr aFabState; omega)
  mem := h.mem

/-- Two states differ at most in the ATN registers, the attention levels, the flash log's queue and the management island. -/
def MgtOnly (s t : State) : Prop := ∃ mgt, AttentionOnly { s with mgt := mgt } t

namespace MgtOnly

variable {s t u : State}

theorem refl (s : State) : MgtOnly s s := ⟨s.mgt, .refl s⟩

theorem setMgt (s : State) (m : Mgt) : MgtOnly s { s with mgt := m } := ⟨m, .refl _⟩

theorem trans (h : MgtOnly s t) (k : MgtOnly t u) : MgtOnly s u := by
  obtain ⟨m, r, a, f, rfl, hr⟩ := h
  obtain ⟨m', r', a', f', rfl, hr'⟩ := k
  exact ⟨m', r', a', f', rfl, fun b hb => (hr' b hb).trans (hr b hb)⟩

theorem ite (c : Prop) [Decidable c] (ht : MgtOnly s t) (hu : MgtOnly s u) : MgtOnly s (if c then t else u) := by
  split <;> assumption

theorem portOnly (h : MgtOnly s t) (n : Nat) : PortOnly n s t := by
  obtain ⟨m, r, a, f, rfl, hr⟩ := h
  exact ⟨fun b hb _ => hr b (.inr hb), rfl, ⟨rfl, rfl, rfl, rfl, rfl⟩⟩

/-- The port itself keeps its state too. -/
theorem portKept (h : MgtOnly s t) (n : Nat) : PortKept n s t := by
  obtain ⟨m, r, a, f, rfl, hr⟩ := h
  exact ⟨hr _ (.inr (by unfold aFabState; omega)), hr _ (.inr (by unfold aFabErr; omega)), ⟨rfl, rfl, rfl, rfl, rfl⟩⟩

end MgtOnly

/-- The state of a port's island stands in the management island. -/
theorem State.setIsl_port (s : State) {n : Nat} (hn : n < 16) (v : Nat) : MgtOnly s (s.setIsl (160 + n) v) := by
  have hlane : islLane (160 + n) = false := decide_eq_false (by omega)
  have hgroup : islGroup (160 + n) = false := by unfold islGroup; simp
  have hadder : islAdder (160 + n) = false := by unfold islAdder; simp; omega
  have hslice : islSlice (160 + n) = false := by unfold islSlice; simp; omega
  unfold State.setIsl
  simp only [hlane, hgroup, hadder, hslice, Bool.false_eq_true, if_false]
  exact .setMgt s _

theorem State.depart_port (s : State) {n : Nat} (hn : n < 16) (software : Bool) : MgtOnly s (s.depart (160 + n) software) := by
  have hretire (u : State) : MgtOnly u (u.retire (160 + n) true) :=
    ((u.setIsl_port hn 2).trans (.setMgt _ _)).trans ⟨_, State.raiseAt_only _ _ _⟩
  have hcount (u : State) : MgtOnly u (u.countDeparture (160 + n)) := (MgtOnly.setMgt u _).trans (.ite _ (hretire _) (.refl _))
  exact ((MgtOnly.setMgt s _).trans (.ite _ (.refl _) (State.setIsl_port _ hn _))).trans (.ite _ (.refl _) (hcount _))

/-! ## Requests to leave and to train (R378, R407) -/

/-- Settling a port changes its own state alone. -/
theorem State.settlePort_only (s : State) {n : Nat} (hn : n < 16) : PortOnly n s (s.settlePort n) := by
  have hleave (up : Bool) : PortOnly n s (if s.flag (aFabState n) 8 && s.link n != 1 then
      if up then ((s.setF (aFabState n) 8 8 0).setF (aFabState n) 1 0 3).depart (160 + n) true
      else (s.setF (aFabState n) 8 8 0).setF (aFabState n) 1 0 3 else s) :=
    .ite _ (.ite _ (((PortOnly.setF n s 8 8 0).trans (.setF n _ 1 0 3)).trans ((State.depart_port _ hn true).portOnly n))
      ((PortOnly.setF n s 8 8 0).trans (.setF n _ 1 0 3))) (.refl n s)
  have hback (u : State) : PortOnly n u (if !u.flag (aFabState n) 9 || u.link n == 1 then u
      else if u.link n == 2 then u.setF (aFabState n) 9 9 0 else u.setF (aFabState n) 1 0 1) :=
    .ite _ (.refl n u) (.ite _ (.setF n u 9 9 0) (.setF n u 1 0 1))
  exact (hleave _).trans (hback _)

/-- A port without a request keeps its state. -/
theorem State.settlePort_calm {s : State} {n : Nat} (hleave : s.flag (aFabState n) 8 = false)
    (hback : s.flag (aFabState n) 9 = false) : s.settlePort n = s := by
  unfold State.settlePort
  simp [hleave, hback]

/-- A port in service that is to leave has left; where it is to train too, it does. -/
theorem State.settlePort_leaves {s : State} {n : Nat} (hn : n < 16) (hleave : s.flag (aFabState n) 8 = true)
    (hlink : s.link n = 2) : (s.settlePort n).flag (aFabState n) 8 = false ∧
      (s.settlePort n).link n = (if s.flag (aFabState n) 9 then 1 else 3) := by
  have hout : ∃ u, u = ((s.setF (aFabState n) 8 8 0).setF (aFabState n) 1 0 3).depart (160 + n) true ∧
      u.flag (aFabState n) 8 = false ∧ u.link n = 3 ∧ u.flag (aFabState n) 9 = s.flag (aFabState n) 9 := by
    have hkept := (State.depart_port ((s.setF (aFabState n) 8 8 0).setF (aFabState n) 1 0 3) hn true).portKept n
    refine ⟨_, rfl, ?_, ?_, ?_⟩
    · rw [hkept.flag, State.flag_setF_apart _ _ _ (by decide) (by decide) (by decide), State.flag_setF_same _ _ (by decide)]
      rfl
    · exact hkept.link.trans (State.f_setF_same _ _ 1 0 3 (by decide) (by decide))
    · rw [hkept.flag, State.flag_setF_apart _ _ _ (by decide) (by decide) (by decide),
        State.flag_setF_apart _ _ _ (by decide) (by decide) (by decide)]
  obtain ⟨u, hu, h8, hl, h9⟩ := hout
  unfold State.settlePort
  simp only [hleave, hlink]
  rw [show (true && (2 != 1)) = true from rfl, if_pos rfl, if_pos (show (2 == 2) = true from rfl), ← hu, h9, hl]
  cases s.flag (aFabState n) 9 with
  | false => exact ⟨h8, hl⟩
  | true =>
    refine ⟨(State.flag_setF_apart _ _ _ (by decide) (by decide) (by decide)).trans h8, ?_⟩
    exact State.f_setF_same _ _ 1 0 1 (by decide) (by decide)

section Fold

variable {n : Nat}

/-- Settling other ports leaves a port. -/
theorem State.settle_others {l : List Nat} (hl : ∀ j ∈ l, j < 16 ∧ j ≠ n) (s : State) :
    PortKept n s (l.foldl State.settlePort s) := by
  induction l generalizing s with
  | nil => exact .refl n s
  | cons j l ih =>
    obtain ⟨hj, hne⟩ := hl j (.head l)
    exact ((s.settlePort_only hj).kept hne).trans (ih (fun k hk => hl k (.tail j hk)) _)

/-- Settling all ports leaves a port in the state in which settling it does. -/
theorem State.settleAll_at (hn : n < 16) (s : State) :
    ∃ u, PortKept n s u ∧ PortKept n (u.settlePort n) ((List.range 16).foldl State.settlePort s) := by
  obtain ⟨l, r, hlr⟩ := List.append_of_mem (List.mem_range.2 hn)
  have hnodup : (l ++ n :: r).Nodup := hlr ▸ List.nodup_range
  obtain ⟨-, htail, hapart⟩ := List.nodup_append.1 hnodup
  have hlt {j : Nat} (hj : j ∈ l ++ n :: r) : j < 16 := List.mem_range.1 (hlr ▸ hj)
  have hleft : ∀ j ∈ l, j < 16 ∧ j ≠ n := fun j hj =>
    ⟨hlt (List.mem_append_left _ hj), hapart j hj n (List.mem_cons_self ..)⟩
  have hright : ∀ j ∈ r, j < 16 ∧ j ≠ n := fun j hj =>
    ⟨hlt (List.mem_append_right _ (List.mem_cons_of_mem _ hj)), fun e => (List.nodup_cons.1 htail).1 (e ▸ hj)⟩
  refine ⟨l.foldl State.settlePort s, State.settle_others hleft s, ?_⟩
  rw [hlr, List.foldl_append, List.foldl_cons]
  exact State.settle_others hright _

theorem State.settleAll_same (s : State) : ((List.range 16).foldl State.settlePort s).fab = s.fab ∧
    SameMemory s ((List.range 16).foldl State.settlePort s) := by
  have hall : ∀ l : List Nat, (∀ j ∈ l, j < 16) → ∀ u : State, (l.foldl State.settlePort u).fab = u.fab ∧
      SameMemory u (l.foldl State.settlePort u) := by
    intro l
    induction l with
    | nil => exact fun _ u => ⟨rfl, .refl u⟩
    | cons j l ih =>
      intro hl u
      have honly := u.settlePort_only (hl j (.head l))
      obtain ⟨hfab, hmem⟩ := ih (fun k hk => hl k (.tail j hk)) (u.settlePort j)
      exact ⟨hfab.trans honly.fab, honly.mem.trans hmem⟩
  exact hall _ (fun j hj => List.mem_range.1 hj) s

end Fold

/-! ## The mapping (R376, R378) -/

theorem State.keyFollows_kept (s : State) {n : Nat} (hn : n < 16) : PortKept n s s.keyFollows := by
  have hstate : aFabState n ≠ aMsfCtrl := by unfold aFabState aMsfCtrl; omega
  have herr : aFabErr n ≠ aMsfCtrl := by unfold aFabErr aMsfCtrl; omega
  exact .setReg n s _ hstate herr

theorem State.colPortless_kept (s : State) (n : Nat) : PortKept n s s.colPortless := by
  unfold State.colPortless
  split
  · exact .refl n s
  · exact .of_same rfl ⟨rfl, rfl, rfl, rfl, rfl⟩

theorem State.portsMark_kept (s : State) {n : Nat} (hn : n < 16) : PortKept n s s.portsMark := by
  have hkey := (s.keyFollows_kept hn).trans (s.keyFollows.colPortless_kept n)
  unfold State.portsMark
  dsimp only
  split
  · exact hkey
  · exact hkey.trans (.of_same rfl ⟨rfl, rfl, rfl, rfl, rfl⟩)

/-- A new mapping leaves a port without a request, and every memory. -/
theorem State.remapNow_calm {s : State} {n : Nat} (hn : n < 16) (hleave : s.flag (aFabState n) 8 = false)
    (hback : s.flag (aFabState n) 9 = false) : PortKept n s s.remapNow := by
  have hrest (u : State) (h8 : u.flag (aFabState n) 8 = false) (h9 : u.flag (aFabState n) 9 = false) :
      PortKept n u ((List.range 16).foldl State.settlePort u).keyFollows.pump := by
    obtain ⟨v, hv, hsettled⟩ := State.settleAll_at hn u
    rw [State.settlePort_calm ((hv.flag 8).trans h8) ((hv.flag 9).trans h9)] at hsettled
    exact ((hv.trans hsettled).trans (State.keyFollows_kept _ hn)).trans (.of_pumped (State.pump_pumped _))
  have hmap : PortKept n s (if s.fab.remap then { s with fab := { s.fab with map := s.portsIn, remap := false } } else s) := by
    split
    · exact .of_same rfl ⟨rfl, rfl, rfl, rfl, rfl⟩
    · exact .refl n s
  unfold State.remapNow
  split
  · exact .refl n s
  · exact hmap.trans (hrest _ ((hmap.flag 8).trans hleave) ((hmap.flag 9).trans hback))

theorem State.portsChanged_calm {s : State} {n : Nat} (hn : n < 16) (hleave : s.flag (aFabState n) 8 = false)
    (hback : s.flag (aFabState n) 9 = false) : PortKept n s s.portsChanged := by
  have hmark := s.portsMark_kept hn
  exact hmark.trans (State.remapNow_calm hn ((hmark.flag 8).trans hleave) ((hmark.flag 9).trans hback))

/-- PORT_REMAP once no request of the old mapping is out. -/
theorem State.portRemap_completes {s : State} {n : Nat} (hn : n < 16) (hremap : s.fab.remap = true)
    (hold : s.oldRequests = false) : Completes .portRemap s (fun t => t.fab.map = s.portsIn ∧ t.fab.remap = false ∧
      SameMemory s t ∧ (s.flag (aFabState n) 8 = true → s.link n = 2 →
        t.flag (aFabState n) 8 = false ∧ t.link n = (if s.flag (aFabState n) 9 then 1 else 3))) := by
  have hrun : exec .portRemap s = .next ((List.range 16).foldl State.settlePort
      { s with fab := { s.fab with map := s.portsIn, remap := false } }).keyFollows.pump := by
    rw [show exec .portRemap s = execPortRemap s from rfl, execPortRemap, State.remapNow, hremap, hold]
    rfl
  obtain ⟨hfab, hmem⟩ := State.settleAll_same { s with fab := { s.fab with map := s.portsIn, remap := false } }
  obtain ⟨u, hu, hsettled⟩ := State.settleAll_at hn { s with fab := { s.fab with map := s.portsIn, remap := false } }
  generalize (List.range 16).foldl State.settlePort { s with fab := { s.fab with map := s.portsIn, remap := false } } = v
    at hrun hfab hmem hsettled
  have hpump := v.keyFollows.pump_pumped
  obtain ⟨hmap, hremap'⟩ := hpump.mapping
  have hkept := hsettled.trans ((v.keyFollows_kept hn).trans (.of_pumped hpump))
  refine ⟨_, hrun, hmap.trans (congrArg Fab.map hfab), hremap'.trans (congrArg Fab.remap hfab),
    hmem.trans ((v.keyFollows_kept hn).mem.trans hpump.sameMemory), fun hleave hlink => ?_⟩
  obtain ⟨h8, hl⟩ := State.settlePort_leaves hn ((hu.flag 8).trans hleave) (hu.link.trans hlink)
  exact ⟨(hkept.flag 8).trans h8, hkept.link.trans (hl.trans (by rw [hu.flag 9]; rfl))⟩

/-! ## LINK_UP (R364) -/

theorem State.sendVia_kept (s : State) {ports : List Nat} (p : Packet) (h : ∀ m ∈ ports, m < 16) (n : Nat) :
    PortKept n s (s.sendVia ports p) := .of_pumped (s.sendVia_sent p h).pumped

/-- What FAB_STATE reads of a link that is up with a generation, whose port is not asked for. -/
def linkWord (g : Nat) : Word := word (2 + g <<< 2 + g <<< 4 + (bit (g == 1)) <<< 6 + 0 <<< 8)

theorem linkWord_fields {g : Nat} (hlo : 1 ≤ g) (hhi : g ≤ 3) :
    fld (linkWord g).toNat 1 0 = 2 ∧ fld (linkWord g).toNat 3 2 = g ∧ bitAt (linkWord g).toNat 8 = false ∧
      bitAt (linkWord g).toNat 9 = false := by
  interval_cases g <;> decide

/-- What a link that is up exchanges with its peer, and the mapping that follows (R364, R378, R673). -/
def State.linkOffers (s : State) (n : Nat) : State :=
  let s := s.setIsl (160 + n) 0
  let s := (s.sendOn n ⟨nalHdr 0 0x3F s.chip 0 0 0 0 0 3 0 0, []⟩).bump (aFabCntRxpkt n)
  (s.attestOn [n]).portsChanged

theorem State.linkOffers_kept {s : State} {n : Nat} (hn : n < 16) (hleave : s.flag (aFabState n) 8 = false)
    (hback : s.flag (aFabState n) 9 = false) : PortKept n s (s.linkOffers n) := by
  have hrxs : aFabState n ≠ aFabCntRxpkt n := by unfold aFabState aFabCntRxpkt; omega
  have hrxe : aFabErr n ≠ aFabCntRxpkt n := by unfold aFabErr aFabCntRxpkt; omega
  have hsent (v : State) (p : Packet) : PortKept n v ((v.sendOn n p).bump (aFabCntRxpkt n)) :=
    (PortKept.of_pumped (v.sendOn_sent p hn).pumped).trans (.setReg n _ _ hrxs hrxe)
  have hattest (v : State) : PortKept n v (v.attestOn [n]) :=
    v.sendVia_kept _ (fun m hm => List.mem_singleton.1 hm ▸ hn) n
  have hup (p : Packet) := (((s.setIsl_port hn 0).portKept n).trans (hsent _ p)).trans (hattest _)
  exact (hup _).trans (State.portsChanged_calm hn (((hup _).flag 8).trans hleave) (((hup _).flag 9).trans hback))

/-- Its state stands as it was set, and no memory changes. -/
theorem State.linkUpOp_effect {s : State} {n gen : Nat} (hn : n < 16) (hlo : 1 ≤ gen) (hhi : gen ≤ 3)
    (hleave : s.flag (aFabState n) 8 = false) : SameMemory s (s.linkUpOp n gen) ∧
      (s.linkUpOp n gen).reg (aFabState n) = linkWord gen := by
  have hoos : s.f (aFabState n) 8 8 = 0 := by
    have hlt : s.f (aFabState n) 8 8 < 2 := Nat.mod_lt _ (by decide)
    rw [State.flag_eq_f, beq_eq_false_iff_ne] at hleave
    omega
  have heq : s.linkUpOp n gen = (s.setReg (aFabState n) (linkWord gen)).linkOffers n := by
    unfold State.linkUpOp
    rw [hoos, Nat.min_eq_right hhi]
    rfl
  obtain ⟨-, -, h8, h9⟩ := linkWord_fields hlo hhi
  have hreg := s.reg_setReg_same (aFabState n) (linkWord gen)
  have hkept := State.linkOffers_kept (s := s.setReg (aFabState n) (linkWord gen)) hn
    (by rw [State.flag, State.regN, hreg, h8]) (by rw [State.flag, State.regN, hreg, h9])
  rw [heq]
  exact ⟨hkept.mem, hkept.state.trans hreg⟩

/-- A link that comes up reads in service, with the lower of both generations. -/
theorem State.linkUp_completes {s : State} {n gen : Nat} (hn : n < 16) (hlo : 1 ≤ gen) (hhi : gen ≤ 3) (hlink : s.link n < 2)
    (hreset : s.pwr.inReset = false) (hisl : s.islState (160 + n) ≠ 2) (hboot : 7 ≤ s.f aPwrBoot 3 0)
    (hleave : s.flag (aFabState n) 8 = false) : Completes (.linkUp n gen) s (fun t => t.link n = 2 ∧ t.gen n = gen ∧
      t.portIn n = true ∧ t.flag (aFabState n) 9 = false ∧ SameMemory s t) := by
  have hrun : exec (.linkUp n gen) s = .next (s.linkUpOp n gen) := by
    refine if_neg ?_
    have hpos : gen ≠ 0 := by omega
    simp only [hreset, hisl, hpos, beq_iff_eq, Bool.or_eq_true, decide_eq_true_eq, not_or, Bool.false_eq_true, not_false_eq_true,
      not_lt, not_le, ge_iff_le, gt_iff_lt, and_true]
    exact ⟨⟨⟨hn, hhi⟩, hlink⟩, hboot⟩
  obtain ⟨hmem, hreg⟩ := State.linkUpOp_effect hn hlo hhi hleave
  obtain ⟨hl, hg, h8, h9⟩ := linkWord_fields hlo hhi
  have hup : (s.linkUpOp n gen).link n = 2 := by rw [State.link, State.f, State.regN, hreg, hl]
  have hflag (i : Nat) : (s.linkUpOp n gen).flag (aFabState n) i = bitAt (linkWord gen).toNat i := by
    rw [State.flag, State.regN, hreg]
  refine ⟨_, hrun, hup, ?_, ?_, (hflag 9).trans h9, hmem⟩
  · rw [State.gen, State.f, State.regN, hreg, hg]
  · rw [State.portIn, hup, hflag 8, h8]
    simpa using hn

/-! ## LINK_DOWN (R377, R402) -/

/-- What waits for reissue, and the atomics that are lost, leave the ports' states. -/
theorem State.portLost_keeps (s : State) {n : Nat} : (s.portLost n).reg (aFabState n) = s.reg (aFabState n) ∧
    SameMemory s (s.portLost n) := by
  have hbit (u : State) : (u.setBit (aFabErr n) 3).reg (aFabState n) = u.reg (aFabState n) :=
    u.reg_setReg_other _ (by unfold aFabState aFabErr; omega)
  have hlost : ∀ (l : List (Nat × Req)) (u : State), let t := l.foldl (fun s e =>
      ((s.untagged e.1).answerHost [] 3 false).setBit (aFabErr n) 3) u
      t.reg (aFabState n) = u.reg (aFabState n) ∧ SameMemory u t := by
    intro l
    induction l with
    | nil => exact fun u => ⟨rfl, .refl u⟩
    | cons e l ih =>
      intro u
      obtain ⟨hr, hm⟩ := ih (((u.untagged e.1).answerHost [] 3 false).setBit (aFabErr n) 3)
      exact ⟨hr.trans (hbit _), SameMemory.trans ⟨rfl, rfl, rfl, rfl, rfl⟩ hm⟩
  exact hlost _ s

/-- A link that is down: no generation, and no request of its port (R402). -/
def State.linkCut (s : State) (n : Nat) : State := (s.setF (aFabState n) 6 0 0).setF (aFabState n) 9 8 0

theorem State.linkCut_fields (s : State) (n : Nat) : (s.linkCut n).link n = 0 ∧ (s.linkCut n).flag (aFabState n) 8 = false ∧
    (s.linkCut n).flag (aFabState n) 9 = false := by
  unfold State.linkCut State.link
  refine ⟨?_, ?_, ?_⟩
  · rw [State.f_setF_apart _ _ _ (by decide) (by decide) (by decide) (by decide),
      State.f_setF_within _ _ _ (by decide) (by decide) (by decide) (by decide)]
    rfl
  · rw [State.flag_eq_f, State.f_setF_within _ _ _ (by decide) (by decide) (by decide) (by decide)]
    rfl
  · rw [State.flag_eq_f, State.f_setF_within _ _ _ (by decide) (by decide) (by decide) (by decide)]
    rfl

/-- A link that goes down reads so, with its error bit. -/
theorem State.linkDown_completes {s : State} {n : Nat} (hn : n < 16) (hlink : s.link n ≠ 0) :
    Completes (.linkDown n) s (fun t => t.link n = 0 ∧ t.flag (aFabErr n) 1 = true ∧ SameMemory s t) := by
  have hport : ¬(n ≥ 16 || s.link n == 0) = true := by simp [hlink, hn]
  have hrun := show exec (.linkDown n) s = execLinkDown n s from rfl
  rw [execLinkDown, if_neg hport] at hrun
  obtain ⟨hl, h8, h9⟩ := s.linkCut_fields n
  obtain ⟨hlost, hmem⟩ := (s.linkCut n).portLost_keeps (n := n)
  have hnoted : ∃ u, u = (((s.linkCut n).portLost n).setBit (aFabErr n) 1).raiseAt cFabLinkDown (160 + n) ∧
      u.reg (aFabState n) = (s.linkCut n).reg (aFabState n) ∧ u.flag (aFabErr n) 1 = true ∧ SameMemory s u := by
    obtain ⟨_, _, _, he, hr⟩ := State.raiseAt_only (((s.linkCut n).portLost n).setBit (aFabErr n) 1) cFabLinkDown (160 + n)
    refine ⟨_, rfl, ?_, ?_, ?_⟩
    · rw [hr _ (.inr (by unfold aFabState; omega))]
      exact (State.reg_setReg_other _ _ (by unfold aFabState aFabErr; omega)).trans hlost
    · rw [State.flag_congr (hr _ (.inr (by unfold aFabErr; omega)))]
      exact State.flag_setBit _ _ (by decide)
    · rw [he]
      exact hmem
  obtain ⟨u, hu, hstate, herr, hsame⟩ := hnoted
  have hleft (c : Bool) : PortKept n u (if c then u.depart (160 + n) false else u) := by
    split
    · exact (u.depart_port hn false).portKept n
    · exact .refl n u
  have hkept (c : Bool) : PortKept n u (if c then u.depart (160 + n) false else u).portsChanged :=
    (hleft c).trans (State.portsChanged_calm hn (((hleft c).flag 8).trans ((State.flag_congr hstate 8).trans h8))
      (((hleft c).flag 9).trans ((State.flag_congr hstate 9).trans h9)))
  subst hu
  have hall := hkept (s.link n == 2)
  exact ⟨_, hrun, hall.link.trans ((State.f_congr hstate _ _).trans hl), (State.flag_congr hall.err 1).trans herr,
    hsame.trans hall.mem⟩

/-! ## RTS_REQ and OOS_REQ (R378, R407, R601) -/

section Asked

variable {s : State} {n : Nat} (hn : n < 16) (hopen : s.portShut = false) (hdark : s.dark = false)

/-- A change of one port's state, and of the key, leaves whether anything answers. -/
theorem State.dark_of_ports {t : State} (h : SameRegsBut [aFabState n, aMsfCtrl] s t) (hp : t.pwr = s.pwr) : t.dark = s.dark := by
  have hfar {a : Nat} (ha : a < 0x140000) : a ∉ [aFabState n, aMsfCtrl] := by
    simp [aFabState, aMsfCtrl]
    omega
  exact State.dark_congr hp (h _ (hfar (by decide))) (h _ (hfar (by decide)))

theorem State.sameMemory_done (s : State) : SameMemory s s.done := by simp [SameMemory]

theorem SameRegsBut.done {l : List Nat} {s t : State} (h : SameRegsBut l s t) : SameRegsBut l s t.done := fun a ha =>
  (State.reg_congr t.done_regs a).trans (h a ha)

theorem State.done_link (s : State) (n : Nat) : s.done.link n = s.link n ∧
    ∀ i, s.done.flag (aFabState n) i = s.flag (aFabState n) i := by
  have hreg := State.reg_congr s.done_regs (aFabState n)
  exact ⟨State.f_congr hreg _ _, State.flag_congr hreg⟩

/-- A port that is to train: asked for, and its link trains at once where it is down or out and no request to leave stands. -/
theorem State.portBack_effect (s : State) (n : Nat) : (s.portBack n).flag (aFabState n) 9 = true ∧
    (s.portBack n).flag (aFabState n) 8 = s.flag (aFabState n) 8 ∧
    (s.portBack n).link n = (if s.flag (aFabState n) 8 = false ∧ s.link n ≠ 2 then 1 else s.link n) ∧
    SameRegsBut [aFabState n] s (s.portBack n) ∧ SameMemory s (s.portBack n) ∧ (s.portBack n).pwr = s.pwr := by
  have h9 : (s.setF (aFabState n) 9 9 1).flag (aFabState n) 9 = true := by
    rw [State.flag_setF_same _ _ (by decide)]
    rfl
  have h8 : (s.setF (aFabState n) 9 9 1).flag (aFabState n) 8 = s.flag (aFabState n) 8 :=
    State.flag_setF_apart _ _ _ (by decide) (by decide) (by decide)
  have hl : (s.setF (aFabState n) 9 9 1).link n = s.link n :=
    State.f_setF_apart _ _ _ (by decide) (by decide) (by decide) (by decide)
  have hregs (u : State) (hi lo v : Nat) : SameRegsBut [aFabState n] u (u.setF (aFabState n) hi lo v) := fun a ha =>
    u.reg_setReg_other _ (by simpa using ha)
  unfold State.portBack
  dsimp only
  rw [h8, hl]
  split
  · next h =>
    refine ⟨h9, h8, hl.trans ?_, hregs s 9 9 1, ⟨rfl, rfl, rfl, rfl, rfl⟩, rfl⟩
    cases hleave : s.flag (aFabState n) 8 <;> simp [hleave] at h ⊢
    omega
  · next h =>
    simp only [Bool.or_eq_true, beq_iff_eq, not_or, Bool.not_eq_true] at h
    obtain ⟨⟨hleave, -⟩, hup⟩ := h
    refine ⟨(State.flag_setF_apart _ _ _ (by decide) (by decide) (by decide)).trans h9,
      (State.flag_setF_apart _ _ _ (by decide) (by decide) (by decide)).trans h8, ?_, ?_, ⟨rfl, rfl, rfl, rfl, rfl⟩, rfl⟩
    · rw [if_pos ⟨hleave, hup⟩]
      exact State.f_setF_same _ _ 1 0 1 (by decide) (by decide)
    · exact (hregs s 9 9 1).trans (hregs _ 1 0 1)

/-- A port asked to leave takes no new request. -/
theorem State.portOut_effect (s : State) {n : Nat} (hn : n < 16) : (s.portOut n).flag (aFabState n) 8 = true ∧
    (s.portOut n).link n = s.link n ∧ SameRegsBut [aFabState n, aMsfCtrl] s (s.portOut n) ∧ SameMemory s (s.portOut n) ∧
    (s.portOut n).pwr = s.pwr := by
  have hmark (u : State) : SameRegsBut [aMsfCtrl] u u.portsMark ∧ u.portsMark.pwr = u.pwr := by
    have hkey : SameRegsBut [aMsfCtrl] u u.keyFollows := fun a ha => u.reg_setReg_other _ (by simpa using ha)
    unfold State.portsMark State.colPortless
    dsimp only
    split <;> split <;> exact ⟨hkey, rfl⟩
  have hkept := (s.setF (aFabState n) 8 8 1).portsMark_kept hn
  obtain ⟨hregs, hpwr⟩ := hmark (s.setF (aFabState n) 8 8 1)
  have hset : SameRegsBut [aFabState n] s (s.setF (aFabState n) 8 8 1) := fun a ha => s.reg_setReg_other _ (by simpa using ha)
  unfold State.portOut
  refine ⟨?_, ?_, (hset.mono (by simp)).trans (hregs.mono (by simp)), hkept.mem, hpwr⟩
  · rw [hkept.flag, State.flag_setF_same _ _ (by decide)]
    rfl
  · exact hkept.link.trans (State.f_setF_apart _ _ _ (by decide) (by decide) (by decide) (by decide))

theorem State.portRtsReq_refused (hretired : s.islState (160 + n) = 2) : exec (.portRtsReq n) s = .next s.refuse :=
  if_pos (by simp [hretired])

include hn hopen

include hdark

theorem State.portRtsReq_completes (hisl : s.islState (160 + n) ≠ 2) : Completes (.portRtsReq n) s (fun t =>
    t.flag (aFabState n) 9 = true ∧ t.flag (aFabState n) 8 = s.flag (aFabState n) 8 ∧ t.outcome = 0 ∧
    t.link n = (if s.flag (aFabState n) 8 = false ∧ s.link n ≠ 2 then 1 else s.link n) ∧
    SameRegsBut [aFabState n] s t ∧ SameMemory s t) := by
  have hrun : exec (.portRtsReq n) s = .next (s.portBack n).done := if_neg (by simp [hopen, hn, hisl])
  obtain ⟨h9, h8, hl, hregs, hmem, hpwr⟩ := s.portBack_effect n
  have hlit := State.dark_of_ports (n := n) (hregs.mono (by simp)) hpwr
  generalize s.portBack n = u at hrun h9 h8 hl hregs hmem hlit
  obtain ⟨hdl, hdf⟩ := u.done_link n
  exact ⟨_, hrun, (hdf 9).trans h9, (hdf 8).trans h8, u.outcome_done (hlit.trans hdark), hdl.trans hl, hregs.done,
    hmem.trans u.sameMemory_done⟩

theorem State.portOosReq_completes : Completes (.portOosReq n) s (fun t => t.flag (aFabState n) 8 = true ∧
    t.portIn n = false ∧ t.link n = s.link n ∧ t.outcome = 0 ∧ SameRegsBut [aFabState n, aMsfCtrl] s t ∧ SameMemory s t) := by
  have hrun : exec (.portOosReq n) s = .next (s.portOut n).done := if_neg (by simp [hopen, hn])
  obtain ⟨h8, hl, hregs, hmem, hpwr⟩ := s.portOut_effect hn
  have hlit := State.dark_of_ports hregs hpwr
  generalize s.portOut n = u at hrun h8 hl hregs hmem hlit
  obtain ⟨hdl, hdf⟩ := u.done_link n
  have hleave := (hdf 8).trans h8
  refine ⟨_, hrun, hleave, ?_, hdl.trans hl, u.outcome_done (hlit.trans hdark), hregs.done, hmem.trans u.sameMemory_done⟩
  rw [State.portIn, hleave]
  simp

end Asked

/-! ## LINK_RETRY (R307, R385, R401) -/

/-- A retried packet is counted at its port, with its error bit. -/
def State.retryCounted (s : State) (n : Nat) : State := (s.bump (aFabCntRetry n)).setBit (aFabErr n) 0

/-- The request that a retried packet carries is marked. -/
def State.retryReq (s : State) (pkt : Packet) : State :=
  if opIsRequest (pOp pkt) then
    match tabFind s.fab.reqs (pTag pkt) with
    | some r => { s with fab := { s.fab with reqs := tabPut s.fab.reqs (pTag pkt) { r with retried := true } } }
    | none => s
  else s

/-- The running step of a retried ring packet's context takes note of it. -/
def State.retryStep (s : State) (pkt : Packet) : State :=
  if pVc pkt == 3 || pVc pkt == 4 then
    match s.running (pCtx pkt) with
    | some t => s.noteRetry t.desc.ctx t.desc.step 1
    | none => s
  else s

/-- So does the running collective of a retried VC5 packet. -/
def State.retryCol (s : State) (pkt : Packet) : State :=
  if pVc pkt == 5 then
    match tabFind s.col.groups (fld (pAddr pkt) 11 0) with
    | some gr => { s with col := { s.col with
        groups := tabPut s.col.groups (fld (pAddr pkt) 11 0) { gr with
          run := gr.run.map (fun (r : ColRun) => { r with retried := true }) } } }
    | none => s
  else s

section Retry

variable (s : State) (n : Nat) (pkt : Packet)

theorem State.retryCounted_effect : (s.retryCounted n).reg (aFabCntRetry n) = s.reg (aFabCntRetry n) + 1 ∧
    (s.retryCounted n).flag (aFabErr n) 0 = true ∧ SameRegsBut [aFabCntRetry n, aFabErr n] s (s.retryCounted n) ∧
    (s.retryCounted n).fab = s.fab ∧ (s.retryCounted n).rgm = s.rgm ∧ SameMemory s (s.retryCounted n) := by
  unfold State.retryCounted
  refine ⟨?_, State.flag_setBit _ _ (by decide), fun a ha => ?_, State.setBit_fab _ _ _, State.setBit_rgm _ _ _,
    ⟨rfl, rfl, rfl, rfl, rfl⟩⟩
  · exact (State.reg_setReg_other _ _ (by unfold aFabCntRetry aFabErr; omega)).trans (s.reg_bump_same _)
  · have hne : a ≠ aFabCntRetry n ∧ a ≠ aFabErr n := by simpa using ha
    exact (State.reg_setReg_other _ _ hne.2).trans (s.reg_bump_other hne.1)

theorem State.retryReq_effect : (s.retryReq pkt).regs = s.regs ∧ (s.retryReq pkt).rgm = s.rgm ∧
    SameMemory s (s.retryReq pkt) ∧
    (opIsRequest (pOp pkt) = true → tabFind (s.retryReq pkt).fab.reqs (pTag pkt) =
      (tabFind s.fab.reqs (pTag pkt)).map (fun r => { r with retried := true })) := by
  unfold State.retryReq
  split
  · cases hreq : tabFind s.fab.reqs (pTag pkt) with
    | some r => exact ⟨rfl, rfl, ⟨rfl, rfl, rfl, rfl, rfl⟩, fun _ => tabFind_tabPut_same _ _ _⟩
    | none => exact ⟨rfl, rfl, .refl s, fun _ => hreq⟩
  · next h => exact ⟨rfl, rfl, .refl s, fun hop => absurd hop h⟩

theorem State.retryStep_effect : (s.retryStep pkt).regs = s.regs ∧ (s.retryStep pkt).fab = s.fab ∧
    SameMemory s (s.retryStep pkt) ∧ (pVc pkt = 3 ∨ pVc pkt = 4 → ∀ u, s.running (pCtx pkt) = some u →
      StepHas (s.retryStep pkt) (pCtx pkt) u.desc.step (fun w => w.retry = true ∧ w.retries = u.retries + 1)) := by
  unfold State.retryStep
  split
  · cases hrun : s.running (pCtx pkt) with
    | some u =>
      refine ⟨rfl, rfl, s.modStep_sameMemory _ _ _, fun _ v hv => ?_⟩
      obtain rfl := Option.some.inj hv
      obtain ⟨hmem, hctx⟩ := State.running_some hrun
      have hlisted : StepHas s (pCtx pkt) u.desc.step (· = u) := stepHas_of_mem hmem hctx rfl
      rw [← hctx] at hlisted ⊢
      exact hlisted.modStep (fun _ => rfl) fun w hw => ⟨rfl, by rw [hw]⟩
    | none => exact ⟨rfl, rfl, .refl s, fun _ _ hv => by cases hv⟩
  · next h =>
    refine ⟨rfl, rfl, .refl s, fun hvc => absurd ?_ h⟩
    simpa using hvc

theorem State.retryCol_effect : (s.retryCol pkt).regs = s.regs ∧ (s.retryCol pkt).fab = s.fab ∧
    (s.retryCol pkt).rgm = s.rgm ∧ SameMemory s (s.retryCol pkt) := by
  unfold State.retryCol
  split
  · cases tabFind s.col.groups (fld (pAddr pkt) 11 0) with
    | some gr => exact ⟨rfl, rfl, rfl, rfl, rfl, rfl, rfl, rfl⟩
    | none => exact ⟨rfl, rfl, rfl, .refl s⟩
  · exact ⟨rfl, rfl, rfl, .refl s⟩

variable {s n}

theorem State.linkRetry_runs (hn : n < 16) :
    exec (.linkRetry n pkt) s = .next ((((s.retryCounted n).retryReq pkt).retryStep pkt).retryCol pkt) := by
  have hport : ¬n ≥ 16 := by omega
  have hcol (u : State) : (if pVc pkt == 5 then
      match tabFind u.col.groups (fld (pAddr pkt) 11 0) with
      | some gr => Host.Outcome.next { u with col := { u.col with
          groups := tabPut u.col.groups (fld (pAddr pkt) 11 0) { gr with
            run := gr.run.map (fun (r : ColRun) => { r with retried := true }) } } }
      | none => .next u
    else .next u : Out) = .next (u.retryCol pkt) := by
    unfold State.retryCol
    split
    · cases tabFind u.col.groups (fld (pAddr pkt) 11 0) <;> rfl
    · rfl
  exact (if_neg hport).trans (hcol (((s.retryCounted n).retryReq pkt).retryStep pkt))

theorem State.linkRetry_completes (hn : n < 16) : Completes (.linkRetry n pkt) s (fun t =>
    t.reg (aFabCntRetry n) = s.reg (aFabCntRetry n) + 1 ∧ t.flag (aFabErr n) 0 = true ∧
    SameRegsBut [aFabCntRetry n, aFabErr n] s t ∧ SameMemory s t ∧
    (opIsRequest (pOp pkt) = true →
      tabFind t.fab.reqs (pTag pkt) = (tabFind s.fab.reqs (pTag pkt)).map (fun r => { r with retried := true })) ∧
    (pVc pkt = 3 ∨ pVc pkt = 4 → ∀ u, s.running (pCtx pkt) = some u → StepHas t (pCtx pkt) u.desc.step (fun w =>
      w.retry = true ∧ w.retries = u.retries + 1))) := by
  obtain ⟨hcount, herr, hregs, hfab, hrgm, hmem⟩ := s.retryCounted_effect n
  obtain ⟨hr1, hg1, hm1, hreq⟩ := (s.retryCounted n).retryReq_effect pkt
  obtain ⟨hr2, hf2, hm2, hstep⟩ := ((s.retryCounted n).retryReq pkt).retryStep_effect pkt
  obtain ⟨hr3, hf3, hg3, hm3⟩ := (((s.retryCounted n).retryReq pkt).retryStep pkt).retryCol_effect pkt
  have hall (a : Nat) := State.reg_congr (hr3.trans (hr2.trans hr1)) a
  refine ⟨_, State.linkRetry_runs pkt hn, (hall _).trans hcount, (State.flag_congr (hall _) 0).trans herr,
    fun a ha => (hall a).trans (hregs a ha), ((hmem.trans hm1).trans hm2).trans hm3, fun hop => ?_, fun hvc u hu => ?_⟩
  · rw [hf3, hf2, hreq hop, hfab]
  · have hrun : ((s.retryCounted n).retryReq pkt).running (pCtx pkt) = some u := by
      rw [State.running, hg1, hrgm]
      exact hu
    obtain ⟨w, hw, hp⟩ := hstep hvc u hrun
    exact ⟨w, by rwa [hg3], hp⟩

end Retry

/-- Settles O33: each event by what it changes of its own port, and what the mapping that follows leaves of it. -/
theorem linksComeUpAndGoDown : Obligations.LinksComeUpAndGoDown := by
  unfold Obligations.LinksComeUpAndGoDown
  intro s n hn leaving asked
  refine ⟨?_, State.linkDown_completes hn, fun hopen hdark => ⟨?_, State.portRtsReq_refused, ?_⟩,
    fun hremap => ⟨State.portRemap_completes hn hremap, fun hold => ?_⟩, fun pkt => State.linkRetry_completes pkt hn, fun pkt => ?_⟩
  · intro gen hlo hhi hlink hreset hisl hboot hleave
    exact State.linkUp_completes hn hlo hhi hlink hreset hisl hboot hleave
  · exact State.portRtsReq_completes hn hopen hdark
  · exact State.portOosReq_completes hn hopen hdark
  · rw [show exec .portRemap s = execPortRemap s from rfl, execPortRemap, State.remapNow, hremap, hold]
    rfl
  · exact ⟨_, rfl, rfl, rfl, fun _ _ => rfl, rfl, rfl, rfl, rfl, rfl⟩

end Sys2Proof.Machine
end

section
/-! Messages of the fabric manager (R396 to R398, R406, R517): changes of ownership, applied in order, and teardown. -/

namespace Sys2Proof.Machine

/-! ## A change of ownership (R397, R398) -/

/-- What an ownership change may leave changed: host memory, the table's length and the cache; it comes out 0 or 2. -/
structure OwnChanged (port : Nat) (s : State) (r : Nat × State) : Prop where
  outcome : r.1 < 4
  replies : RepliesAs port s r.2
  out : r.2.fab.out = s.fab.out
  owns : r.2.fab.owns = s.fab.owns

theorem RepliesAs.setOwnCount (s : State) (port hi lo v : Nat) : RepliesAs port s (s.setF aMsfOwnCount hi lo v) := by
  have hfar (n : Nat) : aFabState n ≠ aMsfOwnCount := by unfold aFabState aMsfOwnCount; omega
  exact .setReg s _ (hfar port) (fun n _ => hfar n) (by decide) (by decide) (by decide)

section Change

variable {s u : State} {port outcome : Nat}

theorem OwnChanged.of_same (ho : outcome < 4) (hr : u.regs = s.regs) (hm : u.rgm = s.rgm) (hp : u.pwr = s.pwr)
    (hout : u.fab.out = s.fab.out) (howns : u.fab.owns = s.fab.owns) : OwnChanged port s (outcome, u) :=
  ⟨ho, .of_same hr hm hp, hout, howns⟩

/-- The table has another length. -/
theorem OwnChanged.setCount (h : OwnChanged port s (outcome, u)) (v : Nat) :
    OwnChanged port s (outcome, u.setF aMsfOwnCount 20 0 v) :=
  ⟨h.outcome, h.replies.trans (.setOwnCount u port 20 0 v), h.out, h.owns⟩

/-- The cache is no part of it. -/
theorem OwnChanged.cached {v : State} (h : OwnChanged port s (outcome, u)) (hv : CacheOnly u v) :
    OwnChanged port s (outcome, v) := by
  obtain ⟨_, rfl⟩ := hv
  exact ⟨h.outcome, h.replies.trans (.of_same rfl rfl rfl), h.out, h.owns⟩

theorem OwnChanged.of_cached (ho : outcome < 4) (hu : CacheOnly s u) : OwnChanged port s (outcome, u) :=
  (OwnChanged.of_same (u := s) ho rfl rfl rfl rfl rfl).cached hu

theorem OwnChanged.hbmWrite (h : OwnChanged port s (outcome, u)) (a : Nat) (bs : Bytes) :
    OwnChanged port s (outcome, u.hbmWrite a bs) :=
  ⟨h.outcome, h.replies.trans (.of_same rfl rfl rfl), h.out, h.owns⟩

end Change

theorem State.ownFill_only (s : State) (region entry : Nat) : CacheOnly s (s.ownFill region entry) := ⟨_, rfl⟩

theorem State.ownChange_changes (s : State) (port entry : Nat) : OwnChanged port s (s.ownChange entry) := by
  have hkept (o : Nat) (ho : o < 4) : OwnChanged port s (o, s) := .of_cached ho (.refl s)
  have hdrop (p : Nat × Nat → Bool) : OwnChanged port s (0, { s with fab := { s.fab with ownCache := s.fab.ownCache.filter p } }) :=
    .of_cached (by decide) ⟨_, rfl⟩
  unfold State.ownChange
  dsimp only
  split
  · exact hkept 2 (by decide)
  split
  · split
    · exact ((hdrop _).hbmWrite _ _).setCount _
    · exact hdrop _
  split
  · exact ((hkept 0 (by decide)).hbmWrite _ _).cached (State.ownFill_only _ _ _)
  split
  · exact hkept 2 (by decide)
  · exact (((hkept 0 (by decide)).hbmWrite _ _).setCount _).cached (State.ownFill_only _ _ _)

/-! ## Its acknowledgement -/

theorem State.sendOn_sameMemory (s : State) (n : Nat) (p : Packet) : SameMemory s (s.sendOn n p) := by
  unfold State.sendOn
  split
  · exact .refl s
  · simp [SameMemory]

/-- An ACK on any port leaves memory, and the length of the ownership table. -/
theorem RepliesAs.ack_keeps {port : Nat} {s u : State} (h : RepliesAs port s u) (p : Packet) {outcome : Nat} (ho : outcome < 4) :
    SameMemory u (u.ackTo_ port p outcome) ∧ (u.ackTo_ port p outcome).reg aMsfOwnCount = u.reg aMsfOwnCount := by
  rw [State.ackTo_, h.reply_eq (data := []) false (by decide) ho (by decide) (by decide)]
  cases s.replyPort port p with
  | none => exact ⟨.refl u, rfl⟩
  | some n => exact ⟨u.sendOn_sameMemory n _, u.sendOn_reg n _ (by decide) (by unfold aMsfOwnCount aFabCntTxpkt; omega)
      (by unfold aMsfOwnCount aFabCntTxbyte; omega)⟩

section Own

variable {s : State} {port : Nat} {pkt : Packet}

/-- An OWN that arrives waits behind the others. -/
theorem State.own_waits (hhear : s.hears port pkt = true) (hop : pOp pkt = 0x3E) : Completes (.own port pkt) s (fun t =>
    t.fab.owns = s.fab.owns ++ [(port, pkt)] ∧ t.fab.out = s.fab.out ∧ SameMemory s t) := by
  have hfab := s.countRx_fab port pkt
  have hrun : exec (.own port pkt) s = .next { s.countRx port pkt with fab := { (s.countRx port pkt).fab with
      owns := (s.countRx port pkt).fab.owns ++ [(port, pkt)] } } := by
    rw [show exec (.own port pkt) s = execOwn port pkt s from rfl, execOwn, State.receive_heard hhear (by rw [hop]; rfl)]
  have hmem := s.countRx_sameMemory pkt (State.hears_port hhear)
  refine ⟨_, hrun, ?_, (congrArg Fab.out hfab : (s.countRx port pkt).fab.out = s.fab.out), hmem⟩
  rw [hfab]

/-- The state without an OWN that waited. -/
def State.ownTaken (s : State) (port : Nat) (pkt : Packet) : State :=
  { s with fab := { s.fab with owns := s.fab.owns.erase (port, pkt) } }

variable (hnext : s.fab.owns.find? (fun e => !s.writesTo (fieldAt e.2.data 0 4 % 2 ^ 25)) = some (port, pkt))
  (htalk : s.mayTalk = true)

include hnext

/-- The oldest OWN whose region has no write outstanding is applied, or refused for its reserved bytes. -/
theorem State.ownApply_runs : exec .ownApply s = .next (
    let r := if (pkt.data.drop 8).all (· == 0) then (s.ownTaken port pkt).ownChange (fieldAt pkt.data 0 8)
      else (2, s.ownTaken port pkt)
    r.2.ackTo_ port pkt r.1) := by
  rw [show exec .ownApply s = execOwnApply s from rfl, execOwnApply, hnext]
  rfl

include htalk

omit hnext in
/-- What it leaves once its change r is made. -/
theorem State.ownApply_answers {r : Nat × State} (hchange : OwnChanged port (s.ownTaken port pkt) r)
    (hrun : exec .ownApply s = .next (r.2.ackTo_ port pkt r.1)) : Completes .ownApply s (fun t =>
      t.fab.owns = s.fab.owns.erase (port, pkt) ∧ SameMemory r.2 t ∧ t.f aMsfOwnCount 20 0 = r.2.f aMsfOwnCount 20 0 ∧
      RepliedWith s t port pkt 0x21 r.1 false 0 []) := by
  have htaken : RepliesAs port s (s.ownTaken port pkt) := .of_same rfl rfl rfl
  have hreplies := htaken.trans hchange.replies
  have hfab := hreplies.reply_fab (p := pkt) (op := 0x21) (addr := 0) (data := []) false htalk (by decide) hchange.outcome
    (by decide) (by decide)
  obtain ⟨hmem, hcount⟩ := hreplies.ack_keeps pkt hchange.outcome
  exact ⟨_, hrun, (congrArg Fab.owns hfab).trans hchange.owns, hmem, State.f_congr hcount _ _,
    hreplies.replied false htalk (by decide) hchange.outcome (by decide) (by decide) hchange.out⟩

theorem State.ownApply_applies (hreserved : (pkt.data.drop 8).all (· == 0) = true) :
    let r := (s.ownTaken port pkt).ownChange (fieldAt pkt.data 0 8)
    Completes .ownApply s (fun t => t.fab.owns = s.fab.owns.erase (port, pkt) ∧ t.hbm = r.2.hbm ∧
      t.f aMsfOwnCount 20 0 = r.2.f aMsfOwnCount 20 0 ∧ RepliedWith s t port pkt 0x21 r.1 false 0 []) := by
  intro r
  have hrun := State.ownApply_runs hnext
  simp only [hreserved, if_true] at hrun
  obtain ⟨t, ht, howns, ⟨hhbm, -⟩, hcount, hreply⟩ := State.ownApply_answers htalk (State.ownChange_changes _ _ _) hrun
  exact ⟨t, ht, howns, hhbm, hcount, hreply⟩

theorem State.ownApply_refuses (hreserved : (pkt.data.drop 8).all (· == 0) = false) :
    Completes .ownApply s (fun t => t.fab.owns = s.fab.owns.erase (port, pkt) ∧ SameMemory s t ∧
      RepliedWith s t port pkt 0x21 2 false 0 []) := by
  have hrun := State.ownApply_runs hnext
  simp only [hreserved, Bool.false_eq_true, if_false] at hrun
  obtain ⟨t, ht, howns, hmem, -, hreply⟩ := State.ownApply_answers htalk (r := (2, s.ownTaken port pkt))
    (.of_cached (by decide) (.refl _)) hrun
  exact ⟨t, ht, howns, hmem, hreply⟩

end Own

/-! ## Teardown (R406, R517) -/

/-- A teardown message under the teardown policy faults its context. -/
theorem State.fmTeardown_faults {s : State} {port : Nat} {pkt : Packet} (hhear : s.hears port pkt = true) (hop : pOp pkt = 0x3C)
    (hkind : pAddr pkt % 256 = fmTeardownKind) (hpolicy : s.flag aMsfCtrl 7 = true) (hlive : s.ctxState (pCtx pkt) ∉ [0, 7]) :
    Completes (.fmTeardown port pkt) s (fun t => t.ctxState (pCtx pkt) = 7 ∧ t.f (aCtxCmd (pCtx pkt)) 15 8 = 2) := by
  have hctx := pCtx_lt pkt
  have hmine : (pOp pkt == 0x3C && pAddr pkt % 256 == fmTeardownKind) = true := by simp [hop, hkind]
  have hflag : (s.countRx port pkt).flag aMsfCtrl 7 = true :=
    (State.flag_congr (s.countRx_reg_of_lt pkt (by decide) (by unfold aMsfCtrl aFabCntRxpkt; omega)) 7).trans hpolicy
  have hrun : exec (.fmTeardown port pkt) s = .next ((s.countRx port pkt).faultCtx (pCtx pkt) 2) := by
    refine (State.receive_heard (mine := fun _ => pOp pkt == 0x3C && pAddr pkt % 256 == fmTeardownKind) hhear hmine).trans ?_
    rw [hflag]
    rfl
  have hstate : (s.countRx port pkt).ctxState (pCtx pkt) = s.ctxState (pCtx pkt) :=
    State.f_congr (s.countRx_reg_of_lt pkt (by unfold aCtxCmd; omega) (by unfold aCtxCmd aFabCntRxpkt; omega)) _ _
  exact ⟨_, hrun, State.faultCtx_faults (s.countRx port pkt) (cause := 2) hctx (hstate ▸ hlive)⟩

/-- Settles O34: OWN by its receipt and by what its change may leave changed, teardown by what CTX_CMD reads after it. -/
theorem fabricManagerMessages : Obligations.FabricManagerMessages := by
  unfold Obligations.FabricManagerMessages
  intro s port pkt
  exact ⟨State.own_waits, State.ownApply_applies, State.ownApply_refuses, State.fmTeardown_faults⟩

end Sys2Proof.Machine
end

section
/-! Rings (R425 to R440): a ring packet acts on the state that has counted it, which its owner or origin reads as it was.
Buffers given back leave what the rings hold, and
a row that is whole changes only the state of its records. -/

namespace Sys2Proof.Machine

/-! ## What the count of a packet leaves of what a ring reads (R410) -/

section Counted

variable (s : State) (n : Nat) (p : Packet)

@[simp] theorem State.countRx_ring : (s.countRx n p).ring = s.ring := by
  unfold State.countRx
  dsimp only
  split
  · rfl
  · exact State.accAdd_ring _ _ _ _

@[simp] theorem State.countRx_rgm : (s.countRx n p).rgm = s.rgm := by
  unfold State.countRx
  dsimp only
  split
  · rfl
  · exact State.accAdd_rgm _ _ _ _

@[simp] theorem State.countRx_car : (s.countRx n p).car = s.car := by
  unfold State.countRx
  dsimp only
  split
  · rfl
  · exact State.accAdd_car _ _ _ _

@[simp] theorem State.countRx_ctxs : (s.countRx n p).ctxs = s.ctxs := by
  unfold State.countRx
  dsimp only
  split
  · rfl
  · exact State.accAdd_ctxs _ _ _ _

@[simp] theorem State.countRx_ctxState : (s.countRx n p).ctxState (pCtx p) = s.ctxState (pCtx p) := by
  have hctx := pCtx_lt p
  exact State.f_congr (s.countRx_reg_of_lt p (by unfold aCtxCmd; omega) (by unfold aCtxCmd aFabCntRxpkt; omega)) _ _

@[simp] theorem State.countRx_ctxLoaded : (s.countRx n p).ctxLoaded (pCtx p) = s.ctxLoaded (pCtx p) := by
  simp [State.ctxLoaded]

@[simp] theorem State.countRx_ctxPart : (s.countRx n p).ctxPart (pCtx p) = s.ctxPart (pCtx p) := by
  have hctx := pCtx_lt p
  exact State.f_congr (s.countRx_reg_of_lt p (by unfold aCtxCfg; omega) (by unfold aCtxCfg aFabCntRxpkt; omega)) _ _

@[simp] theorem State.countRx_srcOf (x : Nat) : (s.countRx n p).srcOf x = s.srcOf x := by
  have htwin : (s.countRx n p).f aTwnState 29 16 = s.f aTwnState 29 16 :=
    State.f_congr (s.countRx_reg_of_lt p (by decide) (by unfold aTwnState aFabCntRxpkt; omega)) _ _
  rw [State.srcOf, State.srcOf, State.ctx, State.ctx, s.countRx_ctxs, htwin, s.countRx_chip]

@[simp] theorem State.countRx_stepLow (x k low : Nat) : (s.countRx n p).stepLow x k low = s.stepLow x k low := by
  simp [State.stepLow]

@[simp] theorem State.countRx_closeOf (x step src layer e : Nat) :
    (s.countRx n p).closeOf x step src layer e = s.closeOf x step src layer e := by
  simp [State.closeOf]

@[simp] theorem State.countRx_recsFrom (x step src layer e : Nat) :
    (s.countRx n p).recsFrom x step src layer e = s.recsFrom x step src layer e := by
  simp [State.recsFrom]

@[simp] theorem State.countRx_ringRecBad (t : Step) (r : RingRec) : (s.countRx n p).ringRecBad t r = s.ringRecBad t r := by
  simp [State.ringRecBad]

@[simp] theorem State.countRx_stepOf (x : Nat) (step : Word) : (s.countRx n p).stepOf x step = s.stepOf x step := by
  simp [State.stepOf]

@[simp] theorem State.countRx_isRemote (t : Step) (layer e : Nat) :
    (s.countRx n p).isRemote t layer e = s.isRemote t layer e := by
  simp only [State.isRemote, State.memberOf, State.countRx_srcOf]

@[simp] theorem State.countRx_matchRing : (s.countRx n p).matchRing p = s.matchRing p := by
  simp only [State.matchRing, State.countRx_car, State.countRx_ctxPart, State.countRx_stepOf, State.countRx_isRemote]

end Counted

/-! ## What buffers given back and packets sent leave of the rings (R339, R432) -/

@[simp] theorem State.freeAll_ring (s : State) (hs : List Nat) : (s.freeAll hs).ring = s.ring := by
  obtain ⟨⟨_, _, _, _, _, _, h⟩, -⟩ := s.freeAll_only hs
  rw [h]

@[simp] theorem State.sendWdraw_ring (s : State) (r : RingRec) (poison : Bool) : (s.sendWdraw r poison).ring = s.ring := by
  obtain ⟨_, _, h, -⟩ := s.sendKept_only
    ⟨nalHdr 4 0x2D (s.srcOf r.ctx) r.src r.ctx 0 (bit poison) 0 (r.returnAddr 0 0) (r.step % 2 ^ 17) 0, []⟩
  rw [State.sendWdraw, h]

@[simp] theorem State.ringTrim_recs (s : State) (x : Nat) : (s.ringTrim x).ring.recs = s.ring.recs := by
  simp [State.ringTrim]

@[simp] theorem State.useRow_recs (s : State) (r : RingRec) : (s.useRow r).ring.recs = s.ring.recs := by
  simp [State.useRow]

/-! ## Records that meet their row (R433, R434, R439) -/

/-- A record that is settled stays listed, with its state alone changed. -/
theorem State.settleRec_mem {s : State} {r : RingRec} (h : r ∈ s.ring.recs) :
    ∃ k, { r with state := k } ∈ (s.settleRec r).ring.recs := by
  unfold State.settleRec
  split
  · exact ⟨r.state, h⟩
  · split
    · exact ⟨r.state, h⟩
    · split
      · refine ⟨3, ?_⟩
        rw [State.useRow_recs, State.sendWdraw_ring]
        exact List.mem_map.2 ⟨r, h, if_pos (beq_self_eq_true r)⟩
      · split
        · exact ⟨1, List.mem_append_right _ (List.mem_singleton_self _)⟩
        · exact ⟨r.state, h⟩

/-- Settling a record whose row is not poisoned leaves the rows. -/
theorem State.settleRec_rows {s : State} {r : RingRec} (h : ∀ w, s.rowOf r = some w → w.poison = false) :
    (s.settleRec r).ring.rows = s.ring.rows := by
  unfold State.settleRec
  split
  · rfl
  · next w hw =>
    rw [h w hw, if_neg Bool.false_ne_true]
    split
    · rfl
    · split <;> rfl

/-- Settling the records of one row leaves the rows, where that row is not poisoned. -/
theorem State.settleRow_rows {s : State} {x handle step8 : Nat}
    (h : ∀ w ∈ s.ring.rows, w.ctx = x → w.handle = handle → w.step = step8 → w.poison = false) :
    (s.settleRow x handle step8).ring.rows = s.ring.rows := by
  have hfold (l : List RingRec) (hl : ∀ r ∈ l, r.ctx = x ∧ r.handle = handle ∧ r.step % 256 = step8) (u : State)
      (hu : u.ring.rows = s.ring.rows) : (l.foldl State.settleRec u).ring.rows = s.ring.rows := by
    induction l generalizing u with
    | nil => exact hu
    | cons r l ih =>
      obtain ⟨hctx, hhandle, hstep⟩ := hl r (List.mem_cons_self ..)
      refine ih (fun q hq => hl q (List.mem_cons_of_mem _ hq)) _ ((State.settleRec_rows fun w hw => ?_).trans hu)
      have hmem := List.mem_of_find?_eq_some hw
      have hof := List.find?_some hw
      simp only [RingRow.of, Bool.and_eq_true, beq_iff_eq] at hof
      obtain ⟨⟨hc, hh⟩, hs⟩ := hof
      exact h w (hu ▸ hmem) (hc.trans hctx) (hh.trans hhandle) (hs.trans hstep)
  refine hfold _ (fun r hr => ?_) s rfl
  simp only [List.mem_filter, Bool.and_eq_true, beq_iff_eq] at hr
  obtain ⟨-, ⟨⟨hctx, hhandle⟩, hstep⟩, -⟩ := hr
  exact ⟨hctx, hhandle, hstep⟩

/-! ## At the owner (R426, R428, R429, R432, R433, R440) -/

/-- The record of an RHDR (R426). -/
def rhdrRec (pkt : Packet) : RingRec where
  ctx := pCtx pkt
  step := hdrStep (BitVec.ofNat 256 (fieldAt pkt.data 0 32))
  src := pSrc pkt
  hdr := BitVec.ofNat 256 (fieldAt pkt.data 0 32)
  choice := fieldAt pkt.data 32 1 % 32
  bgen := fieldAt pkt.data 34 2
  nch := fieldAt pkt.data 36 1
  epoch := fieldAt pkt.data 40 4
  state := 0
  lines := []

/-- A record of the same choice is held. -/
def State.holdsChoice (s : State) (r : RingRec) : Bool :=
  s.ring.recs.any (fun q => q.ctx == r.ctx && q.step == r.step && q.handle == r.handle && q.expert == r.expert)

/-- An RCLOSE that came leaves no room for one more record. -/
def State.closeFull (s : State) (r : RingRec) : Bool :=
  (s.closeOf r.ctx r.step r.src (handleLayer r.handle) r.expert).any (fun c =>
    decide (c.count ≤ (s.recsFrom r.ctx r.step r.src (handleLayer r.handle) r.expert).length))

/-- The RCLOSE that came, if any, announces more records than came. -/
def State.closeAdmits (s : State) (r : RingRec) : Bool :=
  (s.closeOf r.ctx r.step r.src (handleLayer r.handle) r.expert).all (fun c =>
    decide ((s.recsFrom r.ctx r.step r.src (handleLayer r.handle) r.expert).length < c.count))

theorem State.closeFull_of_admits {s : State} {r : RingRec} (h : s.closeAdmits r = true) : s.closeFull r = false := by
  simpa [State.closeFull, State.closeAdmits, Option.all_eq_true, Option.any_eq_false] using h

@[simp] theorem State.countRx_holdsChoice (s : State) (n : Nat) (p : Packet) (r : RingRec) :
    (s.countRx n p).holdsChoice r = s.holdsChoice r := by
  simp only [State.holdsChoice, State.countRx_ring]

@[simp] theorem State.countRx_closeFull (s : State) (n : Nat) (p : Packet) (r : RingRec) :
    (s.countRx n p).closeFull r = s.closeFull r := by
  simp only [State.closeFull, State.countRx_closeOf, State.countRx_recsFrom]

/-- A record is held, and settled if its row has come. -/
def State.holdRec (s : State) (r : RingRec) : State :=
  ({ s with ring := { s.ring with recs := s.ring.recs ++ [r] } }).settleRec r

/-- What an RHDR does, by its record. -/
theorem State.takeRhdr_eq (s : State) (port : Nat) (pkt : Packet) :
    s.takeRhdr port pkt =
      if !s.ctxLoaded (pCtx pkt) || s.holdsChoice (rhdrRec pkt) || s.closeFull (rhdrRec pkt) ||
        (s.stepLow (pCtx pkt) 32 (rhdrRec pkt).step).any (fun t => s.ringRecBad t (rhdrRec pkt)) then s.ringFault (pCtx pkt)
      else (s.ringRoom (pCtx pkt) 1).elim (s.ringWait port pkt) (fun u => u.holdRec (rhdrRec pkt)) := by
  change ite _ _ (match s.ringRoom (pCtx pkt) 1 with
    | none => _
    | some u => _) = _
  cases s.ringRoom (pCtx pkt) 1 <;> rfl

/-- A held record is listed with what its header says of it. -/
theorem State.holdRec_mem (s : State) (r : RingRec) : ∃ k, { r with state := k } ∈ (s.holdRec r).ring.recs :=
  State.settleRec_mem (List.mem_append_right _ (List.mem_singleton_self r))

/-- Handle, step and first line of an RROW (R428). -/
def rrowHandle (pkt : Packet) : Nat := cleanHandle (pAddr pkt)
def rrowStep (pkt : Packet) : Nat := fld (pTag pkt) 16 9
def rrowFirst (pkt : Packet) : Nat := fld (pTag pkt) 8 0

/-- The row that an RROW carries lines of. -/
def RingRow.carried (pkt : Packet) (w : RingRow) : Bool :=
  w.ctx == pCtx pkt && w.handle == rrowHandle pkt && w.step == rrowStep pkt

/-- The row that an RROW adds to: the one held, or an empty one. -/
def State.rrowRow (s : State) (pkt : Packet) : RingRow :=
  (s.ring.rows.find? (RingRow.carried pkt)).getD {
    ctx := pCtx pkt, src := pSrc pkt, handle := rrowHandle pkt, step := rrowStep pkt, lines := [], seen := []
    freed := false, poison := false, used := 0 }

@[simp] theorem State.countRx_rrowRow (s : State) (n : Nat) (pkt : Packet) :
    (s.countRx n pkt).rrowRow pkt = s.rrowRow pkt := by
  simp only [State.rrowRow, State.countRx_ring]

/-- A row with the lines of an RROW. -/
def RingRow.take (w : RingRow) (pkt : Packet) : RingRow :=
  { w with
    lines := if w.freed then [] else (List.range (pLen pkt)).foldl (fun (m : Tab Bytes) i =>
      tabPut m (rrowFirst pkt + i) (sliceBytes pkt.data (128 * i) 128)) w.lines
    seen := (List.range (pLen pkt)).foldl (fun m i => setInsert m (rrowFirst pkt + i)) w.seen
    poison := w.poison || pPoison pkt }

/-- A row is held in place of the one of its name, and its records are settled. -/
def State.holdRow (s : State) (pkt : Packet) (w : RingRow) : State :=
  ({ s with ring := { s.ring with rows := s.ring.rows.filter (fun (v : RingRow) => !v.carried pkt) ++ [w] } }).settleRow
    (pCtx pkt) (rrowHandle pkt) (rrowStep pkt)

/-- What an RROW does, by its row. -/
theorem State.takeRrow_eq (s : State) (port : Nat) (pkt : Packet) :
    s.takeRrow port pkt =
      if !s.ctxLoaded (pCtx pkt) ||
        (List.range (pLen pkt)).any (fun i => (s.rrowRow pkt).seen.contains (rrowFirst pkt + i)) ||
        (s.stepLow (pCtx pkt) 8 (rrowStep pkt)).any (fun t => !ringMember t.place (pSrc pkt)) then s.ringFault (pCtx pkt)
      else (s.ringRoom (pCtx pkt) (if (s.rrowRow pkt).freed then 0 else pLen pkt)).elim (s.ringWait port pkt) (fun u =>
        u.holdRow pkt ((s.rrowRow pkt).take pkt)) := by
  change ite _ _ (match s.ringRoom (pCtx pkt) (if (s.rrowRow pkt).freed then 0 else pLen pkt) with
    | none => _
    | some u => _) = _
  cases s.ringRoom (pCtx pkt) (if (s.rrowRow pkt).freed then 0 else pLen pkt) <;> rfl

theorem RingRow.carried_iff {w : RingRow} {pkt : Packet} :
    w.carried pkt = true ↔ w.ctx = pCtx pkt ∧ w.handle = rrowHandle pkt ∧ w.step = rrowStep pkt := by
  simp [RingRow.carried, and_assoc]

theorem State.rrowRow_carried (s : State) (pkt : Packet) : (s.rrowRow pkt).carried pkt = true := by
  unfold State.rrowRow
  cases h : s.ring.rows.find? (RingRow.carried pkt) with
  | none => exact RingRow.carried_iff.2 ⟨rfl, rfl, rfl⟩
  | some w => exact List.find?_some h

/-- A row holds what comes: it is neither poisoned nor freed, and none of the packet's lines has come before. -/
def RingRow.Takes (w : RingRow) (pkt : Packet) : Prop :=
  w.poison = false ∧ w.freed = false ∧ ∀ i < pLen pkt, w.seen.contains (rrowFirst pkt + i) = false

theorem State.rrowRow_takes {s : State} {pkt : Packet}
    (h : ∀ w, s.ring.rows.find? (RingRow.carried pkt) = some w → w.Takes pkt) : (s.rrowRow pkt).Takes pkt := by
  unfold State.rrowRow
  cases hrow : s.ring.rows.find? (RingRow.carried pkt) with
  | none => exact ⟨rfl, rfl, fun _ _ => rfl⟩
  | some w => exact h w hrow

/-- A row that is not poisoned stays when its records are settled. -/
theorem State.holdRow_mem {s : State} {pkt : Packet} {w : RingRow} (hw : w.poison = false) :
    w ∈ (s.holdRow pkt w).ring.rows := by
  rw [State.holdRow, State.settleRow_rows]
  · exact List.mem_append_right _ (List.mem_singleton_self w)
  · intro v hv hctx hhandle hstep
    obtain hv | hv := List.mem_append.1 hv
    · have hother := (List.mem_filter.1 hv).2
      rw [RingRow.carried_iff.2 ⟨hctx, hhandle, hstep⟩] at hother
      cases hother
    · rw [List.mem_singleton.1 hv, hw]

/-- Values put one after the other are found. -/
theorem tabFind_putRange {α : Type} (first : Nat) (f : Nat → α) (t : Tab α) {n i : Nat} (h : i < n) :
    tabFind ((List.range n).foldl (fun m j => tabPut m (first + j) (f j)) t) (first + i) = some (f i) := by
  induction n with
  | zero => omega
  | succ n ih =>
    rw [List.range_succ, List.foldl_append, List.foldl_cons, List.foldl_nil]
    by_cases hi : i = n
    · rw [hi, tabFind_tabPut_same]
    · rw [tabFind_tabPut_other _ _ (by omega), ih (by omega)]

theorem RingRow.take_lines {w : RingRow} (hw : w.freed = false) (pkt : Packet) {i : Nat} (h : i < pLen pkt) :
    tabFind (w.take pkt).lines (rrowFirst pkt + i) = some (sliceBytes pkt.data (128 * i) 128) := by
  rw [RingRow.take, hw]
  exact tabFind_putRange _ (fun i => sliceBytes pkt.data (128 * i) 128) _ h

/-- The lines that a row takes are held with it. -/
theorem State.holdRow_lines {s : State} {pkt : Packet} {w : RingRow} (hcarried : w.carried pkt = true)
    (htakes : w.Takes pkt) (hclean : pPoison pkt = false) :
    ∃ v ∈ (s.holdRow pkt (w.take pkt)).ring.rows,
      v.ctx = pCtx pkt ∧ v.handle = rrowHandle pkt ∧ v.step = rrowStep pkt ∧
      ∀ i < pLen pkt, tabFind v.lines (rrowFirst pkt + i) = some (sliceBytes pkt.data (128 * i) 128) := by
  obtain ⟨hctx, hhandle, hstep⟩ := RingRow.carried_iff.1 hcarried
  obtain ⟨hpoison, hfreed, -⟩ := htakes
  have htaken : (w.take pkt).poison = false := by rw [RingRow.take, hpoison, hclean]; rfl
  exact ⟨_, State.holdRow_mem htaken, hctx, hhandle, hstep, fun i hi => RingRow.take_lines hfreed pkt hi⟩

/-- A ring fault ends a loaded context (R440). -/
theorem State.ringFault_faults {s : State} {x : Nat} (hx : x < 4096) (hload : s.ctxLoaded x = true) :
    (s.ringFault x).ctxState x = 7 := by
  have hsame : (s.raise cRingProto).ctxState x = s.ctxState x := by
    obtain ⟨_, _, _, -, hreg⟩ := s.raise_only cRingProto
    exact State.f_congr (hreg _ (by unfold aCtxCmd; omega)) _ _
  refine ((s.raise cRingProto).faultCtx_faults hx ?_).1
  rw [hsame]
  simp only [State.ctxLoaded, List.contains_eq_mem, decide_eq_true_eq, List.mem_cons, List.not_mem_nil, or_false] at hload ⊢
  omega

/-- A packet that waits joins those that wait, and the rings hold what they held (R341). -/
theorem State.countRx_ringWait (s : State) (port : Nat) (pkt : Packet) :
    ((s.countRx port pkt).ringWait port pkt).ring = { s.ring with wait := s.ring.wait ++ [(port, pkt)] } :=
  congrArg (fun g : Ring => { g with wait := g.wait ++ [(port, pkt)] }) (s.countRx_ring port pkt)

/-- The close of an RCLOSE (R429). -/
def rcloseRec (pkt : Packet) : RingClose where
  ctx := pCtx pkt
  step := pTag pkt % 2 ^ 17
  src := pSrc pkt
  layer := fld (pAddr pkt) 18 11
  expert := fld (pAddr pkt) 10 0
  count := fld (pAddr pkt) 44 22

/-- A close is held. -/
def State.holdClose (s : State) (c : RingClose) : State := { s with ring := { s.ring with closes := s.ring.closes ++ [c] } }

theorem State.countRx_holdClose (s : State) (port : Nat) (pkt : Packet) (c : RingClose) :
    ((s.countRx port pkt).holdClose c).ring = { s.ring with closes := s.ring.closes ++ [c] } :=
  congrArg (fun g : Ring => { g with closes := g.closes ++ [c] }) (s.countRx_ring port pkt)

section Owner

variable {s : State} {port : Nat} {pkt : Packet} (hhear : s.hears port pkt = true) (hload : s.ctxLoaded (pCtx pkt) = true)

include hhear

theorem State.rhdr_heard (hop : pOp pkt = 0x28) :
    exec (.rhdr port pkt) s = .next ((s.countRx port pkt).takeRhdr port pkt) :=
  State.receive_heard (mine := (· == 0x28)) (k := fun u => u.takeRhdr port pkt) hhear (beq_iff_eq.2 hop)

theorem State.rrow_heard (hop : pOp pkt = 0x29) :
    exec (.rrow port pkt) s = .next ((s.countRx port pkt).takeRrow port pkt) :=
  State.receive_heard (mine := (· == 0x29)) (k := fun u => u.takeRrow port pkt) hhear (beq_iff_eq.2 hop)

include hload

theorem State.rhdr_faults (hop : pOp pkt = 0x28) (hagain : s.holdsChoice (rhdrRec pkt) = true) :
    Completes (.rhdr port pkt) s (fun u => u.ctxState (pCtx pkt) = 7) := by
  have hfault : (s.countRx port pkt).takeRhdr port pkt = (s.countRx port pkt).ringFault (pCtx pkt) := by
    rw [State.takeRhdr_eq, if_pos (by simp [hagain])]
  exact ⟨_, (State.rhdr_heard hhear hop).trans (congrArg _ hfault),
    State.ringFault_faults (pCtx_lt pkt) (by rwa [s.countRx_ctxLoaded])⟩

/-- An RHDR that breaks no rule is held where it finds its buffer, and waits where it does not. -/
theorem State.rhdr_runs (hop : pOp pkt = 0x28) (hagain : s.holdsChoice (rhdrRec pkt) = false)
    (hclose : s.closeAdmits (rhdrRec pkt) = true)
    (hgood : (s.stepLow (pCtx pkt) 32 (rhdrRec pkt).step).all (fun t => !s.ringRecBad t (rhdrRec pkt)) = true) :
    exec (.rhdr port pkt) s = .next (((s.countRx port pkt).ringRoom (pCtx pkt) 1).elim
      ((s.countRx port pkt).ringWait port pkt) (fun u => u.holdRec (rhdrRec pkt))) := by
  have hgood' : (s.stepLow (pCtx pkt) 32 (rhdrRec pkt).step).any (fun t => s.ringRecBad t (rhdrRec pkt)) = false := by
    simpa [Option.all_eq_true, Option.any_eq_false] using hgood
  rw [State.rhdr_heard hhear hop, State.takeRhdr_eq, if_neg]
  simp [hload, hagain, State.closeFull_of_admits hclose, hgood']

theorem State.rhdr_completes (hop : pOp pkt = 0x28) (hagain : s.holdsChoice (rhdrRec pkt) = false)
    (hclose : s.closeAdmits (rhdrRec pkt) = true)
    (hgood : (s.stepLow (pCtx pkt) 32 (rhdrRec pkt).step).all (fun t => !s.ringRecBad t (rhdrRec pkt)) = true) :
    (((s.countRx port pkt).ringRoom (pCtx pkt) 1).isSome = true →
      Completes (.rhdr port pkt) s (fun u => ∃ k, { rhdrRec pkt with state := k } ∈ u.ring.recs)) ∧
    ((s.countRx port pkt).ringRoom (pCtx pkt) 1 = none →
      Completes (.rhdr port pkt) s (fun u => u.ring = { s.ring with wait := s.ring.wait ++ [(port, pkt)] })) := by
  have hrun := State.rhdr_runs hhear hload hop hagain hclose hgood
  refine ⟨fun hroom => ?_, fun hnone => ?_⟩
  · obtain ⟨u, hu⟩ := Option.isSome_iff_exists.1 hroom
    rw [hu] at hrun
    exact ⟨_, hrun, u.holdRec_mem (rhdrRec pkt)⟩
  · rw [hnone] at hrun
    exact ⟨_, hrun, s.countRx_ringWait port pkt⟩

/-- An RROW that breaks no rule is held where it finds its buffers, and waits where it does not. -/
theorem State.rrow_runs (hop : pOp pkt = 0x29) (htakes : (s.rrowRow pkt).Takes pkt)
    (hgood : (s.stepLow (pCtx pkt) 8 (rrowStep pkt)).all (fun t => ringMember t.place (pSrc pkt)) = true) :
    exec (.rrow port pkt) s = .next (((s.countRx port pkt).ringRoom (pCtx pkt) (pLen pkt)).elim
      ((s.countRx port pkt).ringWait port pkt) (fun u => u.holdRow pkt ((s.rrowRow pkt).take pkt))) := by
  obtain ⟨-, hfreed, hseen⟩ := htakes
  have hnew : (List.range (pLen pkt)).any (fun i => (s.rrowRow pkt).seen.contains (rrowFirst pkt + i)) = false := by
    simpa only [List.any_eq_false, List.mem_range, Bool.not_eq_true] using hseen
  have hgood' : (s.stepLow (pCtx pkt) 8 (rrowStep pkt)).any (fun t => !ringMember t.place (pSrc pkt)) = false := by
    simpa [Option.all_eq_true, Option.any_eq_false] using hgood
  rw [State.rrow_heard hhear hop, State.takeRrow_eq, s.countRx_rrowRow, hfreed, hnew, if_neg]
  · rfl
  · simp [hload, hgood']

theorem State.rrow_completes (hop : pOp pkt = 0x29)
    (hrow : ∀ w, s.ring.rows.find? (RingRow.carried pkt) = some w → w.Takes pkt) (hclean : pPoison pkt = false)
    (hgood : (s.stepLow (pCtx pkt) 8 (rrowStep pkt)).all (fun t => ringMember t.place (pSrc pkt)) = true) :
    (((s.countRx port pkt).ringRoom (pCtx pkt) (pLen pkt)).isSome = true →
      Completes (.rrow port pkt) s (fun u => ∃ w ∈ u.ring.rows,
        w.ctx = pCtx pkt ∧ w.handle = rrowHandle pkt ∧ w.step = rrowStep pkt ∧
        ∀ i < pLen pkt, tabFind w.lines (rrowFirst pkt + i) = some (sliceBytes pkt.data (128 * i) 128))) ∧
    ((s.countRx port pkt).ringRoom (pCtx pkt) (pLen pkt) = none →
      Completes (.rrow port pkt) s (fun u => u.ring = { s.ring with wait := s.ring.wait ++ [(port, pkt)] })) := by
  have htakes := State.rrowRow_takes hrow
  have hrun := State.rrow_runs hhear hload hop htakes hgood
  refine ⟨fun hroom => ?_, fun hnone => ?_⟩
  · obtain ⟨u, hu⟩ := Option.isSome_iff_exists.1 hroom
    rw [hu] at hrun
    exact ⟨_, hrun, State.holdRow_lines (s.rrowRow_carried pkt) htakes hclean⟩
  · rw [hnone] at hrun
    exact ⟨_, hrun, s.countRx_ringWait port pkt⟩

/-- An RCLOSE of a member, which announces at least the records that came, is held. -/
theorem State.rclose_runs (hop : pOp pkt = 0x2A)
    (hgood : (s.stepLow (pCtx pkt) 17 (rcloseRec pkt).step).all (fun t => ringMember t.place (rcloseRec pkt).src) = true)
    (hcount : (s.recsFrom (pCtx pkt) (rcloseRec pkt).step (rcloseRec pkt).src (rcloseRec pkt).layer
      (rcloseRec pkt).expert).length ≤ (rcloseRec pkt).count) :
    exec (.rclose port pkt) s = .next ((s.countRx port pkt).holdClose (rcloseRec pkt)) := by
  have hgood' : (s.stepLow (pCtx pkt) 17 (rcloseRec pkt).step).any
      (fun t => !ringMember t.place (rcloseRec pkt).src) = false := by
    simpa [Option.all_eq_true, Option.any_eq_false] using hgood
  have hfits : ¬(!(s.countRx port pkt).ctxLoaded (pCtx pkt) ||
      ((s.countRx port pkt).stepLow (pCtx pkt) 17 (rcloseRec pkt).step).any
        (fun t => !ringMember t.place (rcloseRec pkt).src) ||
      decide ((rcloseRec pkt).count < ((s.countRx port pkt).recsFrom (pCtx pkt) (rcloseRec pkt).step (rcloseRec pkt).src
        (rcloseRec pkt).layer (rcloseRec pkt).expert).length)) = true := by
    simp [hload, hgood', hcount]
  show execRclose port pkt s = _
  rw [execRclose, State.receive_heard (mine := (· == 0x2A)) hhear (beq_iff_eq.2 hop)]
  exact congrArg _ (if_neg hfits)

end Owner

/-! ## At the origin (R437, R438, R439) -/

/-- A ring return that matches names a bound slot of a step in flight. -/
theorem State.find_of_matchRing {s : State} {pkt : Packet} {p : Slot} {c : SlotChoice} (h : s.matchRing pkt = some (p, c)) :
    tabFind s.car.slots (fld (pAddr pkt) 14 0) = some p ∧ (s.stepOf p.ctx p.step).isSome = true := by
  unfold State.matchRing at h
  dsimp only at h
  split at h
  · cases h
  · next q hq =>
    split at h
    · split at h
      · next hc ht =>
        split at h
        · cases h
          exact ⟨hq, by rw [ht]; rfl⟩
        · cases h
      · cases h
    · cases h

/-- Format, first element and elements of an RSTORE's lines (R438). -/
def rstoreFmt (pkt : Packet) : Nat := fld (pAddr pkt) 46 45
def rstoreFrom (pkt : Packet) : Nat := fld (pAddr pkt) 44 36 * lineElems (rstoreFmt pkt)
def rstoreCount (pkt : Packet) : Nat := pLen pkt * lineElems (rstoreFmt pkt)

/-- Lines begin and end with a segment. -/
theorem rstore_end (pkt : Packet) : (rstoreFrom pkt + rstoreCount pkt) / 32 = rstoreFrom pkt / 32 + rstoreCount pkt / 32 := by
  obtain ⟨e, -, hw⟩ := lineElems_eq (rstoreFmt pkt)
  rw [rstoreFrom, rstoreCount, hw, Nat.mul_left_comm, Nat.mul_left_comm (pLen pkt)]
  omega

section Origin

variable {s : State} {port : Nat} {pkt : Packet} (hhear : s.hears port pkt = true)

/-- A ring return that matches nothing is counted as stale. -/
theorem State.countRx_stale (hport : port < 16) : ((s.countRx port pkt).stale).reg aCarCntStale = s.reg aCarCntStale + 1 ∧
    ((s.countRx port pkt).stale).car = s.car ∧ SameMemory s (s.countRx port pkt).stale := by
  refine ⟨?_, s.countRx_car port pkt, s.countRx_sameMemory pkt hport⟩
  rw [State.stale, State.reg_bump_same, s.countRx_reg_of_lt pkt (by decide) (by unfold aCarCntStale aFabCntRxpkt; omega)]

include hhear

theorem State.rstore_stale (hop : pOp pkt = 0x2C) (hmatch : s.matchRing pkt = none) (faults : LineFaults) :
    exec (.rstore port pkt faults) s = .next (s.countRx port pkt).stale := by
  show execRstore port pkt faults s = _
  rw [execRstore, State.receive_heard (mine := (· == 0x2C)) hhear (beq_iff_eq.2 hop), s.countRx_matchRing, hmatch]

theorem State.rwdraw_stale (hop : pOp pkt = 0x2D) (hmatch : s.matchRing pkt = none) :
    exec (.rwdraw port pkt) s = .next (s.countRx port pkt).stale := by
  show execRwdraw port pkt s = _
  rw [execRwdraw, State.receive_heard (mine := (· == 0x2D)) hhear (beq_iff_eq.2 hop), s.countRx_matchRing, hmatch]

variable {p : Slot} {c : SlotChoice} (hmatch : s.matchRing pkt = some (p, c)) (hans : c.answered = false)

include hmatch hans

/-- An RSTORE within its slot's elements is a contribution to each segment that its lines cover. -/
theorem State.rstore_gains (hop : pOp pkt = 0x2C) (hfmt : rstoreFmt pkt ≠ 3) (hend : rstoreFrom pkt + rstoreCount pkt ≤ p.d)
    (hfull : p.full (rstoreFrom pkt / 32) (rstoreCount pkt / 32) = false) :
    Completes (.rstore port pkt []) s (fun u => u.reg aCarCntLine = s.reg aCarCntLine + word (pLen pkt) ∧
      u.SlotGained (fld (pAddr pkt) 14 0) p (rstoreFrom pkt / 32) ((rstoreFrom pkt + rstoreCount pkt) / 32)) := by
  obtain ⟨hfind, hstep⟩ := State.find_of_matchRing hmatch
  have hexec : exec (.rstore port pkt []) s = .next ((s.countRx port pkt).takeLines none (fld (pAddr pkt) 14 0) p c
      c.gate.toNat (rstoreFmt pkt) (rstoreFrom pkt) pkt.data (pLen pkt) (pPoison pkt) []) := by
    show execRstore port pkt [] s = _
    rw [execRstore, State.receive_heard (mine := (· == 0x2C)) hhear (beq_iff_eq.2 hop), s.countRx_matchRing, hmatch]
    refine congrArg _ (if_neg ?_)
    rw [Bool.or_eq_true, beq_iff_eq, decide_eq_true_eq, not_or, not_lt]
    exact ⟨hfmt, hend⟩
  obtain ⟨hent, hgain⟩ := State.takeLines_gain none c.gate.toNat (rstoreFmt pkt) (rstoreFrom pkt) pkt.data (pLen pkt)
    (pPoison pkt) (s := s.countRx port pkt) (by rwa [s.countRx_stepOf]) (by rwa [s.countRx_car]) hans hfull
  refine ⟨_, hexec, ?_, by rw [rstore_end]; exact hgain⟩
  rw [hent.regs _ (by decide) (by decide), State.reg_addCtr_same,
    s.countRx_reg_of_lt pkt (by decide) (by unfold aCarCntLine aFabCntRxpkt; omega)]
  rfl

/-- An RWDRAW for a choice that has returned nothing is a contribution to every segment. -/
theorem State.rwdraw_gains (hop : pOp pkt = 0x2D) (hlined : c.lined = false) (hfull : p.full 0 p.segs.length = false) :
    Completes (.rwdraw port pkt) s (fun u => ∃ q, tabFind u.car.slots (fld (pAddr pkt) 14 0) = some q ∧ q.wdraw = true ∧
      ∀ i : Nat, (q.segs[i]?).map (·.tally) =
        (p.segs[i]?).map (fun g => g.tally + (if 0 ≤ i ∧ i < p.segs.length then 1 else 0))) := by
  obtain ⟨hfind, -⟩ := State.find_of_matchRing hmatch
  obtain ⟨-, p1, hw, hsegs, q, hq, hgain⟩ := State.takeWdraw_gains (s := s.countRx port pkt) (pPoison pkt)
    (by rwa [s.countRx_car]) hans hlined hfull
  refine ⟨_, show execRwdraw port pkt s = _ from State.receive_heard hhear (beq_iff_eq.2 hop), ?_⟩
  rw [s.countRx_matchRing, hmatch]
  exact ⟨q, hq, hgain.wdraw.trans hw, hsegs ▸ hgain.tallies⟩

end Origin

/-- Settles O55: the owner's packets act on the state that has counted them; one without its buffers joins those that wait
(log 53). The origin's returns are contributions to the slot they match. -/
theorem ringsCarryRemoteChoices : Obligations.RingsCarryRemoteChoices := by
  unfold Obligations.RingsCarryRemoteChoices
  intro s port pkt hhear
  refine ⟨fun hop hload => ⟨fun hagain hclose hgood => ?_, State.rhdr_faults hhear hload hop⟩,
    fun hop hload => State.rrow_completes hhear hload hop,
    fun hop hload hgood hcount => ?_, fun hop => ⟨fun p c hmatch hfmt hend hans hfull => ?_, fun hmatch => ?_⟩,
    fun hop => ⟨fun p c hmatch hans => State.rwdraw_gains hhear hmatch hans hop, fun hmatch => ?_⟩⟩
  · obtain ⟨hheld, hwaits⟩ := State.rhdr_completes hhear hload hop hagain hclose hgood
    refine ⟨fun hroom => ?_, hwaits⟩
    obtain ⟨u, hu, k, hk⟩ := hheld hroom
    exact ⟨u, hu, _, hk, rfl, rfl, rfl, rfl, rfl⟩
  · have hring := s.countRx_holdClose port pkt (rcloseRec pkt)
    exact ⟨_, State.rclose_runs hhear hload hop hgood hcount, (congrArg Ring.closes hring :), (congrArg Ring.recs hring :),
      State.countRx_memory hhear⟩
  · obtain ⟨u, hu, hcount, q, hq, hgain⟩ := State.rstore_gains hhear hmatch hans hop hfmt hend hfull
    exact ⟨u, hu, hcount, q, hq, hgain.tallies⟩
  · exact ⟨_, State.rstore_stale hhear hop hmatch [], State.countRx_stale (State.hears_port hhear)⟩
  · exact ⟨_, State.rwdraw_stale hhear hop hmatch, State.countRx_stale (State.hears_port hhear)⟩

end Sys2Proof.Machine
end
